-- ==== Sys2Proof/Word.lean ====
section
/-!
DEFINITION. The word types of the NDT-3364 (spec/03_coded_state.md R49, spec/00_scope.md R9) and the shape of its
addressed memories.
-/
namespace Sys2Proof

/-- One byte of a telegram, frame, image section or record. -/
abbrev Byte := BitVec 8

/-- A 16-bit plain value or payload half-word (R49). -/
abbrev Half := BitVec 16

/-- A register of the module register space (R9). -/
abbrev Word := BitVec 32

/-- A coded word (R49). -/
abbrev Coded := BitVec 64

/-- A cycle number or state epoch (R43, R252). -/
abbrev Cycle := BitVec 48

/-- An addressed memory: pairs of address and entry, addresses strictly rising, no entry equal to the value that an
unlisted address reads as. `Mem.wf` in Sys2Proof/Machine/Mem.lean says the form. -/
abbrev Mem (α : Type) := List (Nat × α)

end Sys2Proof
end

