-- ==== Sys2Proof/Syntax.lean ====
section
/-!
DEFINITION. The commands of the NDT-3364: one constructor of `Instr` for each row of spec/opcode_table.json, with
the data each carries. The numbered requirement a constructor's docstring cites is the one its row names.
-/
namespace Sys2Proof

/-- A lane (R10). -/
inductive LaneId where
  | a | b | c
  deriving DecidableEq, Repr

/-- A set of lanes. -/
structure LaneSet where
  a : Bool
  b : Bool
  c : Bool
  deriving DecidableEq, Repr

/-- One value for each lane. -/
structure PerLane (α : Type) where
  a : α
  b : α
  c : α
  deriving DecidableEq, Repr

/-- A seat S0 to S8 of a lane (R10). -/
abbrev SeatId := Fin 9

/-- Field network A on J4 or B on J5 (R162). -/
inductive NetId where
  | a | b
  deriving DecidableEq, Repr

/-- Heartbeat path 1 (partner link) or 2 (ring) (R239). -/
inductive HbPath where
  | link | ring
  deriving DecidableEq, Repr

/-- Ring port J6 (east) or J7 (west) (R261). -/
inductive RingPort where
  | east | west
  deriving DecidableEq, Repr

/-- An exchange link (R13). -/
inductive XLink where
  | ab | bc | ca
  deriving DecidableEq, Repr

/-- A network port J4 to J10 (R18). -/
inductive Port where
  | j4 | j5 | j6 | j7 | j8 | j9 | j10
  deriving DecidableEq, Repr

/-- LANESEL of an SHP request (R276): lanes, voted view, reserved bits. -/
structure LaneSel where
  lanes : LaneSet
  voted : Bool
  z     : BitVec 4
  deriving DecidableEq, Repr

/-- Format N below the opcode (R78). -/
structure FmtN where
  w   : BitVec 4
  m   : BitVec 2
  idx : BitVec 20
  deriving DecidableEq, Repr

/-- Format G below the opcode (R78); `z` is the reserved field [9:2]. -/
structure FmtG where
  wd : BitVec 4
  wa : BitVec 4
  wb : BitVec 4
  wc : BitVec 4
  z  : BitVec 8
  fn : BitVec 2
  deriving DecidableEq, Repr

/-- Format I below the opcode (R78). -/
structure FmtI where
  wd  : BitVec 4
  wa  : BitVec 4
  fn  : BitVec 2
  imm : BitVec 16
  deriving DecidableEq, Repr

/-- Format F below the opcode (R78); `z` is the reserved bit [16]. -/
structure FmtF where
  w   : BitVec 4
  e   : BitVec 1
  wid : BitVec 4
  z   : BitVec 1
  off : BitVec 16
  deriving DecidableEq, Repr

/-- Format C below the opcode (R78); `z` is the reserved field [23:16]. -/
structure FmtC where
  ck    : BitVec 2
  z     : BitVec 8
  index : BitVec 16
  deriving DecidableEq, Repr

/-- Format B below the opcode (R78); `z` is the reserved field [21:16]. -/
structure FmtB where
  wa  : BitVec 4
  z   : BitVec 6
  off : BitVec 16
  deriving DecidableEq, Repr

/-- Format E below the opcode (R78): 26 reserved bits. -/
structure FmtE where
  z : BitVec 26
  deriving DecidableEq, Repr

/-- A certificate as the module uses it (R307, R311): its bytes, the subject public key, serialNumber and
organizationalUnitName, its issuer name and serial number. -/
structure Cert where
  raw     : List Byte
  pub     : List Byte
  subject : List Byte
  ou      : List Byte
  issuer  : List Byte
  serial  : List Byte
  deriving DecidableEq, Repr

/-- CRIT_CONFIRM (R277, R282) as it reaches the lanes named. -/
structure ConfirmMsg where
  sess      : Nat
  req       : Word
  lanes     : LaneSet
  challenge : BitVec 128
  applyCyc  : Cycle
  cmac      : BitVec 128
  deriving DecidableEq, Repr

/-- The measurements of clock start-up (R325): CAL of each attempt, RC counts of each attempt, crystal counts within
the 50 ms limit, PLL lock attempts, and whether all monitors stand within their windows at step 5. -/
structure ClockStart where
  cals     : List Nat
  rcCounts : List Nat
  xtal     : List Nat
  locks    : List Bool
  monitors : Bool
  deriving DecidableEq, Repr

/-- What one read of a lane's key chip returns (R132, R150): nothing, wrong SFDP tables, a read error after the bytes
already read, or the chip's bytes. -/
inductive KeyRead where
  | absent
  | sfdpBad
  | error (read : List Byte)
  | bytes (chip : List Byte)
  deriving DecidableEq, Repr

/-- The two reads that one START may make of a key chip (R151). -/
structure KeyReads where
  first  : KeyRead
  second : KeyRead
  deriving DecidableEq, Repr

/-- What a lane meets at release of reset (R325, R362, R150): its straps, clock measurements, failing START tests,
the ROM copy of the inverse of K_lane (R50), its key chip, and the START test outcome of an FCU that starts with it
(none when the lane alone was reset, R343). -/
structure StartEnv where
  straps    : BitVec 2
  clock     : ClockStart
  testsFail : BitVec 8
  romInv    : Coded
  reads     : KeyReads
  keyClosed : Bool
  fcuTests  : Option Bool
  deriving DecidableEq, Repr

/-- START status frame (R13): slot, MID, digest, GEN, MIN_LANES, START test outcome, stop, arming outcome code, key
agreement values (R305). -/
structure StartStatus where
  slot     : BitVec 2
  mid      : BitVec 128
  digest   : Option (BitVec 384)
  gen      : Word
  minLanes : Byte
  testsOk  : Bool
  stopped  : Bool
  code     : Byte
  pubs     : Option (List Byte × List Byte)
  confirm  : Option (BitVec 64)
  deriving DecidableEq, Repr

/-- What a lane meets at a boundary: die temperature (R347), bus and input voltages (R354), dispatch instants and the
telegrams of each network that had not begun to leave (R35, R45), the telegrams seen on the tap of each network in
the cycle just ended (R19), the failed MRAM write attempts of a record written here (R369), the lowest and highest board
temperature (R251), the frames of the links to the next and the previous lane that failed their CRC-32C and were
discarded in the cycle just ended (R13), and whether the last DOZE_SNAP still leaves (R250). The dispatch figures are those of the dispatch that this boundary starts. -/
structure BoundaryEnv where
  temp      : Int
  busTenMv  : Nat
  mainV     : Nat
  backupV   : Nat
  dispStart : Nat
  dispEnd   : Nat
  unsentA   : Nat
  unsentB   : Nat
  tapA      : Option Nat
  tapB      : Option Nat
  mramFails : Nat
  boardLow  : Int
  boardHigh : Int
  discNext  : Nat
  discPrev  : Nat
  dozeBusy  : Bool
  deriving DecidableEq, Repr

/-- A frame received on a field network (R162, R163), with the error that the lane's intake coder makes in the first word
that it forms of it, 0 where the coder works (R65). -/
structure FieldFrame where
  fcsOk    : Bool
  tagged   : Bool
  vid      : BitVec 12
  options  : Bool
  fragment : Bool
  srcIp    : Word
  dstIp    : Word
  dstPort  : Half
  sumOk    : Bool
  data     : List Byte
  coderErr : Coded
  deriving DecidableEq, Repr

/-- Where P6 of a lane ends, or D_check finds it open: the instant after the boundary in units of 10 µs (R24, R45, R59). -/
structure CheckEnd where
  lane : LaneId
  t    : Nat
  deriving DecidableEq, Repr

/-- A sample of the FCU: the voltages of LI0 to LI31 and RESTORE in units of 0.1 V, none for a path that a test holds open
(R216); the L+ of each group in millivolts (R234); whether each output reads 5 V or more (R227). -/
structure InputScan where
  volts : List (Option Int)
  mv    : List Nat
  high  : List Bool
  deriving DecidableEq, Repr

/-- Round-1 frame (R194): cycle number and OC_SEQ[15:0] of each candidate by station position. -/
structure Round1 where
  cyc   : Cycle
  cands : List (Nat × Half)
  deriving DecidableEq, Repr

/-- Round-2 frame (R196): cycle number and the positions whose target the sender holds. -/
structure Round2 where
  cyc  : Cycle
  held : List Nat
  deriving DecidableEq, Repr

/-- Output digest frame (R200). -/
structure DigestFrame where
  cyc    : Cycle
  shadow : Bool
  whole  : BitVec 128
  stn    : List (BitVec 64)
  deriving DecidableEq, Repr

/-- Seal tags of one lane (R184): one tag per station and per border segment, or a seal decoder failure report. -/
structure SealFrame where
  cyc  : Cycle
  tags : Option (List (BitVec 64) × List (BitVec 64))
  deriving DecidableEq, Repr

/-- Lane status frame (R13, R203, R245, R335): arrival relative to the receiver's boundary in 0.1 µs, whether it was
relayed (R14), the sender's cycle, the lanes it holds in service, the lanes of which it has reported two consecutive
deviations above 2,000, its takeover conditions, its state code; mode, outvote counts, SEAT_STATE codes, deviations of the
next and the previous lane, links up, whether it relays, its
ports down (R333), and whether it dropped the cycle before (R186). -/
structure LaneStatus where
  cyc      : Cycle
  arrival  : Int
  relayed  : Bool
  service  : LaneSet
  overs    : LaneSet
  takeover : Bool
  code     : BitVec 4
  mode     : BitVec 3
  dropped  : Bool
  outvotes : PerLane Nat
  seats    : List (BitVec 3)
  devNext  : Option Int
  devPrev  : Option Int
  links    : BitVec 3
  relays   : Bool
  portDown : BitVec 9
  deriving DecidableEq, Repr

/-- A station record as a snapshot carries it (R178, R208). -/
structure SnapStation where
  pos     : Nat
  stnId   : Word
  e       : Option Cycle
  lastSeq : Option Word
  state   : BitVec 2
  run     : Nat
  blank   : Bool
  gen     : Word
  pending : Option Word
  deriving DecidableEq, Repr

/-- A node's place in a snapshot (R254): index, tag and directory byte KHC, current and previous value. -/
structure SnapNode where
  idx  : Nat
  tag  : Word
  khc  : Byte
  cur  : Half
  prev : Half
  deriving DecidableEq, Repr

/-- A border neighbour's ages in a snapshot (R208, R254). -/
structure SnapBorder where
  nbSlot : Nat
  j      : Option Cycle
  state  : BitVec 2
  run    : Nat
  blank  : Bool
  deriving DecidableEq, Repr

/-- A force entry in a snapshot (R208, R290): node index and tag, value, first active cycle. -/
structure SnapForce where
  node  : Nat
  tag   : Word
  kind  : BitVec 4
  value : Half
  start : Cycle
  remove : Option Cycle
  next  : Option (Half × Cycle)
  deriving DecidableEq, Repr

/-- A snapshot base (R208, R242): plain values with their bank cycle numbers, timer words, accumulator, station
records, border ages, force table, cycle number, commander epoch, state epoch, and the tag of each handle's owning TIMER
node (R254). -/
structure SnapBase where
  cyc     : Cycle
  bcnCur  : Cycle
  bcnPrev : Cycle
  nodes   : List SnapNode
  timers  : List (Nat × Half)
  owners  : List (Nat × Word)
  acc     : Nat
  stns    : List SnapStation
  borders : List SnapBorder
  forces  : List SnapForce
  epoch   : Word
  sepoch  : Cycle
  deriving DecidableEq, Repr

/-- A snapshot delta (R208): the cycle, whether it committed, changed node values, timer words, station records,
border ages, and the force table (R257). -/
structure SnapDelta where
  cyc       : Cycle
  committed : Bool
  nodes     : List (Nat × Half)
  timers    : List (Nat × Half)
  stns      : List SnapStation
  borders   : List SnapBorder
  forces    : List SnapForce
  deriving DecidableEq, Repr

/-- Messages of the snapshot class on an exchange link (R13, R208). -/
inductive SnapMsg where
  | base (b : SnapBase)
  | digest (d : BitVec 256)
  | delta (d : SnapDelta)
  deriving DecidableEq, Repr

/-- SNAP_END (R242): base digest with the tags of two lanes. -/
structure SnapEnd where
  digest : BitVec 256
  pair   : Byte
  gen    : Word
  tag1   : BitVec 64
  tag2   : BitVec 64
  deriving DecidableEq, Repr

/-- Messages of the voted-view class (R13, R381). -/
inductive VotedMsg where
  | request (sess : Nat) (req : Word) (addr : Word) (count : Nat) (m : Cycle)
  | samples (sess : Nat) (req : Word) (sender : LaneId) (values : List (Option Word))
  | fields (sess : Nat) (req : Word) (sender : LaneId) (field : List Byte)
  deriving DecidableEq, Repr

/-- BOUNDARY frame of a lane-to-FCU link (R220), with its arrival on the FCU's clock in microseconds. -/
structure BoundaryFrame where
  crcOk    : Bool
  seq      : Half
  cyc      : Cycle
  excluded : Bool
  active   : Bool
  mask     : BitVec 4
  at_us    : Nat
  deriving DecidableEq, Repr

/-- COMMAND frame of a lane-to-FCU link (R220); no word is the HOLD flag. -/
structure CommandFrame where
  crcOk : Bool
  seq   : Half
  cyc   : Cycle
  word  : Option (BitVec 32)
  deriving DecidableEq, Repr

/-- CYCLE SET frame (R220). Group states use the codes of LIO_GRP (R236); L+ is in units of 0.2 V. -/
structure CycleSet where
  crcOk    : Bool
  seq      : Half
  cyc      : Cycle
  values   : BitVec 32
  valid    : BitVec 32
  restore  : Bool
  jam      : Bool
  accepted : Bool
  accCnt   : Nat
  jamCnt   : Nat
  refCnt   : Nat
  groups   : List (BitVec 8)
  lplus    : List Nat
  faults   : List (BitVec 4)
  readback : BitVec 32
  degLeft  : List Nat
  present  : LaneSet
  deriving DecidableEq, Repr

/-- Ring header (R262). -/
structure RingHdr where
  ver   : Byte
  cls   : Byte
  dst   : Byte
  src   : Byte
  dir   : Byte
  hops  : Byte
  len   : Half
  seq   : Word
  res   : Word
  deriving DecidableEq, Repr

/-- A ring frame as it arrives: the port, the lanes that receive it, EtherType, header, residence time and delivering
link's delay are the module's own (R262, R266). -/
structure RingRx where
  port  : RingPort
  lanes : LaneSet
  ether : Half
  fcsOk : Bool
  resid : Nat
  hdr   : RingHdr
  deriving DecidableEq, Repr

/-- CENSUS body (R267). -/
structure Census where
  mid     : BitVec 128
  areaId  : Word
  partner : Byte
  role    : Byte
  gen     : Word
  stage   : BitVec 4
  deriving DecidableEq, Repr

/-- TUNNEL body (R278). -/
structure TunnelBody where
  tid  : Byte
  opn  : Bool
  cls  : Bool
  mnt  : Bool
  off  : Word
  ack  : Word
  data : List Byte
  deriving DecidableEq, Repr

/-- Outcome of a supervisor slice (R360). -/
inductive SliceEnd where
  | matched | mismatched | unfinished
  deriving DecidableEq, Repr

/-- What a lane meets in its guard (R33, R184, R360, R361): the instant its seal work completed, whether a known
answer was wrong, how a supervisor slice started here ends, and whether the transmit-side bytes are ready. -/
structure GuardEnv where
  kaWrong : Bool
  slice   : SliceEnd
  deriving DecidableEq, Repr

/-- TLS handshake facts (R309, R310): cipher suite, group, signature scheme, offered session resumption, the client
chain, and for each lane whether the client Finished and CertificateVerify check out. -/
structure TlsHello where
  suite    : Half
  group    : Half
  scheme   : Half
  psk      : Bool
  early    : Bool
  random   : BitVec 256
  chain    : List Cert
  finished : LaneSet
  tapOk    : LaneSet
  deriving DecidableEq, Repr

/-- A block's answer to the power controller (R350). -/
inductive HsAnswer where
  | accept | delay | refuse
  deriving DecidableEq, Repr

/-- What the scrubber finds at a word (R60, R363). -/
inductive ScrubFind where
  | clean | single | double
  deriving DecidableEq, Repr

/-- A stored word outside the banks whose ECC can fail (R60): an inbound half-word of P1 or of P5 and an outbound one by
buffer key, a timer word, the word at byte `off` of image section `sec`, and the force table entry of a node. -/
inductive DramCell where
  | inP1 (key : Nat)
  | inP5 (key : Nat)
  | out (key : Nat)
  | timer (h : Nat)
  | table (sec off : Nat)
  | force (node : Nat)
  deriving DecidableEq, Repr

/-- Where the scrubber reads: a word of a physical bank of the state store, a word that the model names, or a DRAM word
given by the progress of the patrol alone. -/
inductive ScrubLoc where
  | bank (phys : Fin 3) (idx : BitVec 20)
  | cell (c : DramCell)
  | dram (progress : Half) (wrap : Bool)
  deriving DecidableEq, Repr

/-- A supply input (R339). -/
inductive SupIn where
  | main | backup
  deriving DecidableEq, Repr

/-- What fails at a lane's clock source in service (R332, R337): the crystal stops, it runs outside its limits, or the PLL
loses lock. -/
inductive CrystalFault where
  | stopped | offFrequency | lockLost
  deriving DecidableEq, Repr

/-- A lane regulator rail (R343). -/
inductive Rail where
  | seat | sup | dram | io
  deriving DecidableEq, Repr

/-- A requested change of the seat rail or of a divider (R344). -/
inductive RailReq where
  | volt (mv : Nat)
  | seatDiv (d : BitVec 6)
  | supDiv (d : BitVec 6)
  deriving DecidableEq, Repr

/-- An admitted power mode target of WAIT (R348). -/
inductive WaitTarget where
  | doze | slumber
  deriving DecidableEq, Repr

/-- Why a wake event comes (R349): a mode change that leaves DORMANT, or the silence of R250; with the outcome of the
clock steps repeated after SLUMBER and the low-power count of the sleep (R352). -/
structure WakeEnv where
  clock : ClockStart
  count : Nat
  deriving DecidableEq, Repr

/-- A claim body (R308): the new hash, and for a later claim the current public key and signature. -/
structure ClaimBody where
  hash  : BitVec 384
  later : Option (List Byte × List Byte)
  deriving DecidableEq, Repr

/-- An ANCHOR record (R313): sequence number, 1 to 4 CA certificates, the signed bytes and the signature. -/
structure AnchorRec where
  seq   : Word
  certs : List Cert
  sig   : List Byte
  deriving DecidableEq, Repr

/-- A REVOKE record (R313): each entry is an issuer name hash and a serial number. -/
structure RevokeRec where
  seq     : Word
  entries : List (BitVec 256 × List Byte)
  sig     : List Byte
  deriving DecidableEq, Repr

/-- A WS_REG record (R314). -/
structure WsReg where
  wsId   : Word
  action : Byte
  seq    : Word
  eph    : List Byte
  wrap   : List Byte
  sig    : List Byte
  deriving DecidableEq, Repr

/-- The commands of the module, in the order of spec/opcode_table.json. -/
inductive Instr where
  -- node instructions: lane, seat, fields of the word (R78)
  | ld (l : LaneId) (x : SeatId) (f : FmtN)
  | st (l : LaneId) (x : SeatId) (f : FmtN)
  | andN (l : LaneId) (x : SeatId) (f : FmtN)
  | orN (l : LaneId) (x : SeatId) (f : FmtN)
  | andnN (l : LaneId) (x : SeatId) (f : FmtN)
  | subr (l : LaneId) (x : SeatId) (f : FmtN)
  | edg (l : LaneId) (x : SeatId) (f : FmtN)
  | tstart (l : LaneId) (x : SeatId) (f : FmtN)
  | tstop (l : LaneId) (x : SeatId) (f : FmtN)
  | tqry (l : LaneId) (x : SeatId) (f : FmtN)
  | texp (l : LaneId) (x : SeatId) (f : FmtN)
  | trun (l : LaneId) (x : SeatId) (f : FmtN)
  | mov (l : LaneId) (x : SeatId) (f : FmtG)
  | not (l : LaneId) (x : SeatId) (f : FmtG)
  | and (l : LaneId) (x : SeatId) (f : FmtG)
  | or (l : LaneId) (x : SeatId) (f : FmtG)
  | xor (l : LaneId) (x : SeatId) (f : FmtG)
  | andn (l : LaneId) (x : SeatId) (f : FmtG)
  | sel (l : LaneId) (x : SeatId) (f : FmtG)
  | cmp (l : LaneId) (x : SeatId) (f : FmtG)
  | cadd (l : LaneId) (x : SeatId) (f : FmtG)
  | csub (l : LaneId) (x : SeatId) (f : FmtG)
  | ldi (l : LaneId) (x : SeatId) (f : FmtI)
  | cmpi (l : LaneId) (x : SeatId) (f : FmtI)
  | caddi (l : LaneId) (x : SeatId) (f : FmtI)
  | csubi (l : LaneId) (x : SeatId) (f : FmtI)
  | mtch (l : LaneId) (x : SeatId) (f : FmtI)
  | stn (l : LaneId) (x : SeatId) (f : FmtC)
  | unpk (l : LaneId) (x : SeatId) (f : FmtF)
  | pack (l : LaneId) (x : SeatId) (f : FmtF)
  | csel (l : LaneId) (x : SeatId) (f : FmtG)
  | cfb (l : LaneId) (x : SeatId) (f : FmtG)
  | cfh (l : LaneId) (x : SeatId) (f : FmtG)
  | cfw (l : LaneId) (x : SeatId) (f : FmtG)
  | crd (l : LaneId) (x : SeatId) (f : FmtG)
  | cwr (l : LaneId) (x : SeatId) (f : FmtG)
  | ccmp (l : LaneId) (x : SeatId) (f : FmtG)
  | br (l : LaneId) (x : SeatId) (f : FmtB)
  | brz (l : LaneId) (x : SeatId) (f : FmtB)
  | brnz (l : LaneId) (x : SeatId) (f : FmtB)
  | fin (l : LaneId) (x : SeatId) (f : FmtE)
  | seatFault (l : LaneId) (x : SeatId) (cause : BitVec 4)
  -- register space
  | regRead (sess : Nat) (req : Word) (sel : LaneSel) (addr : Word) (count : Nat)
  | regWrite (sess : Nat) (req : Word) (sel : LaneSel) (addr : Word) (value : Word)
  | loReadLatch (sess : Nat) (l : LaneId) (addr : Word)
  | cycDropCauseClr (lanes : LaneSet) (value hold : Word)
  | seatNfClr (lanes : LaneSet) (value hold : Word)
  | seatFaultClr (lanes : LaneSet) (value hold : Word)
  | cvuFaultClr (lanes : LaneSet) (value hold : Word)
  | clkForcedClr (lanes : LaneSet) (value hold : Word)
  | pwrStatusClr (lanes : LaneSet) (value hold : Word)
  | supWarnClr (lanes : LaneSet) (value hold : Word)
  | stsFaultClr (lanes : LaneSet) (value hold : Word)
  | secTapEnWrite (lanes : LaneSet) (value : Word)
  -- host commands and critical commands
  | cmdPost (sess : Nat) (req : Word) (lanes : LaneSet) (slot value : Half) (applyCyc : Cycle)
  | critPrepare (sess : Nat) (req : Word) (lanes : LaneSet) (op : Byte) (wsId : Word) (prepCyc : Cycle)
      (params : List Byte)
  | critConfirm (m : ConfirmMsg)
  | wsUnlock (l : LaneId) (wsId : Word)
  | challengeExpiry (l : LaneId) (challenge : BitVec 128)
  | emergencyRelease (m : ConfirmMsg)
  | sectionReset (m : ConfirmMsg)
  | forceSet (m : ConfirmMsg)
  | forceRemove (m : ConfirmMsg)
  | forceRemoveAll (m : ConfirmMsg)
  | arming (m : ConfirmMsg)
  | handover (m : ConfirmMsg)
  | reKey (m : ConfirmMsg)
  | modeChange (m : ConfirmMsg)
  | evtSub (sess : Nat) (req : Word) (mask : Word)
  | recRead (sess : Nat) (req : Word) (sel : LaneSel) (first : Word) (count : Nat) (changing : List Nat)
  | imgRead (sess : Nat) (req : Word) (sect : Byte) (off : Word) (len : Nat)
  | keepalive (sess : Nat) (req : Word)
  -- provisioning (R319)
  | claim (sess : Nat) (req : Word) (body : ClaimBody)
  | csr (sess : Nat) (req : Word)
  | cert (sess : Nat) (req : Word) (chain : List Cert)
  | anchor (sess : Nat) (req : Word) (r : AnchorRec)
  | revoke (sess : Nat) (req : Word) (r : RevokeRec)
  | wsReg (sess : Nat) (req : Word) (r : WsReg)
  | stnPkg (sess : Nat) (req : Word) (pos : Half) (pending : Byte) (qoc : List Byte)
  | peerExport (sess : Nat) (req : Word) (purpose : Byte) (area gen : Word) (chain : List Cert)
  | peerImport (sess : Nat) (req : Word) (pkg : List Byte) (chain : List Cert)
  | peerUse (sess : Nat) (req : Word) (purpose : Byte) (area gen : Word)
  -- START
  | resetRelease (l : LaneId) (env : StartEnv)
  | startStatusRx (l sender : LaneId) (f : StartStatus)
  | digestWaitExpiry (l : LaneId)
  | keyPresenceOpen (l : LaneId)
  | keyPresenceClose (l : LaneId)
  | startRepeat (reads : PerLane KeyReads)
  | startMarkRx (l sender : LaneId)
  | linkProbe (l peer : LaneId) (num : Word)
  | linkProbeRx (l peer : LaneId) (num : Word) (back : Bool) (roundTrip turnaround : Nat)
  -- the vital cycle
  | cycleBoundary (l : LaneId) (env : BoundaryEnv)
  | seatSliceComplete (l : LaneId) (x : SeatId) (first second : Bool) (us : Nat)
  | seatSliceIncomplete (l : LaneId) (x : SeatId)
  | untestedLimit (l : LaneId)
  | sweepComplete (l : LaneId) (t : Nat)
  | statusTelegramRx (l : LaneId) (net : NetId) (fr : FieldFrame)
  | freeze (l : LaneId)
  | round1FrameRx (l sender : LaneId) (f : Round1)
  | round1Deadline (l : LaneId)
  | telegramFetchRx (l sender : LaneId) (pos : Nat)
  | fetchReplyRx (l : LaneId) (pos : Nat) (net : NetId) (fr : FieldFrame)
  | round2Send (l : LaneId)
  | round2FrameRx (l sender : LaneId) (f : Round2)
  | agreementEnd (l : LaneId) (t walk : Nat)
  | correctionComplete (l : LaneId) (t : Nat)
  | checkDeadline (c : CheckEnd)
  | digestSend (l : LaneId)
  | outputDigestRx (l sender : LaneId) (f : DigestFrame)
  | vote (l : LaneId) (t : Nat)
  | sealTagRx (l sender : LaneId) (f : SealFrame)
  | guardStart (l : LaneId) (t : Nat) (env : GuardEnv)
  | sealFailureNoticeRx (l sender : LaneId) (cyc : Cycle)
  | deadlineMiss (l : LaneId) (phase : BitVec 4)
  | laneStatusRx (l sender : LaneId) (f : LaneStatus)
  | xlLinkDown (k : XLink)
  | snapshotRequestRx (l sender : LaneId)
  | snapshotRx (l sender : LaneId) (m : SnapMsg)
  | snapshotTimeout (l : LaneId)
  | votedViewRx (l : LaneId) (m : VotedMsg)
  | regSampleTimeout (sess : Nat) (req : Word) (l : LaneId)
  -- the field controller
  | fcuBoundaryRx (l : LaneId) (f : BoundaryFrame)
  | b2Timeout
  | cycleSetLatch
  | cycleSetRx (l : LaneId) (f : CycleSet)
  | fcuCommandRx (l : LaneId) (f : CommandFrame)
  | outputApply
  | groupOffCheck (g : Fin 4) (high : BitVec 8)
  | inputSample (k : InputScan)
  | inputPathTest (k : Fin 33) (zero : Bool)
  | readbackTest (ch : Fin 32) (ok : Bool)
  | stuckOnDetect (ch : Fin 32)
  | failedOffDetect (ch : Fin 32)
  | pepperPulseStart (ch : Fin 32) (current : Nat)
  | pepperPulseEnd (ch : Fin 32) (fall back : Bool)
  | thermalShutdown (ch : Fin 32)
  | overloadRetry (ch : Fin 32) (takes : Bool)
  | toggleStop (l : LaneId) (g : Fin 4)
  | vprEnergise (g : Fin 4)
  | vprDeenergise (g : Fin 4)
  | lplusWarning (g : Fin 4) (mv : Nat)
  | lplusUndervoltage (g : Fin 4) (mv : Nat)
  | lplusRecovery (g : Fin 4) (mv : Nat) (high : BitVec 8)
  | restorePress (inactiveMs activeMs : Nat)
  | restoreJam
  | degradeLimitFcu (g : Fin 4)
  | degradeLimitLane (l : LaneId) (g : Fin 4)
  | fcuFault
  -- partner
  | heartbeatRx (l : LaneId) (ring : Option RingRx) (crcOk : Bool) (arrival : Int) (bytes : List Byte)
  | stage5Heartbeat
  | snapBaseRx (l : LaneId) (crcOk : Bool) (last : Bool) (seg : SnapBase)
  | snapDeltaRx (l : LaneId) (crcOk : Bool) (d : SnapDelta)
  | snapEndRx (l : LaneId) (crcOk : Bool) (e : SnapEnd)
  | healthRx (l : LaneId) (crcOk : Bool) (bytes : List Byte)
  | dozeSnapRx (l : LaneId) (crcOk : Bool) (b : SnapBase) (digest : BitVec 256)
  | slumberEntry
  | wakeEvent (l : LaneId) (env : WakeEnv)
  | wait (l : LaneId) (target : WaitTarget) (wakeAfter : Option (Fin 4))
  | handshakeRequest (l : LaneId) (sinceRollbackUs : Nat)
  | handshakeTimeout (l : LaneId)
  -- ring
  | censusSend
  | censusRx (r : RingRx) (c : Census)
  | dupSlotExpiry
  | delayReqSend (p : RingPort) (probe : Word)
  | delayReqRx (r : RingRx) (probe : Word) (turnaround : Nat)
  | delayRespRx (r : RingRx) (probe : Word) (turnaround roundTrip : Nat)
  | borderRx (r : RingRx) (body : List Byte)
  | tunnelRx (r : RingRx) (b : TunnelBody)
  | tunnelRetransmit (gw : Byte) (tid : Fin 16)
  | tunnelTimeout (gw : Byte) (tid : Fin 16)
  -- host sessions
  | hostConnect (maint : Bool) (conn : Nat) (tuple preamble data : List Byte)
  | tlsHandshake (conn : Nat) (h : TlsHello)
  | tlsHandshakeTimeout (conn : Nat)
  | sessionIdleTimeout (sess : Nat)
  | sessionClose (sess : Nat)
  | arpRx (net : NetId) (target : Word)
  | arpRefresh (net : NetId) (pos : Nat) (mac : BitVec 48)
  -- clocks
  | monitorTrip (l : LaneId) (domain : Fin 9)
  | monitorCalibration (l : LaneId) (cal : Nat)
  | crystalFail (l : LaneId) (c : CrystalFault)
  | sourceSwitchForced (l : LaneId) (domain : Fin 10)
  | dividerStep (l : LaneId) (seat : Bool)
  | meterGateEnd (l : LaneId) (ch : Fin 6) (count : Nat) (linkBad : Bool)
  | gateRequest (l : LaneId) (gate : Fin 17) (enable : Bool)
  | voltageRequest (l : LaneId) (r : RailReq)
  | thermalStepDown (l : LaneId)
  | thermalStepUp (l : LaneId)
  -- supplies
  | inputPresent (inp : SupIn) (v : Nat)
  | inputAbsent (inp : SupIn) (v : Nat) (other : Nat)
  | inputOvervoltage (inp : SupIn) (v : Nat)
  | mainPreferenceRestore
  | holdupSet
  | busReset
  | dipStart
  | dipEnd (tenthMs : Nat) (lowTenMv : Nat)
  | railFail (l : LaneId) (r : Rail)
  -- memory and links
  | scrub (l : LaneId) (loc : ScrubLoc) (find : ScrubFind)
  | xlLinkUp (k : XLink)
  | portLinkChange (p : Port) (up : Bool)
  | handshakeAnswer (l : LaneId) (ans : HsAnswer)
  | randomHealthTestFail (l : LaneId)
  | keyupdate (sess : Nat) (lanes : LaneSet)
  deriving DecidableEq, Repr

end Sys2Proof
end

