-- ==== Sys2Proof/Config.lean ====
section
/-!
DEFINITION. What an implementation or a standard outside the spec fixes. The coded-word constants are those of
spec/03_coded_state.md R50. The certificates and the TLS records that R307 to R313 take from standards, and record layouts
that the spec does not give, are uninterpreted constants without a body (log entry 3), and so are the values that a random generator or
a factory fixes (log entry 4): nothing in Lean can prove a value of one. The hashes, AES and the curve P-384 are
Machine/Sha.lean, Machine/Aes.lean and Machine/P384.lean.
-/
namespace Sys2Proof.Config

/-- K_lane by lane slot (R50). -/
def kOf (slot : BitVec 2) : Coded :=
  if slot = 0 then 0xB5C39A2F6E17#64 else if slot = 1 then 0xD94E1B73A0C5#64 else 0x8E27F4D65B39#64

/-- Q_lane by lane slot (R50). -/
def qOf (slot : BitVec 2) : Coded :=
  if slot = 0 then 0xC6A4D81357E92B0D#64 else if slot = 1 then 0x8F1D3C5AB246E9F3#64 else 0xA37B92E04DC51867#64

/-- The inverse of K_lane modulo 2^64 by lane slot, K_lane · K_lane^-1 = 1 (R49). -/
def kInvOf (slot : BitVec 2) : Coded :=
  if slot = 0 then 0xEA8A82AC8EEEA9A7#64 else if slot = 1 then 0x7B620E5E2E3EDE0D#64 else 0x591F8F3D7FEE2309#64

/-- A value that the spec leaves open, numbered by the model's counter. FREE VALUE, log entry 4. -/
opaque freeBits (w : Nat) : Nat → BitVec w

/-- Factory serial number of the module, MID bytes 4 to 15 (R304). FREE VALUE, log entry 4. -/
opaque factorySerial : BitVec 96

/-- A certificate chain verifies to one of the anchors given first (R311). Uninterpreted, log entry 3. -/
opaque chainVerifies : List Cert → List Cert → Bool

/-- A certificate verifies under its own public key (R312). Uninterpreted, log entry 3. -/
opaque selfSigned : Cert → Bool

/-- A PKCS#10 request over a public key with a serialNumber, signed by the seed's key (R307). Uninterpreted, log 3. -/
opaque csrBytes : BitVec 448 → List Byte → List Byte

/-- The self-signed certificate over the public key of a seed with a serialNumber (R312). Uninterpreted, log entry 3. -/
opaque selfCert : BitVec 448 → List Byte → List Byte

/-- Hash of a TLS handshake up to the server's Certificate: the client's part, the server random and key share, and the
certificates (R309, R310). Uninterpreted, log entry 3. -/
opaque transcript : TlsHello → List Byte → List (List Byte) → BitVec 384

/-- The bytes of an ANCHOR record before its signature, whose layout the spec does not give (R313). Uninterpreted, log entry 3. -/
opaque anchorBytes (seq : Word) (certs : List Cert) : List Byte

/-- The bytes of a REVOKE record before its signature, whose layout the spec does not give (R313). Uninterpreted, log entry 3. -/
opaque revokeBytes (seq : Word) (entries : List (BitVec 256 × List Byte)) : List Byte

/-- MAC address of the module on a field network, as the source of a frame that a lane sends (R162). FREE VALUE, log entry
116. -/
opaque portMac : NetId → LaneId → BitVec 48

/-- Destination of a frame to a station whose MAC address no ARP has resolved yet (R164). FREE VALUE, log entry 116. -/
opaque macUnresolved : Word → BitVec 48

/-- The type-of-service byte and the identification of the IPv4 header of a telegram (R162). FREE VALUE, log entry 116. -/
opaque ipOpen : List Byte → Byte × Half

/-- SHA-256 over the content of a snapshot base (R208, R242), whose byte layout the spec does not give. Uninterpreted,
log entry 3. -/
opaque baseDigest : SnapBase → BitVec 256

/-- TLS 1.3 record bytes of a message: connection, traffic key generation, stream offset, message (R309). Its keys come from the
client's part of the handshake, which no command carries. Uninterpreted, log entry 3. -/
opaque tlsBytes (conn keyGen off : Nat) (msg : List Byte) : List Byte

/-- Seed k of the lane ROM, which a seat's PRPG loads for slice k (R356). FREE VALUE, log entry 112. -/
opaque bistSeed : Nat → Coded

/-- What a PRPG holds after the 1,024 patterns of a slice (R355, R356). FREE VALUE, log entry 112. -/
opaque bistRun : Coded → Coded

/-- The expected signature of slice k in the lane ROM (R357). FREE VALUE, log entry 112. -/
opaque bistSignature : Nat → BitVec 192

/-- The open-load threshold in units of 0.1 mA, at which an on-state current counts as a load (R393: 5 to 10 mA). FREE
VALUE within R393's bounds, log entry 4. -/
opaque openLoadRaw : Nat

/-- The open-load threshold kept within the bounds of R393, 50 to 100 tenths of a milliampere. -/
def openLoad : Nat := 50 + openLoadRaw % 51

end Sys2Proof.Config
end

