-- ==== Sys2Proof/WellFormed.lean ====
section
/-!
DEFINITION. What a sender of commands may put into a command: reserved fields 0 and permitted modes of a node
instruction (spec/04_node_programs.md R78), and the ranges and lengths that the spec gives the operands of the others.
A command that is not well formed still has its meaning: the module answers it with the node fault or status that the
spec names.
-/
namespace Sys2Proof

/-- Fields of a format N word that its row permits (R78, R80, R83, R86): `ms` lists the permitted M, `useW` whether W
is used. -/
def FmtN.ok (f : FmtN) (ms : List (BitVec 2)) (useW : Bool) : Bool :=
  ms.contains f.m && (useW || f.w == 0)

/-- Fields of a format G word (R78): WD, WA, WB, WC used or 0, FN among those permitted, [9:2] zero. -/
def FmtG.ok (f : FmtG) (useD useA useB useC : Bool) (fns : List (BitVec 2)) : Bool :=
  (useD || f.wd == 0) && (useA || f.wa == 0) && (useB || f.wb == 0) && (useC || f.wc == 0) && f.z == 0 &&
    fns.contains f.fn

/-- Fields of a format I word (R78). -/
def FmtI.ok (f : FmtI) (useA useFn : Bool) : Bool := (useA || f.wa == 0) && (useFn || f.fn == 0)

/-- Every value of a two-bit field. -/
def allTwo : List (BitVec 2) := [0, 1, 2, 3]

/-- The four bytes of the route preamble of R273, without its slot. -/
def preambleTag : List Byte := [0x53, 0x48, 0x50]

/-- LANESEL[7:4] is 0 (R276). -/
def LaneSel.ok (s : LaneSel) : Bool := s.z == 0

/-- A status or command length of R148. -/
def lengthOk (n : Nat) : Bool := 80 ≤ n && n ≤ 1472

/-- Well-formed commands. -/
def Instr.wf : Instr → Bool
  | .ld _ _ f | .andN _ _ f | .orN _ _ f | .andnN _ _ f | .edg _ _ f => f.ok [0, 1, 2] true
  | .st _ _ f => f.ok [1] true
  | .subr _ _ f => f.ok [0] true
  | .tstart _ _ f => f.ok [0, 1] true
  | .tstop _ _ f => f.ok [0] false
  | .tqry _ _ f | .texp _ _ f | .trun _ _ f => f.ok [0] true
  | .mov _ _ f | .not _ _ f => f.ok true true false false [0]
  | .and _ _ f | .or _ _ f | .xor _ _ f | .andn _ _ f | .cadd _ _ f | .csub _ _ f => f.ok true true true false [0]
  | .sel _ _ f => f.ok true true true true [0]
  | .cmp _ _ f => f.ok true true true false allTwo
  | .ldi _ _ f => f.ok false false
  | .cmpi _ _ f => f.ok true true
  | .caddi _ _ f | .csubi _ _ f | .mtch _ _ f => f.ok true false
  | .stn _ _ f => f.z == 0
  | .unpk _ _ f | .pack _ _ f => f.z == 0
  | .csel _ _ f => f.ok false false false false allTwo
  | .cfb _ _ f | .cfh _ _ f | .cfw _ _ f => f.ok false true false false [0]
  | .crd _ _ f => f.ok true false false false allTwo
  | .cwr _ _ f => f.ok false true false false allTwo
  | .ccmp _ _ f => f.ok true true false false [0, 1]
  | .br _ _ f => f.wa == 0 && f.z == 0
  | .brz _ _ f | .brnz _ _ f => f.z == 0
  | .fin _ _ f => f.z == 0
  | .seatFault _ _ cause => 2 ≤ cause.toNat && cause.toNat ≤ 5
  | .regRead _ _ ls _ count => ls.ok && 1 ≤ count && count ≤ 64
  | .regWrite _ _ ls _ _ => ls.ok && !ls.voted
  | .critPrepare _ _ _ _ _ _ params => params.length ≤ 64
  | .recRead _ _ ls _ count _ => ls.ok && 1 ≤ count && count ≤ 16
  | .imgRead _ _ _ _ len => len ≤ 4096
  | .hostConnect _ _ t p _ => t.length == 12 && p.length == 4 && p.take 3 == preambleTag
  | .inputSample k => k.volts.length == 33 && k.mv.length == 4 && k.high.length == 32
  | .heartbeatRx _ _ _ _ bytes => bytes.length == 88
  | .healthRx _ _ bytes => bytes.length == 80
  | .digestSend _ | .freeze _ | .round1Deadline _ | .round2Send _ | .checkDeadline _ | .untestedLimit _ => true
  | .deadlineMiss _ phase => phase.toNat ≤ 8
  | .anchor _ _ r => 1 ≤ r.certs.length && r.certs.length ≤ 4
  | .wsReg _ _ r => r.action == 1 || r.action == 2
  | .tunnelRx _ b => b.data.length ≤ 1400
  | .loReadLatch .. | .cycDropCauseClr .. | .seatNfClr .. | .seatFaultClr .. | .cvuFaultClr .. | .clkForcedClr ..
  | .pwrStatusClr .. | .supWarnClr .. | .stsFaultClr .. | .secTapEnWrite .. | .cmdPost .. | .critConfirm ..
  | .wsUnlock .. | .challengeExpiry .. | .emergencyRelease .. | .sectionReset .. | .forceSet .. | .forceRemove ..
  | .forceRemoveAll .. | .arming .. | .handover .. | .reKey .. | .modeChange .. | .evtSub .. | .keepalive ..
  | .claim .. | .csr .. | .cert .. | .revoke .. | .stnPkg .. | .peerExport .. | .peerImport .. | .peerUse ..
  | .resetRelease .. | .startStatusRx .. | .digestWaitExpiry .. | .keyPresenceOpen .. | .keyPresenceClose ..
  | .startRepeat .. | .startMarkRx .. | .linkProbe .. | .linkProbeRx .. | .cycleBoundary .. | .seatSliceComplete ..
  | .seatSliceIncomplete .. | .sweepComplete .. | .statusTelegramRx .. | .round1FrameRx .. | .telegramFetchRx ..
  | .fetchReplyRx .. | .round2FrameRx .. | .agreementEnd .. | .correctionComplete .. | .outputDigestRx .. | .vote ..
  | .sealTagRx .. | .guardStart .. | .sealFailureNoticeRx .. | .laneStatusRx .. | .xlLinkDown ..
  | .snapshotRequestRx .. | .snapshotRx .. | .snapshotTimeout .. | .votedViewRx .. | .regSampleTimeout ..
  | .fcuBoundaryRx .. | .b2Timeout | .cycleSetLatch | .cycleSetRx .. | .fcuCommandRx .. | .outputApply
  | .groupOffCheck .. | .inputPathTest .. | .readbackTest .. | .stuckOnDetect .. | .failedOffDetect ..
  | .pepperPulseStart .. | .pepperPulseEnd .. | .thermalShutdown .. | .overloadRetry .. | .toggleStop ..
  | .vprEnergise .. | .vprDeenergise .. | .lplusWarning .. | .lplusUndervoltage .. | .lplusRecovery ..
  | .restorePress .. | .restoreJam | .degradeLimitFcu .. | .degradeLimitLane .. | .fcuFault | .stage5Heartbeat
  | .snapBaseRx .. | .snapDeltaRx .. | .snapEndRx .. | .dozeSnapRx .. | .slumberEntry | .wakeEvent .. | .wait ..
  | .handshakeRequest .. | .handshakeTimeout .. | .censusSend | .censusRx .. | .dupSlotExpiry | .delayReqSend ..
  | .delayReqRx .. | .delayRespRx .. | .borderRx .. | .tunnelRetransmit .. | .tunnelTimeout .. | .tlsHandshake ..
  | .tlsHandshakeTimeout .. | .sessionIdleTimeout .. | .sessionClose .. | .arpRx .. | .arpRefresh .. | .monitorTrip ..
  | .monitorCalibration .. | .crystalFail .. | .sourceSwitchForced .. | .dividerStep .. | .meterGateEnd ..
  | .gateRequest .. | .voltageRequest .. | .thermalStepDown .. | .thermalStepUp .. | .inputPresent ..
  | .inputAbsent .. | .inputOvervoltage .. | .mainPreferenceRestore | .holdupSet | .busReset | .dipStart
  | .dipEnd .. | .railFail .. | .scrub .. | .xlLinkUp .. | .portLinkChange .. | .handshakeAnswer ..
  | .randomHealthTestFail .. | .keyupdate .. => true

end Sys2Proof
end

