-- ==== Sys2Proof/Decode.lean ====
section
/-!
DEFINITION. The words of node programs (spec/04_node_programs.md R78, R79): decoding a 32-bit program entry for a seat
and encoding it again. The module's commands themselves have no encoding in spec/opcode_table.json: no row gives
bits, so `decodeTableWord` reads none.
-/
namespace Sys2Proof

/-- The command that a word spells by the bits of spec/opcode_table.json. No row of the table gives bits. -/
def decodeTableWord (_nbits _w : Nat) : Option Instr := none

/-- Field of `n` bits from bit `k` upward. -/
def bitsAt (w : Word) (k n : Nat) : BitVec n := w.extractLsb' k n

/-- Opcode, bits [31:26] (R78). -/
def opcodeOf (w : Word) : BitVec 6 := bitsAt w 26 6

/-- Fields of format N (R78). -/
def fieldsN (w : Word) : FmtN := { w := bitsAt w 22 4, m := bitsAt w 20 2, idx := bitsAt w 0 20 }

/-- Fields of format G (R78). -/
def fieldsG (w : Word) : FmtG :=
  { wd := bitsAt w 22 4, wa := bitsAt w 18 4, wb := bitsAt w 14 4, wc := bitsAt w 10 4, z := bitsAt w 2 8,
    fn := bitsAt w 0 2 }

/-- Fields of format I (R78). -/
def fieldsI (w : Word) : FmtI := { wd := bitsAt w 22 4, wa := bitsAt w 18 4, fn := bitsAt w 16 2, imm := bitsAt w 0 16 }

/-- Fields of format F (R78). -/
def fieldsF (w : Word) : FmtF :=
  { w := bitsAt w 22 4, e := bitsAt w 21 1, wid := bitsAt w 17 4, z := bitsAt w 16 1, off := bitsAt w 0 16 }

/-- Fields of format C (R78). -/
def fieldsC (w : Word) : FmtC := { ck := bitsAt w 24 2, z := bitsAt w 16 8, index := bitsAt w 0 16 }

/-- Fields of format B (R78). -/
def fieldsB (w : Word) : FmtB := { wa := bitsAt w 22 4, z := bitsAt w 16 6, off := bitsAt w 0 16 }

/-- Fields of format E (R78). -/
def fieldsE (w : Word) : FmtE := { z := bitsAt w 0 26 }

/-- The instruction that program entry `w` is in seat `x` of lane `l` (R79); none for a code R79 does not list. -/
def decodeWord (l : LaneId) (x : SeatId) (w : Word) : Option Instr :=
  match (opcodeOf w).toNat with
  | 0x01 => some (.ld l x (fieldsN w))
  | 0x02 => some (.st l x (fieldsN w))
  | 0x03 => some (.andN l x (fieldsN w))
  | 0x04 => some (.orN l x (fieldsN w))
  | 0x05 => some (.andnN l x (fieldsN w))
  | 0x06 => some (.subr l x (fieldsN w))
  | 0x07 => some (.edg l x (fieldsN w))
  | 0x08 => some (.tstart l x (fieldsN w))
  | 0x09 => some (.tstop l x (fieldsN w))
  | 0x0A => some (.tqry l x (fieldsN w))
  | 0x0B => some (.texp l x (fieldsN w))
  | 0x0C => some (.trun l x (fieldsN w))
  | 0x10 => some (.mov l x (fieldsG w))
  | 0x11 => some (.not l x (fieldsG w))
  | 0x12 => some (.and l x (fieldsG w))
  | 0x13 => some (.or l x (fieldsG w))
  | 0x14 => some (.xor l x (fieldsG w))
  | 0x15 => some (.andn l x (fieldsG w))
  | 0x16 => some (.sel l x (fieldsG w))
  | 0x17 => some (.cmp l x (fieldsG w))
  | 0x18 => some (.cadd l x (fieldsG w))
  | 0x19 => some (.csub l x (fieldsG w))
  | 0x1A => some (.ldi l x (fieldsI w))
  | 0x1B => some (.cmpi l x (fieldsI w))
  | 0x1C => some (.caddi l x (fieldsI w))
  | 0x1D => some (.csubi l x (fieldsI w))
  | 0x1E => some (.mtch l x (fieldsI w))
  | 0x20 => some (.stn l x (fieldsC w))
  | 0x21 => some (.unpk l x (fieldsF w))
  | 0x22 => some (.pack l x (fieldsF w))
  | 0x28 => some (.csel l x (fieldsG w))
  | 0x29 => some (.cfb l x (fieldsG w))
  | 0x2A => some (.cfh l x (fieldsG w))
  | 0x2B => some (.cfw l x (fieldsG w))
  | 0x2C => some (.crd l x (fieldsG w))
  | 0x2D => some (.cwr l x (fieldsG w))
  | 0x2E => some (.ccmp l x (fieldsG w))
  | 0x30 => some (.br l x (fieldsB w))
  | 0x31 => some (.brz l x (fieldsB w))
  | 0x32 => some (.brnz l x (fieldsB w))
  | 0x3F => some (.fin l x (fieldsE w))
  | _ => none

/-- Word of format N. -/
def wordN (op : BitVec 6) (f : FmtN) : Word := op ++ f.w ++ f.m ++ f.idx

/-- Word of format G. -/
def wordG (op : BitVec 6) (f : FmtG) : Word := op ++ f.wd ++ f.wa ++ f.wb ++ f.wc ++ f.z ++ f.fn

/-- Word of format I. -/
def wordI (op : BitVec 6) (f : FmtI) : Word := op ++ f.wd ++ f.wa ++ f.fn ++ f.imm

/-- Word of format F. -/
def wordF (op : BitVec 6) (f : FmtF) : Word := op ++ f.w ++ f.e ++ f.wid ++ f.z ++ f.off

/-- Word of format C. -/
def wordC (op : BitVec 6) (f : FmtC) : Word := op ++ f.ck ++ f.z ++ f.index

/-- Word of format B. -/
def wordB (op : BitVec 6) (f : FmtB) : Word := op ++ f.wa ++ f.z ++ f.off

/-- Word of format E. -/
def wordE (op : BitVec 6) (f : FmtE) : Word := op ++ f.z

/-- The program entry of a node instruction, with its lane and seat; none for every other command (R78, R79). -/
def encodeWord : Instr → Option (LaneId × SeatId × Word)
  | .ld l x f => some (l, x, wordN 0x01 f)
  | .st l x f => some (l, x, wordN 0x02 f)
  | .andN l x f => some (l, x, wordN 0x03 f)
  | .orN l x f => some (l, x, wordN 0x04 f)
  | .andnN l x f => some (l, x, wordN 0x05 f)
  | .subr l x f => some (l, x, wordN 0x06 f)
  | .edg l x f => some (l, x, wordN 0x07 f)
  | .tstart l x f => some (l, x, wordN 0x08 f)
  | .tstop l x f => some (l, x, wordN 0x09 f)
  | .tqry l x f => some (l, x, wordN 0x0A f)
  | .texp l x f => some (l, x, wordN 0x0B f)
  | .trun l x f => some (l, x, wordN 0x0C f)
  | .mov l x f => some (l, x, wordG 0x10 f)
  | .not l x f => some (l, x, wordG 0x11 f)
  | .and l x f => some (l, x, wordG 0x12 f)
  | .or l x f => some (l, x, wordG 0x13 f)
  | .xor l x f => some (l, x, wordG 0x14 f)
  | .andn l x f => some (l, x, wordG 0x15 f)
  | .sel l x f => some (l, x, wordG 0x16 f)
  | .cmp l x f => some (l, x, wordG 0x17 f)
  | .cadd l x f => some (l, x, wordG 0x18 f)
  | .csub l x f => some (l, x, wordG 0x19 f)
  | .ldi l x f => some (l, x, wordI 0x1A f)
  | .cmpi l x f => some (l, x, wordI 0x1B f)
  | .caddi l x f => some (l, x, wordI 0x1C f)
  | .csubi l x f => some (l, x, wordI 0x1D f)
  | .mtch l x f => some (l, x, wordI 0x1E f)
  | .stn l x f => some (l, x, wordC 0x20 f)
  | .unpk l x f => some (l, x, wordF 0x21 f)
  | .pack l x f => some (l, x, wordF 0x22 f)
  | .csel l x f => some (l, x, wordG 0x28 f)
  | .cfb l x f => some (l, x, wordG 0x29 f)
  | .cfh l x f => some (l, x, wordG 0x2A f)
  | .cfw l x f => some (l, x, wordG 0x2B f)
  | .crd l x f => some (l, x, wordG 0x2C f)
  | .cwr l x f => some (l, x, wordG 0x2D f)
  | .ccmp l x f => some (l, x, wordG 0x2E f)
  | .br l x f => some (l, x, wordB 0x30 f)
  | .brz l x f => some (l, x, wordB 0x31 f)
  | .brnz l x f => some (l, x, wordB 0x32 f)
  | .fin l x f => some (l, x, wordE 0x3F f)
  | _ => none

end Sys2Proof
end

