-- ==== Sys2Proof/Machine/Mem.lean ====
section
/-!
DEFINITION. Reading and writing an addressed memory in its one canonical form: addresses strictly rising, no entry
equal to what an unlisted address reads as. Every addressed store of the module (spec/03_coded_state.md R55,
spec/18_event_recorder.md R367) is such a memory.
-/
namespace Sys2Proof.Mem
variable {α : Type}

/-- The entry at address `k`, or `d` where none is listed. -/
def get (d : α) : Mem α → Nat → α
  | [], _ => d
  | (a, v) :: m, k => if a = k then v else get d m k

/-- Takes the entry at address `k` out of the list. -/
def erase : Mem α → Nat → Mem α
  | [], _ => []
  | (a, v) :: m, k => if a = k then m else (a, v) :: erase m k

/-- Lists `v` at address `k`, in place. -/
def put : Mem α → Nat → α → Mem α
  | [], k, v => [(k, v)]
  | (a, w) :: m, k, v =>
    if k < a then (k, v) :: (a, w) :: m else if a = k then (k, v) :: m else (a, w) :: put m k v

/-- Writes `v` at address `k`; writing what an unlisted address reads as takes the entry out. -/
def set [DecidableEq α] (d : α) (m : Mem α) (k : Nat) (v : α) : Mem α :=
  if v = d then erase m k else put m k v

/-- Writes every pair of a list in order. -/
def setAll [DecidableEq α] (d : α) (m : Mem α) : List (Nat × α) → Mem α
  | [] => m
  | (k, v) :: r => setAll d (set d m k v) r

/-- Every listed address lies above `k`. -/
def above (k : Nat) : Mem α → Bool
  | [] => true
  | (a, _) :: m => decide (k < a) && above k m

/-- The canonical form. -/
def wf [DecidableEq α] (d : α) : Mem α → Bool
  | [] => true
  | (a, v) :: m => above a m && decide (v ≠ d) && wf d m

/-- Applies `f` to every listed entry and keeps the form. -/
def mapEntries [DecidableEq α] (d : α) (f : Nat → α → α) (m : Mem α) : Mem α :=
  (m.map fun p => (p.1, f p.1 p.2)).filter fun p => decide (p.2 ≠ d)

end Sys2Proof.Mem
end

