-- ==== Sys2Proof/Machine/Image.lean ====
section
/-!
DEFINITION. The station image as a lane holds it in DRAM after loading (spec/07_data_key.md R136 to R149): each entry
keeps the CRC it carries, so that its user can recompute the check (R63, R135).
-/
namespace Sys2Proof.Machine

/-- Image header (R136). -/
structure ImgHeader where
  slot1      : Byte
  slot2      : Byte
  hwIssues   : Half
  fwMin      : Half
  gen        : Word
  tCycle     : Nat
  tFreeze    : Nat
  nodes      : Nat
  cMax       : Nat
  timers     : Nat
  progs      : Nat
  readers    : Nat
  succs      : Nat
  stations   : Nat
  channels   : Nat
  policies   : Nat
  authKeyId  : List Byte
  imgLen     : Nat
  deriving DecidableEq, Repr

/-- Node directory entry (R140); `z` is its reserved byte 7. -/
structure NodeEntry where
  tag    : Word
  rval   : Half
  khc    : Byte
  pstart : Word
  plen   : Half
  aux    : Half
  crc    : Word
  z      : Byte := 0
  deriving DecidableEq, Repr

/-- Reader block of the cone table (R142). -/
structure ReaderBlk where
  key   : Word
  words : List Word
  crc   : Word
  deriving DecidableEq, Repr

/-- Successor block of the cone table (R142). -/
structure SuccBlk where
  src   : Word
  words : List Word
  crc   : Word
  deriving DecidableEq, Repr

/-- One network's part of the network record (R143). -/
structure NetRec where
  modIp   : Word
  pfx     : Byte
  pcp     : Byte
  vid     : Half
  mcast   : Word
  stPort  : Half
  cmdPort : Half
  deriving DecidableEq, Repr

/-- Station record (R143). -/
structure StationRec where
  stnId   : Word
  ipA     : Word
  ipB     : Word
  udp     : Half
  stLen   : Half
  cmdLen  : Half
  stFmt   : Byte
  cmdFmt  : Byte
  maxAge  : Byte
  firstCh : Half
  chCount : Half
  keyGen  : Word
  crc     : Word
  deriving DecidableEq, Repr

/-- Channel record (R143). -/
structure ChannelRec where
  stn    : Half
  dir    : Byte
  bitOff : Half
  bitLen : Half
  node   : Word
  crc    : Word
  deriving DecidableEq, Repr

/-- Restrictive payload record (R143). -/
structure RestrRec where
  bytes : List Byte
  crc   : Word
  deriving DecidableEq, Repr

/-- Local input record (R144). -/
structure LocalIn where
  ch     : Byte
  domain : Byte
  filter : Half
  crc    : Word
  deriving DecidableEq, Repr

/-- Local output group record (R144). -/
structure LocalGrp where
  grp    : Byte
  mode   : Byte
  pepOff : Half
  pepPer : Half
  used   : Byte
  tDeg   : Word
  crc    : Word
  deriving DecidableEq, Repr

/-- Border neighbour record (R145); `z` holds its reserved bytes. -/
structure NbRec where
  q        : Byte
  nbSlot   : Byte
  maxAge   : Byte
  used     : Byte
  inCount  : Half
  outCount : Half
  nbArea   : Word
  keyGen   : Word
  firstOut : Word
  crc      : Word
  z        : Coded := 0
  deriving DecidableEq, Repr

/-- Border out-slot record (R145); `z` is its reserved byte. -/
structure OutSlot where
  q    : Byte
  slot : Half
  node : Word
  crc  : Word
  z    : Byte := 0
  deriving DecidableEq, Repr

/-- Partner and ring parameters (R146). -/
structure Params where
  areaId    : Word
  prefSlot  : Byte
  standby   : Byte
  etherType : Half
  tUntested : Byte
  minLanes  : Byte
  crc       : Word
  deriving DecidableEq, Repr

/-- Forcing policy record (R147); `z` holds its reserved bytes. -/
structure PolicyRec where
  node : Word
  perm : Byte
  crc  : Word
  z    : BitVec 24 := 0
  deriving DecidableEq, Repr

/-- A loaded station image with the key header's slot (R133, R137); `bad` lists the words of its sections that are poisoned,
by section and byte offset (R60). -/
structure Image where
  slot     : Byte
  hdr      : ImgHeader
  nodes    : List NodeEntry
  progs    : List Coded
  readers  : List ReaderBlk
  succs    : List SuccBlk
  netA     : NetRec
  netB     : NetRec
  netCrc   : Word
  stations : List StationRec
  channels : List ChannelRec
  restr    : List RestrRec
  localIn  : List LocalIn
  localGrp : List LocalGrp
  nbs      : List NbRec
  outs     : List OutSlot
  params   : Params
  policy   : List PolicyRec
  pexp     : Byte
  pexpCrc  : Word
  sections : List (List Byte)
  bad      : List (Nat × Nat) := []
  deriving DecidableEq, Repr

end Sys2Proof.Machine
end

