-- ==== Sys2Proof/Machine/LaneState.lean ====
section
/-!
DEFINITION. The state of one lane, in parts that follow the chapters of the spec. Counters "since START" are natural
numbers; a register shows them saturated at its field's maximum (R45).
-/
namespace Sys2Proof.Machine

/-- Condition of a stored word under its ECC (R60): sound, one bit wrong and correctable, or poisoned. -/
inductive Ecc where
  | ok | single | double
  deriving DecidableEq, Repr

/-- A word of the state store: what the read path delivers and its ECC condition (R60). -/
structure MemWord where
  word : Coded
  ecc  : Ecc
  deriving DecidableEq, Repr

/-- What an unlisted word of the state store reads as (log entry 1). -/
def MemWord.zero : MemWord := { word := 0, ecc := .ok }

/-- A working register: its coded word and full bit (R73). -/
structure Reg where
  word : Coded
  full : Bool
  deriving DecidableEq, Repr

/-- Context in force for UNPK and PACK (R89). -/
structure Ctx where
  ck    : BitVec 2
  index : Nat
  deriving DecidableEq, Repr

/-- A check-value unit: the selected polynomial and the running values of the byte-parallel and the nibble-serial
engine (R122, R126). -/
structure Cvu where
  poly : Option (BitVec 2)
  par  : Coded
  ser  : Coded
  deriving DecidableEq, Repr

/-- A queued timer operation: handle, op 1 start in cycles, 2 start in 100 ms, 3 stop, and count (R86, R198). -/
structure TimerOp where
  h  : Nat
  op : BitVec 2
  k  : Half
  deriving DecidableEq, Repr

/-- The logic BIST of a seat (R355): the 64-bit PRPG and the three 64-bit MISRs, whose contents together are the 192-bit
signature, that of `m0` its lowest 64 bits. -/
structure SeatBist where
  prpg : Coded
  m0   : Coded
  m1   : Coded
  m2   : Coded
  deriving DecidableEq, Repr

/-- A seat (R73, R109, R121): SEAT_STATE code, hand held or paired on, node under evaluation, entry offset, registers,
context, substitution latch, whether the node has retired, CVU, timer operation of this evaluation, CVU counts of this
evaluation, cycles of its recent seat faults, incomplete slices in a row, whether it repeats its slices (R112), its logic
BIST (R355). -/
structure SeatState where
  code    : BitVec 3
  hand    : Option (Fin 8)
  node    : Option Nat
  off     : Nat
  regs    : Vector Reg 16
  ctx     : Option Ctx
  latch   : Bool
  stored  : Bool
  cvu     : Cvu
  tq      : Option TimerOp
  cmps    : Nat
  falses  : Nat
  bytes   : Nat
  faults  : List Nat
  incRun  : Nat
  repeated : Bool
  engine  : SeatBist
  deriving DecidableEq, Repr

/-- A seat before the first cycle after START (R121). -/
def SeatState.init : SeatState :=
  { code := 0, hand := none, node := none, off := 0, regs := Vector.replicate 16 { word := 0, full := false },
    ctx := none, latch := false, stored := false, cvu := { poly := none, par := 0, ser := 0 }, tq := none, cmps := 0,
    falses := 0, bytes := 0, faults := [], incRun := 0, repeated := false, engine := { prpg := 0, m0 := 0, m1 := 0, m2 := 0 } }

/-- Rotation state (R109 to R115): dummy, phase, moves of S8 into the dummy, whether this cycle met the condition for
advancing; settle comparator (R111): words, outbound half-words, timer operations and node faults of the returning
seat, and whether it left a node of P1 unfinished when P5 began; settle record (R112); seat faults of this cycle; seats
returned to service whose slices a mismatch spoilt. -/
structure Rot where
  dummy     : Option SeatId
  phase     : Nat
  rotations : Nat
  met       : Bool
  ret       : Mem (Option Coded)
  outs      : Mem (Option Coded)
  ops       : Mem (Option TimerOp)
  setFaults : List (Nat × BitVec 4)
  actFaults : List (Nat × BitVec 4)
  short     : Bool
  mismatch  : Bool
  failCnt   : Nat
  failSeat  : Nat
  failIdx   : Nat
  faults    : List (SeatId × BitVec 4)
  retire    : List SeatId
  deriving DecidableEq, Repr

/-- Rotation state before the first cycle. -/
def Rot.init : Rot :=
  { dummy := none, phase := 0, rotations := 0, met := false, ret := [], outs := [], ops := [], setFaults := [],
    actFaults := [], short := false, mismatch := false, failCnt := 0, failSeat := 0, failIdx := 0, faults := [], retire := [] }

/-- Start and arming state of a lane (R134, R150 to R161). -/
structure Boot where
  inReset  : Bool
  straps   : BitVec 2
  kchk     : Bool
  hold     : BitVec 4
  alive    : Bool
  stage    : BitVec 4
  tries    : Nat
  stopped  : Bool
  code     : Byte
  index    : Nat
  present  : Bool
  presEvt  : Nat
  keyLane  : Byte
  keySlot  : BitVec 6
  img      : Option Image
  gen      : Word
  areaId   : Word
  digest   : Option (BitVec 384)
  posts    : PerLane (Option StartStatus)
  set      : LaneSet
  late     : Bool
  deriving DecidableEq, Repr

/-- The empty set of lanes. -/
def noLanes : LaneSet := { a := false, b := false, c := false }

/-- One value in every lane. -/
def PerLane.const {α : Type} (v : α) : PerLane α := { a := v, b := v, c := v }

/-- A lane held in reset. -/
def Boot.init : Boot :=
  { inReset := true, straps := 0, kchk := false, hold := 0, alive := false, stage := 0, tries := 0, stopped := false,
    code := 0, index := 0, present := false, presEvt := 0, keyLane := 0, keySlot := 0, img := none, gen := 0,
    areaId := 0, digest := none, posts := PerLane.const none, set := noLanes,    late := false }

/-- Arming, mode and role of a lane (R155, R287, R237): arming accepted and waiting for the first boundary, armed,
armed as CANDIDATE, role that the arming gives (R158), mode, mode that STS_MODE shows (R387), start marks received
(R40). -/
structure ModeState where
  accepted : Bool
  armed    : Bool
  cand     : Bool
  takes    : BitVec 4
  mode     : BitVec 3
  shown    : BitVec 3
  marks    : LaneSet
  deriving DecidableEq, Repr

/-- An unarmed lane in START. -/
def ModeState.init : ModeState := { accepted := false, armed := false, cand := false, takes := 5, mode := 0, shown := 0, marks := noLanes }

/-- Cause and phase of a drop (R44). -/
structure Drop where
  cause : BitVec 4
  phase : BitVec 4
  deriving DecidableEq, Repr

/-- The running cycle of a lane (R24 to R44); `judged`: its D_agree has passed and the silence of its paths is judged
(R241). -/
structure CycState where
  num      : Cycle
  running  : Bool
  phase    : BitVec 4
  frozen   : Bool
  sweep    : Bool
  agreed   : Bool
  judged   : Bool
  p5       : Bool
  corr     : Bool
  checked  : Bool
  digSent  : Bool
  voted    : Bool
  guard    : Bool
  drop     : Option Drop
  sealed   : Bool
  modDrop  : Bool
  notice   : Bool
  lastLane : Bool
  lastMod  : Bool
  dropRun  : Nat
  dropCnt  : Nat
  deriving DecidableEq, Repr

/-- No cycle has run. -/
def CycState.init : CycState :=
  { num := 0, running := false, phase := 0, frozen := false, sweep := false, agreed := false, judged := false, p5 := false, corr := false,
    checked := false, digSent := false, voted := false, guard := false, drop := none, sealed := false, modDrop := false,
    notice := false, lastLane := false, lastMod := false, dropRun := 0, dropCnt := 0 }

/-- CYC_DROP_CAUSE (R44), and the boundary alignment of R40: boundaries out of step in a row of each lane as this lane
measures it, whether this boundary is judged, warning, latency of the
links to the next and previous lane and peers' corrected boundary skews in 0.1 µs, slew applied to the next cycle, whether
a cause of the running cycle has been written, and whether the lane is out of step and drops every cycle. -/
structure Align where
  dcHeld   : Bool
  dcCyc    : Half
  dcCause  : BitVec 4
  dcPhase  : BitVec 4
  outRuns  : PerLane Nat
  judged   : Bool
  skewWarn : Bool
  lat      : PerLane Nat
  skew     : PerLane (Option Int)
  slew     : Int
  med2     : Int
  probes   : PerLane (Option Word)
  noted    : Bool
  outStep  : Bool
  deriving DecidableEq, Repr

/-- Alignment before the first boundary. -/
def Align.init : Align :=
  { dcHeld := false, dcCyc := 0, dcCause := 0, dcPhase := 0, outRuns := PerLane.const 0, judged := false, skewWarn := false,
    lat := PerLane.const 0, skew := PerLane.const none, slew := 0, med2 := 0, probes := PerLane.const none, noted := false,
    outStep := false }

/-- Statistics of a cycle that CYC_ST_, SEAT_ and CVU_ registers show (R45, R121, R130, R286). -/
structure StatA where
  sweep     : Nat
  used      : Nat
  corrStart : Nat
  corrTime  : Nat
  dirty     : Nat
  hit       : Nat
  miss      : Nat
  agreed    : Nat
  fetched   : Nat
  slack     : Option (Nat × BitVec 4)
  skewNext  : Int
  skewPrev  : Int
  dispStart : Nat
  dispEnd   : Nat
  discard   : Nat
  p1Wait    : Nat
  p5Wait    : Nat
  walk      : Nat
  succ      : Nat
  cvuCmp    : Nat
  cvuFalse  : Nat
  cvuBytes  : Nat
  deriving DecidableEq, Repr

/-- Statistics of a cycle that FLD_, CYC_VOTE, CYC_AGR, RING_RX and HST_CMD show (R192, R213, R286). -/
structure StatB where
  rxA      : Nat
  validA   : Nat
  rxB      : Nat
  validB   : Nat
  dFormat  : Nat
  dTag     : Nat
  dEcho    : Nat
  dOld     : Nat
  withheld : Nat
  ptnA     : Nat
  ptnB     : Nat
  short    : Nat
  fetchBad : Nat
  heard    : LaneSet
  outcome  : BitVec 3
  agree    : LaneSet
  nodig    : LaneSet
  outvoted : LaneSet
  taken    : Nat
  fwd      : Nat
  applied  : Nat
  late     : Nat
  conflict : Nat
  deriving DecidableEq, Repr

/-- Counters at the start of a cycle (R26 step 3). -/
def StatA.init : StatA :=
  { sweep := 0, used := 0, corrStart := 0, corrTime := 0, dirty := 0, hit := 0, miss := 0, agreed := 0, fetched := 0,
    slack := none, skewNext := 0, skewPrev := 0, dispStart := 0, dispEnd := 0, discard := 0, p1Wait := 0, p5Wait := 0,
    walk := 0, succ := 0, cvuCmp := 0, cvuFalse := 0, cvuBytes := 0 }

/-- Counters at the start of a cycle (R26 step 3). -/
def StatB.init : StatB :=
  { rxA := 0, validA := 0, rxB := 0, validB := 0, dFormat := 0, dTag := 0, dEcho := 0, dOld := 0, withheld := 0,
    ptnA := 0, ptnB := 0, short := 0, fetchBad := 0, heard := noLanes, outcome := 0, agree := noLanes,
    nodig := noLanes, outvoted := noLanes, taken := 0, fwd := 0, applied := 0, late := 0,
    conflict := 0 }

/-- Statistics under collection and those latched at the last boundary, with CYC_ST_SEQ (R45). -/
structure Stats where
  seq  : Word
  a    : StatA
  b    : StatB
  lastA : StatA
  lastB : StatB
  deriving DecidableEq, Repr

/-- Statistics at START. -/
def Stats.init : Stats :=
  { seq := 0, a := StatA.init, b := StatB.init, lastA := StatA.init, lastB := StatB.init }

/-- The state store and the coded buffers of a lane (R52 to R63, R84 to R93): three physical banks and the one that is
current; retire bitmap; plain values digested; blank, dirty and re-evaluated marks; timers; queued timer
operations by node; inbound half-words and SUBST marks for P1 and P5, and outbound half-words, by buffer key; the buffer
half-words and timer words that are poisoned (R60). -/
structure Store where
  phys    : Vector (Mem MemWord) 3
  cur     : Fin 3
  bcnCur  : Cycle
  bcnPrev : Cycle
  bitmap  : Mem Bool
  plain   : Mem (Option Half)
  blank   : Mem Bool
  dirty   : Mem Bool
  redone  : Mem Bool
  timers  : Mem Coded
  acc     : Nat
  ops     : Mem (Option TimerOp)
  inP1    : Mem Coded
  inP5    : Mem Coded
  subP1   : Mem Bool
  subP5   : Mem Bool
  out     : Mem Coded
  poison  : List DramCell
  deriving DecidableEq, Repr

/-- Stores with nothing written (log entry 1). -/
def Store.init : Store :=
  { phys := Vector.replicate 3 [], cur := 0, bcnCur := 0, bcnPrev := 0, bitmap := [], plain := [], blank := [],
    dirty := [], redone := [], timers := [], acc := 0, ops := [], inP1 := [], inP5 := [], subP1 := [],
    subP5 := [], out := [], poison := [] }

/-- Code check, ECC, node fault, CVU fault and seat fault records (R68, R101, R121, R130). -/
structure Codes where
  cuFail    : Nat
  seatFail  : Nat
  site      : BitVec 4
  siteIdx   : Nat
  corr      : Nat
  uncorr    : Nat
  nfCode    : BitVec 4
  nfSeat    : Nat
  nfPhase   : BitVec 4
  nfIdx     : Nat
  nfOp      : BitVec 6
  nfCyc     : BitVec 10
  nfOff     : Nat
  nfHeld    : Bool
  nfCnt     : Nat
  cfKind    : BitVec 4
  cfSeat    : Nat
  cfCnt     : Nat
  sfCause   : BitVec 4
  sfSeat    : Nat
  sfCnt     : Nat
  stsFault  : BitVec 8
  deriving DecidableEq, Repr

/-- No failure recorded. -/
def Codes.init : Codes :=
  { cuFail := 0, seatFail := 0, site := 0, siteIdx := 0, corr := 0, uncorr := 0, nfCode := 0, nfSeat := 0, nfPhase := 0,
    nfIdx := 0, nfOp := 0, nfCyc := 0, nfOff := 0, nfHeld := false, nfCnt := 0, cfKind := 0, cfSeat := 0, cfCnt := 0,
    sfCause := 0, sfSeat := 0, sfCnt := 0, stsFault := 0 }

/-- A telegram taken by a lane (R65, R175, R176): header values kept in plain form, and the coded payload half-words
under D of the cycle of arrival. -/
structure Tel where
  seq      : Word
  echoCyc  : Cycle
  echoCmdr : Byte
  echoEp   : Word
  keyGen   : Word
  cmdMiss  : Bool
  net      : NetId
  halves   : List Coded
  deriving DecidableEq, Repr

/-- Whether a station or neighbour is STALE, ADMITTING or ADMITTED (R178, R272). -/
inductive AdmState where
  | stale | admitting | admitted
  deriving DecidableEq, Repr

/-- Record of a station (R178, R170, R371): E, last agreed OC_SEQ, state, run, blank flag, age at the last boundary,
command SEQ, per-network echo maxima of the recorder, MAC address resolved on each network (R164). -/
structure StnRec where
  e       : Option Cycle
  lastSeq : Option Word
  st      : AdmState
  run     : Nat
  blank   : Bool
  age     : Nat
  seqOut  : Word
  exA     : Option Cycle
  exB     : Option Cycle
  macA    : Option (BitVec 48)
  macB    : Option (BitVec 48)
  blanked : Bool
  deriving DecidableEq, Repr

/-- A station at START: STALE, run 0, no E (R178). -/
def StnRec.init : StnRec :=
  { e := none, lastSeq := none, st := .stale, run := 0, blank := false, age := 255, seqOut := 0, exA := none,
    exB := none, macA := none, macB := none, blanked := false }

/-- Intake and agreement of a lane (R175 to R197): station records, candidates, fetch store, held telegrams, targets
held, the agreed telegrams of the cycle, stations short, fetches outstanding, round frames of the peers, whether the own round-2 frame was sent and the targets are
settled, settled targets, seal counts. -/
structure Field where
  stns     : Mem StnRec
  cands    : Mem (Option Tel)
  store    : Mem (Option (NetId × FieldFrame))
  held     : List (Nat × Tel × NetId × FieldFrame)
  reported : Mem (Option Half)
  targets  : Mem (Option Half)
  hold     : Mem (Option Tel)
  agreed   : Mem (Option Tel)
  inSet    : Mem Bool
  fetches  : List Nat
  r1       : PerLane (Option Round1)
  r2       : PerLane (Option Round2)
  r2Sent   : Bool
  r1Done   : Bool
  spareCnt : Nat
  sealFail : Nat
  lastPair : BitVec 2
  deriving DecidableEq, Repr

/-- Field state at START. -/
def Field.init : Field :=
  { stns := [], cands := [], store := [], held := [], reported := [], targets := [], hold := [], agreed := [],
    inSet := [], fetches := [], r1 := PerLane.const none, r2 := PerLane.const none, r2Sent := false, r1Done := false, spareCnt := 0,
    sealFail := 0, lastPair := 0 }

/-- A pair of lanes in the order of SEAL_PAIR (R168). -/
inductive Pair where
  | ab | bc | ca
  deriving DecidableEq, Repr

/-- Vote and seal of a lane (R198 to R203, R183, R184): own and peers' digests, outcome, seal set, tags held, failure
reports held, service set and state code of every lane, outvoted cycles of every lane, sets reported for the last
boundary, exclusions that take effect at the next boundary, own exclusion due with its state code, lane status frames of the
next cycle that arrived before the own boundary. -/
structure Vote where
  own      : Option DigestFrame
  digs     : PerLane (Option DigestFrame)
  pair     : Option Pair
  spare    : Option LaneId
  tags     : PerLane (Option SealFrame)
  service  : LaneSet
  codes    : PerLane (BitVec 4)
  wins     : PerLane (List Nat)
  total    : Nat
  sets     : PerLane (Option LaneSet)
  excl     : LaneSet
  selfExcl : Option (BitVec 4)
  overs    : PerLane LaneSet
  sealPair : Option Pair
  early    : PerLane (Option LaneStatus)
  deriving DecidableEq, Repr

/-- No vote held. -/
def Vote.init : Vote :=
  { own := none, digs := PerLane.const none, pair := none, spare := none, tags := PerLane.const none, service := noLanes,
    codes := PerLane.const 0, wins := PerLane.const [], total := 0, sets := PerLane.const none, excl := noLanes,
    selfExcl := none, overs := PerLane.const noLanes, sealPair := none,
    early := PerLane.const none }

/-- Return to service and snapshots of a lane (R207 to R211, R242): source, slices done and failed in step 1, base,
whether its digest verified, digest received, deltas held, cycle of the base, consecutive matches, returns in the
period and in total, barred until a period boundary, untested cycles, sources asked to serve, and the cycles that a
seal-failure notice or the active's heartbeat says the module dropped (R184, R240). -/
structure Reentry where
  source    : Option LaneId
  slices    : Nat
  sliceBad  : Bool
  sliceSeats : List SeatId
  base      : Option SnapBase
  baseOk    : Bool
  dig       : Option (BitVec 256)
  deltas    : List SnapDelta
  since     : Option Cycle
  matched   : Nat
  periodCnt : Nat
  total     : Nat
  wantStep2 : Bool
  untested  : Nat
  asked     : LaneSet
  serving   : LaneSet
  peerMatch : PerLane Nat
  noticed   : List Cycle
  deriving DecidableEq, Repr

/-- No return in progress. -/
def Reentry.init : Reentry :=
  { source := none, slices := 0, sliceBad := false, sliceSeats := [], base := none, baseOk := false, dig := none,
    deltas := [], since := none, matched := 0, periodCnt := 0, total := 0, wantStep2 := false,
    untested := 0, asked := noLanes, serving := noLanes,
    peerMatch := PerLane.const 0, noticed := [] }

/-- Local I/O of a lane (R217 to R236): the last cycle set, word of the last COMMAND frame, counts, sequence numbers of
its own frames, groups whose line it toggles, degrade counts in cycles, inputs whose blank awaits a commit. -/
structure Lio where
  set     : Option CycleSet
  gotSet  : Bool
  outCmd  : BitVec 32
  late    : Nat
  missed  : Nat
  linkErr : Nat
  seqB    : Half
  seqC    : Half
  seqIn   : Option Half
  toggle  : BitVec 4
  degLeft : PerLane (Option Nat)
  deg3    : Option Nat
  expired : BitVec 4
  blanks  : BitVec 32
  subCommit : BitVec 32
  deriving DecidableEq, Repr

/-- Local I/O at START. -/
def Lio.init : Lio :=
  { set := none, gotSet := false, outCmd := 0, late := 0, missed := 0, linkErr := 0, seqB := 0,
    seqC := 0, seqIn := none, toggle := 0, degLeft := PerLane.const none, deg3 := none, expired := 0, blanks := 0,
    subCommit := 0xFFFFFFFF }

/-- A heartbeat's fields (R240). -/
structure Heartbeat where
  slot   : Byte
  role   : Byte
  areaId : Word
  cyc    : Cycle
  flags  : Half
  epoch  : Word
  sepoch : Cycle
  lanes  : Half
  digest : BitVec 128
  bdig   : BitVec 64
  img    : BitVec 64
  gen    : Word
  hoAt   : Cycle
  pair   : Byte
  deriving DecidableEq, Repr

/-- Partner state of a lane (R237 to R244): roles, paths, silence, heartbeats held for the running cycle, tracking with
the result of the running cycle and boundaries off the slew target in a row, qualification, epochs, last heartbeat,
results of the last 256 cycles, snapshot wanted, cycle of the last heartbeat on each path, bytes of the heartbeat that
the lane formed and of the last one sent; whether 256 consecutive cycles have matched since adoption (R244), and the
heartbeats of the next cycle that arrived before the own boundary (path, arrival, fields). -/
structure Ptn where
  role     : BitVec 4
  prole    : BitVec 4
  path1    : Bool
  path2    : Bool
  silent1  : Nat
  silent2  : Nat
  got1     : Bool
  got2     : Bool
  matched  : Nat
  misRun   : Nat
  qualified : Bool
  bmatch   : Nat
  epoch    : Word
  pEpoch   : Word
  pse      : Cycle
  last     : Option Heartbeat
  hist     : List (Option Bool)
  adopted  : Bool
  track    : Option Bool
  trackRun : Nat
  trackOff : Bool
  snapReq  : Bool
  rx1      : Cycle
  rx2      : Cycle
  hbHead   : List Byte
  hbSent   : List Byte
  proven   : Bool
  early    : List (HbPath × Int × Heartbeat)
  deriving DecidableEq, Repr

/-- No partner heard. -/
def Ptn.init : Ptn :=
  { role := 5, prole := 5, path1 := false, path2 := false, silent1 := 0, silent2 := 0, got1 := false, got2 := false,
    matched := 0, misRun := 0, qualified := false, bmatch := 0, epoch := 0, pEpoch := 0, pse := 0, last := none,
    hist := [], adopted := false, track := none, trackRun := 0, trackOff := false, snapReq := false, rx1 := 0, rx2 := 0,
    hbHead := [], hbSent := [], proven := false, early := [] }

/-- Handover in progress at the active (R256). -/
inductive HoState where
  | idle | announced (h : Cycle) (ack : Bool) | taken (h : Cycle) (roleSeen : Bool)
  deriving DecidableEq, Repr

/-- Takeover, handover and health state of a lane (R245 to R258): witness, own takeover conditions and those the peers
posted, stand-down due, commanders, handover, cycles in which this module took the role, echoes of the last second,
health record held, kept DOZE_SNAP, cycles in DOZE, digests of the running cycle and of the one before, cycles since the
last verified snapshot, snapshot in transfer to the partner and whether its base has left, CARRY sets that differ, CARRY_FORCES
of the handover in progress, and a DOZE_SNAP that is due (R250). -/
structure Fail where
  witness  : Nat
  witLast  : Nat
  takeMine : Bool
  takePeer : LaneSet
  standDown : Bool
  curCmdr  : Option (Byte × Word)
  prevCmdr : Option (Byte × Word)
  ho       : HoState
  hoCode   : Byte
  hoCarry  : Bool
  candAck  : Option Cycle
  byHand   : Option Cycle
  tookAt   : Option Cycle
  echoes   : List (Word × Byte × Cycle)
  hlt      : List Byte
  doze     : Option SnapBase
  dozeCyc  : Nat
  digNow   : Option (Cycle × BitVec 128)
  digPrev  : Option (Cycle × BitVec 128)
  bdNow    : Option (Cycle × BitVec 64)
  bdPrev   : Option (Cycle × BitVec 64)
  snapAge  : Nat
  base     : Option SnapBase
  baseSent : Bool
  carryBad : Bool
  hoUse    : Bool
  dozeDue  : Bool
  deriving DecidableEq, Repr

/-- No takeover or handover in progress. -/
def Fail.init : Fail :=
  { witness := 0, witLast := 0, takeMine := false, takePeer := noLanes, standDown := false, curCmdr := none,
    prevCmdr := none, ho := .idle, hoCode := 0, hoCarry := false, candAck := none, byHand := none, tookAt := none,
    echoes := [], hlt := List.replicate 80 0, doze := none, dozeCyc := 0, digNow := none, digPrev := none, bdNow := none,
    bdPrev := none, snapAge := 0, base := none, baseSent := false, carryBad := false,
    hoUse := false, dozeDue := false }

/-- A valid BORDER segment (R270). -/
structure BorderSeg where
  sender : Byte
  cyc    : Cycle
  epoch  : Word
  seg    : Nat
  segs   : Nat
  first  : Nat
  values : List Half
  deriving DecidableEq, Repr

/-- Record of a border neighbour (R270 to R272). -/
structure NbState where
  j       : Option Cycle
  st      : AdmState
  run     : Nat
  blank   : Bool
  blanked : Bool
  age     : Nat
  sender  : Byte
  epoch   : Word
  pendEp  : Option Word
  last    : Option (Word × Cycle)
  segs    : List BorderSeg
  ready   : List (List BorderSeg)
  late    : List (List BorderSeg)
  cand    : Option (List BorderSeg)
  deriving DecidableEq, Repr

/-- A neighbour at START: STALE with run 0 (R272). -/
def NbState.init : NbState :=
  { j := none, st := .stale, run := 0, blank := false, blanked := false, age := 255, sender := 0, epoch := 0,
    pendEp := none, last := none, segs := [], ready := [], late := [], cand := none }

/-- Ring state of a lane (R265 to R272, R286): neighbours, duplicate windows of each source, link delays, probes
outstanding, duplicate slot, discards, number of its last frame, and the cycle whose BORDER frames are numbered with the
number before theirs (R262, R264). -/
structure Ring where
  nbs      : Vector NbState 8
  windows  : Mem (List Word)
  delayE   : Nat
  delayW   : Nat
  probeE   : Option Word
  probeW   : Option Word
  dup      : Bool
  dFormat  : Nat
  dTag     : Nat
  dOld     : Nat
  dDupl    : Nat
  seq      : Word
  base     : Cycle × Word
  deriving DecidableEq, Repr

/-- Ring state at START. -/
def Ring.init : Ring :=
  { nbs := Vector.replicate 8 NbState.init, windows := [], delayE := 0, delayW := 0, probeE := none, probeW := none,
    dup := false, dFormat := 0, dTag := 0, dOld := 0, dDupl := 0, seq := 0, base := (0, 0) }

/-- What a settled command post does (R279, R291). -/
inductive PostKind where
  | pulse (slot value : Half)
  | force (action : Byte) (node : Nat) (value : Half)
  deriving DecidableEq, Repr

/-- A command post waiting for its freeze (R279). -/
structure Post where
  sess : Nat
  req  : Word
  cyc  : Cycle
  op   : Byte
  wsId : Word
  kind : PostKind
  deriving DecidableEq, Repr

/-- A prepared critical command (R282). -/
structure Prepared where
  challenge : BitVec 128
  op        : Byte
  wsId      : Word
  prepCyc   : Cycle
  params    : List Byte
  sessions  : List Nat
  expired   : Bool
  confirmed : Bool
  deriving DecidableEq, Repr

/-- A verified module-scope command waiting for its freeze (R282 step 3). -/
structure ModCmd where
  sess   : Nat
  req    : Word
  op     : Byte
  wsId   : Word
  params : List Byte
  deriving DecidableEq, Repr

/-- Host state of a lane (R279 to R283, R286): posts, pulses of the running and of accepted later cycles, prepared
commands, module-scope commands, failed CMACs with their cycles, locks with the cycle at which each ends, counts. -/
structure HostSt where
  posts     : List Post
  pulses    : List (Cycle × Half × Half)
  prepared  : List Prepared
  modCmds   : List ModCmd
  fails     : List (Word × Cycle)
  locks     : List (Word × Cycle)
  late      : Nat
  conflict  : Nat
  confirmed : Nat
  cmacFail  : Nat
  expired   : Nat
  lastOp    : Byte
  lastSt    : Byte
  lastWs    : Half
  deriving DecidableEq, Repr

/-- Host state at START. -/
def HostSt.init : HostSt :=
  { posts := [], pulses := [], prepared := [], modCmds := [], fails := [], locks := [], late := 0, conflict := 0,
    confirmed := 0, cmacFail := 0, expired := 0, lastOp := 0, lastSt := 0, lastWs := 0 }

/-- An entry of the force table (R290): node, value, point, permissive flag, first active cycle, removal due, and a
replacement accepted for a later cycle; whether a word of the entry is poisoned (R60). -/
structure Force where
  node   : Nat
  value  : Half
  out    : Bool
  perm   : Bool
  start  : Cycle
  remove : Option Cycle
  next   : Option (Half × Bool × Cycle)
  bad    : Bool := false
  deriving DecidableEq, Repr

/-- Force table and its last refusal (R290, R300); nodes to pass as changed in this cycle (R293). -/
structure Forces where
  table    : List Force
  lastCode : Byte
  lastNode : Nat
  changed  : List Nat
  deriving DecidableEq, Repr

/-- An empty force table. -/
def Forces.init : Forces := { table := [], lastCode := 0, lastNode := 0, changed := [] }

/-- A workstation key (R314). -/
structure WsKey where
  wsId : Word
  key  : BitVec 256
  deriving DecidableEq, Repr

/-- A station generation record (R172). -/
structure GenRec where
  cur  : Word
  pend : Option Word
  deriving DecidableEq, Repr

/-- Peer keys of one sending module and generation (R318). -/
structure PeerKey where
  slot    : Byte
  purpose : Byte
  gen     : Word
  keys    : PerLane (BitVec 256)
  deriving DecidableEq, Repr

/-- Fuses and stores of a lane that outlive START (R302, R303, R157, R252, R367, R384): in the fuses the lane root key, the RC
trim copy and the claims. -/
structure Nv where
  root     : BitVec 256
  rcTrim   : Half
  claims   : List (BitVec 384)
  master   : Option (BitVec 256)
  secret   : Option (BitVec 384)
  chain    : List Cert
  anchors  : List Cert
  anchSeq  : Word
  revoked  : List (BitVec 256 × List Byte)
  revSeq   : Option Word
  ws       : List WsKey
  wsSeq    : List (Word × Word)
  gens     : Mem (Option GenRec)
  peers    : List PeerKey
  uses     : List (Byte × Word × Word)
  exported : List (Byte × Word × Word)
  genFloor : Word
  epFloor  : Word
  se       : Cycle
  seStored : Cycle
  recs     : Mem Byte
  railFail : BitVec 4
  deriving DecidableEq, Repr

/-- Stores before the first power-up (log entry 2). -/
def Nv.init : Nv :=
  { root := 0, rcTrim := 0, claims := [], master := none, secret := none, chain := [], anchors := [], anchSeq := 0, revoked := [],
    revSeq := none, ws := [], wsSeq := [], gens := [], peers := [], uses := [], exported := [], genFloor := 0,
    epFloor := 0, se := 0, seStored := 0, recs := [], railFail := 0 }

/-- Security state of a lane (R301, R305, R314, R320, R323): health tests, zeroisation, test access port, refusals,
changes that take effect at the next boundary; the root key register of the security block, and whether the session keys
stand wrapped in the secure store (R320). -/
structure Sec where
  loaded    : Bool
  trngOk    : Bool
  zeroed    : Bool
  permit    : Bool
  zeroCnt   : Nat
  zeroUs    : Nat
  tap       : Bool
  lastCode  : Byte
  lastSub   : Byte
  wsFail    : Half
  eph       : Option (BitVec 448)
  confirm   : Option (BitVec 64)
  cand      : Option (BitVec 384)
  pendWs    : List WsReg
  pendUse   : List (Byte × Word × Word)
  closeAll  : Bool
  recheck   : Bool
  rootReg   : BitVec 256
  wrapped   : Bool
  deriving DecidableEq, Repr

/-- Security state at reset. -/
def Sec.init : Sec :=
  { loaded := false, trngOk := false, zeroed := false, permit := false, zeroCnt := 0, zeroUs := 0, tap := false,
    lastCode := 0, lastSub := 0, wsFail := 0, eph := none, confirm := none, cand := none, pendWs := [], pendUse := [],
    closeAll := false, recheck := false, rootReg := 0, wrapped := false }

/-- Clocks of a lane (R325 to R338), with the RC trim register (R326). -/
structure Clk where
  cal      : Nat
  trim     : Half
  rcOk     : Bool
  xtalOk   : Bool
  lock     : Bool
  coast    : Bool
  forced   : Bool
  monTrip  : Bool
  trips    : Nat
  tripDom  : Nat
  seatCur  : BitVec 6
  seatTgt  : BitVec 6
  supCur   : BitVec 6
  supTgt   : BitVec 6
  gates    : BitVec 17
  gRefused : Nat
  gResult  : BitVec 2
  gReq     : Bool
  gGate    : BitVec 5
  op       : BitVec 4
  conv     : Bool
  convRun  : Vector Nat 3
  deriving DecidableEq, Repr

/-- Clocks in reset. -/
def Clk.init : Clk :=
  { cal := 0, trim := 0, rcOk := false, xtalOk := false, lock := false, coast := false, forced := false, monTrip := false,
    trips := 0, tripDom := 0, seatCur := 0, seatTgt := 0, supCur := 0, supTgt := 0, gates := 0, gRefused := 0,
    gResult := 0, gReq := false, gGate := 0, op := 0, conv := false, convRun := Vector.replicate 3 0 }

/-- Meters and clock events of a lane (R334, R335, R338): latched counts, deviations of next and previous lane and
whether one was measured, runs above 2,000, ports down in this lane (R333), last clock event. -/
structure Meter where
  counts   : Vector Nat 6
  devNext  : Option Int
  devPrev  : Option Int
  runNext  : Nat
  runPrev  : Nat
  portDown : BitVec 9
  evKind   : BitVec 4
  evDom    : Nat
  evCnt    : Nat
  evCyc    : Half
  deriving DecidableEq, Repr

/-- No measurement taken. -/
def Meter.init : Meter :=
  { counts := Vector.replicate 6 0, devNext := none, devPrev := none, runNext := 0, runPrev := 0, portDown := 0,
    evKind := 0, evDom := 0, evCnt := 0, evCyc := 0 }

/-- A handshake by the power controller (R350): not running, asking block k with the blocks stopped so far. -/
inductive HsState where
  | idle | asking (k : Nat)
  deriving DecidableEq, Repr

/-- Power state of a lane (R344 to R354): mode, target, seat rail in millivolts, admissible points, operating point
change wanted in the next guard, WAIT, handshake and whether one was rolled back, refusals, temperatures, sleep bound,
its SUP_STATUS.WARN, and whether a dormant lane has to wake (R250). -/
structure Pwr where
  mode     : BitVec 3
  target   : BitVec 3
  mv       : Nat
  op       : BitVec 2
  admitOps    : BitVec 3
  want     : Option (BitVec 2)
  ap       : BitVec 3
  unwound  : Nat
  refusals : Nat
  block    : BitVec 5
  rejF     : Bool
  rejV     : Bool
  hs       : HsState
  rolled   : Bool
  tempMax  : Int
  tempNow  : Int
  tempSeen : Bool
  thermLim : Bool
  hot      : Bool
  sleepMs  : Nat
  warn     : Bool
  convExcl : Bool
  ptnFast  : Bool
  wakeDue  : Bool
  deriving DecidableEq, Repr

/-- Power state at reset: PWR_MODE.TARGET reads 7 (R354). -/
def Pwr.init : Pwr :=
  { mode := 0, target := 7, mv := 900, op := 0, admitOps := 0, want := none, ap := 0, unwound := 0, refusals := 0,
    block := 0, rejF := false, rejV := false, hs := .idle, rolled := false, tempMax := 0, tempNow := 0,
    tempSeen := false, thermLim := false, hot := false, sleepMs := 0, warn := false, convExcl := false,
    ptnFast := true, wakeDue := false }

/-- Supply figures since START as one lane holds them (R354). -/
structure SupRegs where
  mainMin  : Nat
  mainMax  : Nat
  bkMin    : Nat
  bkMax    : Nat
  busMin   : Nat
  busNow   : Nat
  dips     : Nat
  longest  : Nat
  d100     : Nat
  d10      : Nat
  d1       : Nat
  d0       : Nat
  v96      : Nat
  v99      : Nat
  v102     : Nat
  v105     : Nat
  toBackup : Nat
  toMain   : Nat
  deriving DecidableEq, Repr

/-- Supply figures at START (R354: minima 0xFFFF). -/
def SupRegs.init : SupRegs :=
  { mainMin := 0xFFFF, mainMax := 0, bkMin := 0xFFFF, bkMax := 0, busMin := 0xFFFF, busNow := 0, dips := 0,
    longest := 0, d100 := 0, d10 := 0, d1 := 0, d0 := 0, v96 := 0, v99 := 0, v102 := 0, v105 := 0, toBackup := 0,
    toMain := 0 }

/-- Self-test of a lane (R355 to R366). -/
structure Bist where
  mismatch : Nat
  incompl  : Nat
  seat     : Nat
  slice    : Nat
  longest  : Nat
  last     : Nat
  supMis   : Nat
  supAband : Nat
  supPass  : Nat
  supNext  : Nat
  supBad   : Bool
  supOpen  : Bool
  done     : Byte
  failed   : Byte
  scrPass  : Nat
  scrProg  : Half
  cuRuns   : Nat
  cuFails  : Nat
  cuWrong  : Bool
  sliceRun : Bool
  mis256   : List Nat
  deriving DecidableEq, Repr

/-- Self-test at START. -/
def Bist.init : Bist :=
  { mismatch := 0, incompl := 0, seat := 0, slice := 0, longest := 0, last := 0, supMis := 0, supAband := 0,
    supPass := 0, supNext := 0, supBad := false, supOpen := false, done := 0, failed := 0, scrPass := 0, scrProg := 0,
    cuRuns := 0, cuFails := 0, cuWrong := false, sliceRun := false, mis256 := [] }

/-- Accumulators of a record period, cycle figures (R370). -/
structure RecA where
  cycFirst  : Cycle
  cycles    : Nat
  laneDrops : Nat
  modDrops  : Nat
  usedHist  : List Nat
  usedMax   : Nat
  slackMin  : Nat
  slackPh   : BitVec 4
  corrMax   : Nat
  dirtyHist : List Nat
  dirtyMax  : Nat
  noMiss    : Nat
  missSum   : Nat
  missMax   : Nat
  ageA      : List Nat
  ageB      : List Nat
  stnLoss   : Nat
  staleCyc  : Nat
  staleMax  : Nat
  deriving DecidableEq, Repr

/-- Accumulators of a record period, the other figures (R370). -/
structure RecB where
  gap1      : List Nat
  gap2      : List Nat
  long1     : Nat
  long2     : Nat
  outv      : PerLane Nat
  excl      : Nat
  returns   : Nat
  sliceLong : Nat
  sliceMis  : Nat
  sliceInc  : Nat
  slices    : Nat
  supMis    : Nat
  supAband  : Nat
  xchk      : Option (Int × Int)
  xchkP     : Option (Int × Int)
  inputs    : List Nat
  busMin    : Nat
  dips      : Nat
  dipLong   : Nat
  switches  : Nat
  holdup    : Nat
  temps     : Option (Int × Int)
  forceCyc  : Nat
  permCyc   : Nat
  flags     : BitVec 8
  deriving DecidableEq, Repr

/-- Accumulators at the start of a period that opens with cycle `c` (R368). -/
def RecA.init (c : Cycle) : RecA :=
  { cycFirst := c, cycles := 0, laneDrops := 0, modDrops := 0, usedHist := List.replicate 8 0, usedMax := 0,
    slackMin := 0xFFFF, slackPh := 0, corrMax := 0, dirtyHist := List.replicate 6 0, dirtyMax := 0, noMiss := 0,
    missSum := 0, missMax := 0, ageA := List.replicate 5 0, ageB := List.replicate 5 0, stnLoss := 0, staleCyc := 0,
    staleMax := 0 }

/-- Accumulators at the start of a period (R368, R370). -/
def RecB.init : RecB :=
  { gap1 := List.replicate 3 0, gap2 := List.replicate 3 0, long1 := 0, long2 := 0, outv := PerLane.const 0, excl := 0,
    returns := 0, sliceLong := 0, sliceMis := 0, sliceInc := 0, slices := 0, supMis := 0, supAband := 0, xchk := none,
    xchkP := none, inputs := [0xFFFF, 0, 0xFFFF, 0], busMin := 0xFFFF, dips := 0, dipLong := 0, switches := 0,
    holdup := 0, temps := none, forceCyc := 0, permCyc := 0, flags := 0 }

/-- Recorder of a lane (R367 to R377). -/
structure Rec where
  enabled  : Bool
  pexp     : Nat
  seq      : Cycle
  count    : Nat
  writeErr : Nat
  a        : RecA
  b        : RecB
  deriving DecidableEq, Repr

/-- Recorder before the scan of R367. -/
def Rec.init : Rec :=
  { enabled := false, pexp := 0, seq := 0, count := 0, writeErr := 0, a := RecA.init 0, b := RecB.init }

/-- Transmit faults that a lane has recorded (R19): their number, the last one's port, lane and cycle; the number of times
that the bars of a port were cleared for want of an eligible lane, and the last such port and cycle. -/
structure TxRec where
  faults : Nat
  last   : Option (Port × LaneId × Cycle)
  clears : Nat
  lastClr : Option (Port × Cycle)
  deriving DecidableEq, Repr

/-- No transmit fault recorded. -/
def TxRec.init : TxRec := { faults := 0, last := none, clears := 0, lastClr := none }

/-- One lane. -/
structure Lane where
  boot  : Boot
  mode  : ModeState
  cyc   : CycState
  align : Align
  stats : Stats
  store : Store
  seats : Vector SeatState 9
  rot   : Rot
  codes : Codes
  field : Field
  vote  : Vote
  re    : Reentry
  lio   : Lio
  ptn   : Ptn
  fail  : Fail
  ring  : Ring
  host  : HostSt
  force : Forces
  nv    : Nv
  sec   : Sec
  clk   : Clk
  meter : Meter
  pwr   : Pwr
  sup   : SupRegs
  bist  : Bist
  rcd   : Rec
  xlDisc : Nat × Nat
  xlRun : Nat × Nat
  peers : PerLane (Option LaneStatus)
  bars  : List (Port × LaneId)
  txRun : List (Port × LaneId × Nat)
  txBad : List Port
  tx    : List (Port × LaneId)
  sent  : List (NetId × Nat)
  txRec : TxRec
  deriving DecidableEq, Repr

/-- A lane held in reset before the first power-up. -/
def Lane.init : Lane :=
  { boot := Boot.init, mode := ModeState.init, cyc := CycState.init, align := Align.init, stats := Stats.init,
    store := Store.init, seats := Vector.replicate 9 SeatState.init, rot := Rot.init, codes := Codes.init,
    field := Field.init, vote := Vote.init, re := Reentry.init, lio := Lio.init, ptn := Ptn.init, fail := Fail.init,
    ring := Ring.init, host := HostSt.init, force := Forces.init, nv := Nv.init, sec := Sec.init, clk := Clk.init,
    meter := Meter.init, pwr := Pwr.init, sup := SupRegs.init, bist := Bist.init, rcd := Rec.init,
    xlDisc := (0, 0), xlRun := (0, 0), peers := PerLane.const none, bars := [], txRun := [], txBad := [], tx := [], sent := [],
    txRec := TxRec.init }

end Sys2Proof.Machine
end

