-- ==== Sys2Proof/Machine/State.lean ====
section
/-!
DEFINITION. The state of the whole module, the reasons a step can stop, and the state at reset. Lane state is in
Sys2Proof/Machine/LaneState.lean.
-/
namespace Sys2Proof.Machine

/-- Reasons to stop with a fault. The module reports every failure it detects in its own state (R3, R36, R39), so no
command of this model stops with a fault. -/
inductive Fault where
  /-- Raised by no command. Safe: a step that raised it would answer no next state. -/
  | internal
  deriving DecidableEq, Repr

/-- Reasons to refuse a command. -/
inductive Refusal where
  /-- Raised by an arm of exec whose command has no meaning yet. Safe: the machine does not go on. -/
  | notModelled (mnemonic : String)
  deriving DecidableEq, Repr

/-- What an exchange link carries (R13). -/
inductive XMsg where
  | startStatus (f : StartStatus)
  | startMark
  | probe (num : Word)
  | probeBack (num : Word) (turnaround : Nat)
  | round1 (f : Round1)
  | round2 (f : Round2)
  | fetch (pos : Nat)
  | fetchReply (pos : Nat) (net : NetId) (fr : FieldFrame)
  | digest (f : DigestFrame)
  | seal (f : SealFrame)
  | notice (cyc : Cycle)
  | status (f : LaneStatus)
  | voted (m : VotedMsg)
  | snapReq
  | snap (m : SnapMsg)
  deriving DecidableEq, Repr

/-- Body of a ring frame (R263). -/
inductive RingBody where
  | raw (b : List Byte)
  | census (c : Census)
  | probe (n : Word)
  | probeBack (n : Word) (turnaround : Nat)
  | tunnel (b : TunnelBody)
  deriving DecidableEq, Repr

/-- What leaves the module or passes between its parts in a step (log entry 5). -/
inductive Out where
  | xl (src dst : LaneId) (relayed : Bool) (m : XMsg)
  | command (net : NetId) (lane : LaneId) (pos : Nat) (frame bytes : List Byte)
  | gratuitousArp (net : NetId) (ip : Word)
  | arpReply (net : NetId) (ip : Word)
  | arpRequest (net : NetId) (ip : Word)
  | boundary (lane : LaneId) (seq : Half) (cyc : Cycle) (excluded active : Bool) (mask : BitVec 4)
  | fcuCommand (lane : LaneId) (f : CommandFrame)
  | cycleSet (f : CycleSet)
  | heartbeat (bytes : List Byte)
  | snapBase (b : SnapBase)
  | snapDelta (d : SnapDelta)
  | snapEnd (e : SnapEnd)
  | dozeSnap (b : SnapBase) (d : BitVec 256)
  | health (bytes : List Byte)
  | ring (p : RingPort) (h : RingHdr) (b : RingBody)
  | shp (sess : Nat) (req : Word) (obj status : Byte) (body : List Byte)
  | event (sess : Nat) (bit : Nat) (cyc : Cycle) (detail : BitVec 64)
  | closed (sess : Nat)
  | stream (conn : Nat) (data : List Byte)
  | connClosed (conn : Nat)
  | hello (conn : Nat) (serverRandom : BitVec 256) (share : List Byte) (retry : Bool)
  | serverCert (conn : Nat) (chain : List (List Byte)) (verify : List Byte)
  deriving DecidableEq, Repr

/-- Selector registers of one session in one lane (R383). -/
structure Sels where
  stn   : BitVec 12
  nb    : BitVec 3
  frc   : BitVec 8
  meter : BitVec 3
  slot  : BitVec 16
  deriving DecidableEq, Repr

/-- Selectors at the opening of a session (R383). -/
def Sels.init : Sels := { stn := 0, nb := 0, frc := 0, meter := 0, slot := 0 }

/-- An SHP session (R274, R309, R312): maintainer rights, commissioning rights, entry on own J10, tunnel by which it
arrived, client chain, the chain that the module presented (R322), lanes that hold its keys, traffic key generation, event mask, selectors and _HI latches. -/
structure Session where
  id      : Nat
  maint   : Bool
  comm    : Bool
  ownJ10  : Bool
  tunnel  : Option (Byte × Byte)
  chain   : List Cert
  own     : List (List Byte)
  lanes   : LaneSet
  keyGen  : PerLane Nat
  mask    : Word
  sels    : PerLane Sels
  latches : PerLane (Mem Word)
  deriving DecidableEq, Repr

/-- A connection whose TLS handshake is not complete (R273, R309): entry on port 4711, on own J10, tunnel as gateway slot
and TID, 12-byte connection tuple (R306). -/
structure Conn where
  id     : Nat
  maint  : Bool
  ownJ10 : Bool
  tunnel : Option (Byte × Byte)
  tuple  : List Byte
  deriving DecidableEq, Repr

/-- A tunnel (R278): whether this module is its gateway, slot of the other end, TID, connection, entry on port 4711, offsets
sent, acknowledged and received, the bytes sent and not yet acknowledged, and those that wait to be sent. -/
structure Tunnel where
  gateway : Bool
  peer    : Byte
  tid     : Byte
  conn    : Nat
  maint   : Bool
  sent    : Word
  acked   : Word
  recv    : Word
  unacked : List Byte
  queue   : List Byte
  deriving DecidableEq, Repr

/-- A read waiting for samples (R379 to R385): views, stamp, response lane, lanes that hold the request and have still to
sample, samples that the response lane holds, lanes that count toward the vote once the response lane has sampled, lanes
that timed out. -/
structure VRead where
  sess    : Nat
  req     : Word
  sel     : LaneSel
  addr    : Word
  count   : Nat
  m       : Cycle
  resp    : LaneId
  got     : LaneSet
  samples : PerLane (Option (List (Option Word)))
  counted : Option LaneSet
  late    : LaneSet
  deriving DecidableEq, Repr

/-- A package that the lanes assemble (R173, R317): MAGIC, AREA_ID, STN_ID field, generation and the receiver's key. -/
structure Package where
  magic : List Byte
  area  : Word
  stn   : Word
  gen   : Word
  pub   : List Byte
  deriving DecidableEq, Repr

/-- What an issued package leaves in a lane: the generation record of a station (R174), or an exported generation of a
purpose and area (R318). -/
inductive PkgMark where
  | station (pos : Nat) (gen : Word)
  | peer (purpose : Byte) (area gen : Word)
  deriving DecidableEq, Repr

/-- A package under assembly (R317): session, request, sub-object, package, mark, and the fields that each lane holds of each
lane. -/
structure PkgWait where
  sess : Nat
  req  : Word
  sub  : Byte
  pkg  : Package
  mark : PkgMark
  held : PerLane (PerLane (Option (List Byte)))
  deriving DecidableEq, Repr

/-- State of a local output group (R231). -/
inductive GrpSt where
  | off | normal | degraded | supplyLow | latched
  deriving DecidableEq, Repr

/-- An input or RESTORE at the FCU (R214 to R216). -/
structure FcuIn where
  raw      : Bool
  out      : Bool
  c        : Nat
  n        : Nat
  failRun  : Nat
  passRun  : Nat
  pathFail : Bool
  deriving DecidableEq, Repr

/-- An output group at the FCU (R222 to R234). -/
structure FcuGrp where
  st      : GrpSt
  cut     : Bool
  vpr     : Bool
  warn    : Bool
  uv      : Bool
  covLost : Bool
  degLeft : Option Nat
  degExp  : Bool
  mv      : Nat
  check   : Bool
  waitVpr : Bool
  degUs   : Nat
  deriving DecidableEq, Repr

/-- An output channel at the FCU (R221 to R229): commanded, switch closed, read-back at 5 V or more at the last sample or
check, fault code of LIO_CH_FAULT, held off until a retry, passed pulses in a row, pulse in progress (its switch is open)
with whether a command to off or an undervoltage voids it, on-state load current, read-back path runs and loss, off-to-on
command held back by a dip of the bus (R235, R342). -/
structure FcuCh where
  cmd    : Bool
  on     : Bool
  rb     : Bool
  fault  : BitVec 4
  hold   : Bool
  passes : Nat
  pulse  : Bool
  void   : Bool
  cur    : Nat
  rbFail : Nat
  rbPass : Nat
  rbLost : Bool
  dip    : Bool
  deriving DecidableEq, Repr

/-- The field controller (R15 to R17, R214 to R235, R364). `cyc` is the cycle whose BOUNDARY frames it collects, `held` the
last frame in sequence of each lane, `latched` whether the cycle set of the cycle went, `lastB2` the b2 before, `jamRest`
the samples since a jammed press in which RESTORE was inactive. -/
structure Fcu where
  inputs   : Vector FcuIn 33
  groups   : Vector FcuGrp 4
  chans    : Vector FcuCh 32
  localIn  : List LocalIn
  localGrp : List LocalGrp
  fault    : Bool
  testsOk  : Bool
  cyc      : Cycle
  first    : Option Nat
  b2       : Option Nat
  arrived  : List (LaneId × Nat)
  held     : PerLane (Option BoundaryFrame)
  present  : LaneSet
  active   : Bool
  seqB     : PerLane (Option Half)
  seqC     : PerLane (Option Half)
  cmds     : PerLane (Option CommandFrame)
  applied  : Bool
  seqOut   : Half
  jam      : Bool
  heldPress : Bool
  accFlag  : Bool
  accepted : Nat
  jammed   : Nat
  refused  : Nat
  mask     : PerLane (BitVec 4)
  latched  : Bool
  lastB2   : Option Nat
  jamRest  : Nat
  deriving DecidableEq, Repr

/-- Supply stage (R339 to R342): inputs present, each one disconnected for overvoltage, source, preference, voltages, HOLDUP,
warning line, all held in reset. -/
structure Supply where
  mainP   : Bool
  bkP     : Bool
  mainOv  : Bool
  bkOv    : Bool
  onBk    : Bool
  pref    : Bool
  mainV   : Nat
  bkV     : Nat
  holdup  : Bool
  warnNow : Bool
  inReset : Bool
  deriving DecidableEq, Repr

/-- The NDT-3364: the queue of commands (model's own), what the last step sent (model's own), the counter of free
values (model's own), three lanes, the FCU, supply stage, exchange links up (bit 0 AB, 1 BC, 2 CA), port links up (bit k
of J4 + k), sessions, handshakes, tunnels, voted reads, packages under assembly, tunnel retransmissions since START,
lamps shown (R387 layout) and commanded, key wait (R134). -/
structure State where
  pending  : List Instr
  out      : List Out
  freeCtr  : Nat
  la       : Lane
  lb       : Lane
  lc       : Lane
  fcu      : Fcu
  sup      : Supply
  links    : BitVec 3
  ports    : BitVec 7
  sessions : List Session
  conns    : List Conn
  tunnels  : List Tunnel
  reads    : List VRead
  pkgs     : List PkgWait
  tunRetx  : Nat
  lampCmd  : PerLane (BitVec 22)
  lamps    : BitVec 22
  keyWait  : Bool
  deriving DecidableEq, Repr

/-- An input at START: counter 0, output 0 (R215). -/
def FcuIn.init : FcuIn :=
  { raw := false, out := false, c := 0, n := 0, failRun := 0, passRun := 0, pathFail := false }

/-- A group at START: OFF (R222). -/
def FcuGrp.init : FcuGrp :=
  { st := .off, cut := false, vpr := false, warn := false, uv := false, covLost := false, degLeft := none,
    degExp := false, mv := 0, check := false, waitVpr := false, degUs := 0 }

/-- A channel at START: off. -/
def FcuCh.init : FcuCh :=
  { cmd := false, on := false, rb := false, fault := 0, hold := false, passes := 0, pulse := false, void := false,
    cur := 0, rbFail := 0, rbPass := 0, rbLost := false, dip := false }

/-- The FCU at START (R222, R364). -/
def Fcu.init : Fcu :=
  { inputs := Vector.replicate 33 FcuIn.init, groups := Vector.replicate 4 FcuGrp.init,
    chans := Vector.replicate 32 FcuCh.init, localIn := [], localGrp := [], fault := false, testsOk := false, cyc := 0,
    first := none, b2 := none, arrived := [], held := PerLane.const none, present := noLanes, active := false,
    seqB := PerLane.const none, seqC := PerLane.const none, cmds := PerLane.const none, applied := false, seqOut := 0,
    jam := false, heldPress := false, accFlag := false, accepted := 0, jammed := 0, refused := 0,
    mask := PerLane.const 0, latched := false, lastB2 := none, jamRest := 0 }

/-- The supply stage at reset. -/
def Supply.init : Supply :=
  { mainP := false, bkP := false, mainOv := false, bkOv := false, onBk := false, pref := true, mainV := 0, bkV := 0, holdup := false, warnNow := false,
    inReset := false }

/-- The module right after reset: every lane held in reset, every register at its Reset value (R384), nothing queued.
Values the spec does not state are those of log entry 2. -/
def State.reset : State :=
  { pending := [], out := [], freeCtr := 0, la := Lane.init, lb := Lane.init, lc := Lane.init, fcu := Fcu.init,
    sup := Supply.init, links := 0, ports := 0, sessions := [], conns := [], tunnels := [], reads := [], pkgs := [], tunRetx := 0,
    lampCmd := PerLane.const 0, lamps := 0, keyWait := false }

end Sys2Proof.Machine
end

