-- ==== Sys2Proof/Machine/Bits.lean ====
section
/-!
DEFINITION. Sets of lanes, byte orders, and the check-value polynomials of spec/06_check_value_units.md R123 and R124,
of which CRC-32C also forms signatures and entry checks (R51, R63, R135).
-/
namespace Sys2Proof

/-- Whether a lane is in the set. -/
def LaneSet.has (s : LaneSet) : LaneId → Bool
  | .a => s.a
  | .b => s.b
  | .c => s.c

/-- The set with a lane put in or taken out. -/
def LaneSet.put (s : LaneSet) (l : LaneId) (v : Bool) : LaneSet :=
  match l with
  | .a => { s with a := v }
  | .b => { s with b := v }
  | .c => { s with c := v }

/-- Number of lanes in the set. -/
def LaneSet.count (s : LaneSet) : Nat := s.a.toNat + s.b.toNat + s.c.toNat

/-- Bit 0 Lane A, bit 1 Lane B, bit 2 Lane C (R276). -/
def LaneSet.bits (s : LaneSet) : BitVec 3 := BitVec.ofBool s.c ++ BitVec.ofBool s.b ++ BitVec.ofBool s.a

/-- The set that three bits name. -/
def LaneSet.ofBits (v : BitVec 3) : LaneSet := { a := v.getLsbD 0, b := v.getLsbD 1, c := v.getLsbD 2 }

/-- Lanes that satisfy a test. -/
def LaneSet.those (p : LaneId → Bool) : LaneSet := { a := p .a, b := p .b, c := p .c }

/-- Lanes in both sets. -/
def LaneSet.inter (s t : LaneSet) : LaneSet := { a := s.a && t.a, b := s.b && t.b, c := s.c && t.c }

/-- Lanes in either set. -/
def LaneSet.union (s t : LaneSet) : LaneSet := { a := s.a || t.a, b := s.b || t.b, c := s.c || t.c }

/-- All three lanes. -/
def allLanes : LaneSet := { a := true, b := true, c := true }

/-- The lanes in order. -/
def laneList : List LaneId := [.a, .b, .c]

/-- The lane's value. -/
def PerLane.get {α : Type} (p : PerLane α) : LaneId → α
  | .a => p.a
  | .b => p.b
  | .c => p.c

/-- The values with one lane's replaced. -/
def PerLane.put {α : Type} (p : PerLane α) (l : LaneId) (v : α) : PerLane α :=
  match l with
  | .a => { p with a := v }
  | .b => { p with b := v }
  | .c => { p with c := v }

/-- The values under a function. -/
def PerLane.mapAll {α β : Type} (f : α → β) (p : PerLane α) : PerLane β := { a := f p.a, b := f p.b, c := f p.c }

/-- Next lane in the order A, B, C, A (R45). -/
def LaneId.next : LaneId → LaneId
  | .a => .b
  | .b => .c
  | .c => .a

/-- Previous lane. -/
def LaneId.prev : LaneId → LaneId
  | .a => .c
  | .b => .a
  | .c => .b

/-- Lane number 0, 1 or 2. -/
def LaneId.num : LaneId → Nat
  | .a => 0
  | .b => 1
  | .c => 2

/-- LANE byte of a lane (R133, R171). -/
def LaneId.byte : LaneId → Byte
  | .a => 0x41
  | .b => 0x42
  | .c => 0x43

/-- The lane other than two different lanes. -/
def LaneId.third (l m : LaneId) : LaneId := if l.next = m then l.prev else l.next

namespace Machine

/-- Byte `k` of a list; 0 past its end. -/
def byteAt (b : List Byte) (k : Nat) : Byte := b.getD k 0

/-- `n` bytes from offset `o`. -/
def slice (b : List Byte) (o n : Nat) : List Byte := (b.drop o).take n

/-- The number that bytes spell, most significant first. -/
def beNat : List Byte → Nat
  | [] => 0
  | x :: r => x.toNat * 256 ^ r.length + beNat r

/-- The number that bytes spell, least significant first. -/
def leNat : List Byte → Nat
  | [] => 0
  | x :: r => x.toNat + 256 * leNat r

/-- Big-endian field of `n` bytes at offset `o`. -/
def beAt (b : List Byte) (o n : Nat) : Nat := beNat (slice b o n)

/-- Little-endian field of `n` bytes at offset `o`. -/
def leAt (b : List Byte) (o n : Nat) : Nat := leNat (slice b o n)

/-- `n` bytes of a number, least significant first. -/
def toLe : Nat → Nat → List Byte
  | 0, _ => []
  | n + 1, v => BitVec.ofNat 8 v :: toLe n (v / 256)

/-- `n` bytes of a number, most significant first. -/
def toBe (n v : Nat) : List Byte := (toLe n v).reverse

/-- Bytes of a bit vector, most significant first. -/
def bytesOf {w : Nat} (v : BitVec w) : List Byte := toBe (w / 8) v.toNat

/-- The bit vector that bytes spell, most significant first. -/
def ofBytes (w : Nat) (b : List Byte) : BitVec w := BitVec.ofNat w (beNat b)

/-- Parameters of a polynomial (R123): width in bits, generator in the bit order of R124, initial value, whether
reflected, final XOR. -/
structure Poly where
  width : Nat
  gen   : Coded
  init  : Coded
  refl  : Bool
  fin   : Coded
  deriving DecidableEq, Repr

/-- The polynomial that CSEL FN selects (R123, R124). -/
def polyOf (fn : BitVec 2) : Poly :=
  if fn = 0 then { width := 32, gen := 0x82F63B78, init := 0xFFFFFFFF, refl := true, fin := 0xFFFFFFFF }
  else if fn = 1 then { width := 32, gen := 0xEDB88320, init := 0xFFFFFFFF, refl := true, fin := 0xFFFFFFFF }
  else if fn = 2 then { width := 16, gen := 0x1021, init := 0xFFFF, refl := false, fin := 0 }
  else { width := 64, gen := 0x42F0E1EBA9EA3693, init := 0, refl := false, fin := 0 }

/-- Ones in the low `w` bits. -/
def maskOf (w : Nat) : Coded := (BitVec.allOnes 64) >>> (64 - w)

/-- One shift of R124's step. -/
def polyShift (p : Poly) (r : Coded) : Coded :=
  if p.refl then (if r.getLsbD 0 then (r >>> 1) ^^^ p.gen else r >>> 1)
  else if r.getLsbD (p.width - 1) then ((r <<< 1) ^^^ p.gen) &&& maskOf p.width else (r <<< 1) &&& maskOf p.width

/-- `n` shifts. -/
def polyShifts (p : Poly) : Nat → Coded → Coded
  | 0, r => r
  | n + 1, r => polyShifts p n (polyShift p r)

/-- Step of R124 for one byte, as the byte-parallel engine makes it. -/
def polyByte (p : Poly) (r : Coded) (b : Byte) : Coded :=
  if p.refl then polyShifts p 8 (r ^^^ b.setWidth 64)
  else polyShifts p 8 (r ^^^ (b.setWidth 64 <<< (p.width - 8)))

/-- Step of R124 for one byte, as the nibble-serial engine of R126 makes it: half a byte at a time, in the order in
which the polynomial takes the bits. -/
def polyNibbles (p : Poly) (r : Coded) (b : Byte) : Coded :=
  let lo : Coded := (b &&& 0x0F).setWidth 64
  let hi : Coded := (b >>> 4).setWidth 64
  if p.refl then polyShifts p 4 (polyShifts p 4 (r ^^^ lo) ^^^ hi)
  else polyShifts p 4 (polyShifts p 4 (r ^^^ (hi <<< (p.width - 4))) ^^^ (lo <<< (p.width - 4)))

/-- Running value after a list of bytes, each step of `polyByte` worked out to a number before the next (lemma
polyBytes_cons). -/
def polyBytes (p : Poly) (r : Coded) : List Byte → Coded
  | [] => r
  | b :: bs => match (polyByte p r b).toNat with
    | 0 => polyBytes p 0 bs
    | n + 1 => polyBytes p (BitVec.ofNat 64 (n + 1)) bs

/-- CRC-32C of a byte list under its standard parameters (R51, R123). -/
def crc32c (b : List Byte) : Word :=
  let p := polyOf 0
  (polyBytes p p.init b ^^^ p.fin).setWidth 32

/-- Check of an entry with a CRC (R135): CRC-32C over its other bytes and its word address, least significant byte
first. -/
def entryCrc (body : List Byte) (index : Nat) : Word := crc32c (body ++ toLe 4 index)

/-- The smaller of a count and a field's maximum (R45). -/
def sat (bits v : Nat) : Nat := min v (2 ^ bits - 1)

/-- A count as a saturated field of a register. -/
def satW (bits v : Nat) : Word := BitVec.ofNat 32 (sat bits v)

/-- A two's complement field, saturated at its ends. -/
def satInt (bits : Nat) (v : Int) : Word :=
  let hi : Int := 2 ^ (bits - 1) - 1
  let lo : Int := -(2 ^ (bits - 1))
  let c := max lo (min hi v)
  (BitVec.ofInt bits c).setWidth 32

/-- 1 for true. -/
def bit (b : Bool) : Word := if b then 1 else 0

end Machine
end Sys2Proof
end

