-- ==== Sys2Proof/Machine/Aes.lean ====
section
/-!
DEFINITION. AES, AES-256-CMAC and AES key wrap, which R169, R173, R198, R301 and R306 (spec/08_field_telegrams.md,
spec/09_agreement_and_vote.md, spec/14_keys_and_trust.md) take from their standards by name: FIPS 197, NIST SP 800-38B
and NIST SP 800-38F (PRESUMED, log entry 3).
-/
namespace Sys2Proof.Machine

/-- Four numbers of 64 bytes, one after the other. -/
def aesJoin (p q r s : Nat) : Nat :=
  ((p * 2 ^ 256 * 2 ^ 256 + q) * 2 ^ 256 * 2 ^ 256 + r) * 2 ^ 256 * 2 ^ 256 + s

/-- Bytes 0 to 63 of the substitution table (FIPS 197), in order. -/
def aesS0 : Nat :=
  0x637C777BF26B6FC53001672BFED7AB76CA82C97DFA5947F0ADD4A2AF9CA472C0B7FD9326363FF7CC34A5E5F171D8311504C723C31896059A071280E2EB27B275

/-- Bytes 64 to 127 of the substitution table (FIPS 197), in order. -/
def aesS1 : Nat :=
  0x09832C1A1B6E5AA0523BD6B329E32F8453D100ED20FCB15B6ACBBE394A4C58CFD0EFAAFB434D338545F9027F503C9FA851A3408F929D38F5BCB6DA2110FFF3D2

/-- Bytes 128 to 191 of the substitution table (FIPS 197), in order. -/
def aesS2 : Nat :=
  0xCD0C13EC5F974417C4A77E3D645D197360814FDC222A908846EEB814DE5E0BDBE0323A0A4906245CC2D3AC629195E479E7C8376D8DD54EA96C56F4EA657AAE08

/-- Bytes 192 to 255 of the substitution table (FIPS 197), in order. -/
def aesS3 : Nat :=
  0xBA78252E1CA6B4C6E8DD741F4BBD8B8A703EB5664803F60E613557B986C11D9EE1F8981169D98E949B1E87E9CE5528DF8CA1890DBFE6426841992D0FB054BB16

/-- The substitution table (FIPS 197): 256 bytes in order, the first one most significant. -/
def aesSTable : Nat := aesJoin aesS0 aesS1 aesS2 aesS3

/-- Bytes 0 to 63 of the inverse substitution table (FIPS 197), in order. -/
def aesI0 : Nat :=
  0x52096AD53036A538BF40A39E81F3D7FB7CE339829B2FFF87348E4344C4DEE9CB547B9432A6C2233DEE4C950B42FAC34E082EA16628D924B2765BA2496D8BD125

/-- Bytes 64 to 127 of the inverse substitution table (FIPS 197), in order. -/
def aesI1 : Nat :=
  0x72F8F66486689816D4A45CCC5D65B6926C704850FDEDB9DA5E154657A78D9D8490D8AB008CBCD30AF7E45805B8B34506D02C1E8FCA3F0F02C1AFBD0301138A6B

/-- Bytes 128 to 191 of the inverse substitution table (FIPS 197), in order. -/
def aesI2 : Nat :=
  0x3A9111414F67DCEA97F2CFCEF0B4E67396AC7422E7AD3585E2F937E81C75DF6E47F11A711D29C5896FB7620EAA18BE1BFC563E4BC6D279209ADBC0FE78CD5AF4

/-- Bytes 192 to 255 of the inverse substitution table (FIPS 197), in order. -/
def aesI3 : Nat :=
  0x1FDDA8338807C731B11210592780EC5F60517FA919B54A0D2DE57A9F93C99CEFA0E03B4DAE2AF5B0C8EBBB3C83539961172B047EBA77D626E169146355210C7D

/-- The inverse substitution table (FIPS 197): 256 bytes in order, the first one most significant. -/
def aesITable : Nat := aesJoin aesI0 aesI1 aesI2 aesI3

/-- Byte `b` of a table of 256 bytes. -/
def aesLook (table b : Nat) : Nat := (table >>> (8 * (255 - b))) % 256

/-- Byte `i` of a state of 16 bytes, the first one most significant; a column is four of them in order (FIPS 197). -/
def aesByte (st i : Nat) : Nat := (st >>> (8 * (15 - i))) % 256

/-- Every byte of the state substituted by a table, byte `i` from place `f i`. -/
def aesPick (table : Nat) (f : Nat → Nat) (st : Nat) : Nat :=
  (List.range 16).foldl (fun v i => v * 256 + aesLook table (aesByte st (f i))) 0

/-- Substitution, then row r moves r places to the left. -/
def aesShift (st : Nat) : Nat := aesPick aesSTable (fun i => (i + 4 * (i % 4)) % 16) st

/-- Row r moves r places to the right, with the inverse substitution. -/
def aesUnshift (st : Nat) : Nat := aesPick aesITable (fun i => (i + 12 * (i % 4)) % 16) st

/-- The number whose four columns are all `w`. -/
def aesColumns (w : Nat) : Nat := ((w * 2 ^ 32 + w) * 2 ^ 32 + w) * 2 ^ 32 + w

/-- Doubling of every byte in the field of AES. -/
def aesDouble (st : Nat) : Nat :=
  ((st &&& aesColumns 0x7F7F7F7F) * 2) ^^^ (((st >>> 7) &&& aesColumns 0x01010101) * 0x1B)

/-- Product of every byte with a factor below 16. -/
def aesTimes (k st : Nat) : Nat :=
  let d1 := aesDouble st
  let d2 := aesDouble d1
  (if k % 2 = 1 then st else 0) ^^^ (if k / 2 % 2 = 1 then d1 else 0) ^^^ (if k / 4 % 2 = 1 then d2 else 0) ^^^
    (if k / 8 % 2 = 1 then aesDouble d2 else 0)

/-- Every column turned by `r` bytes, so that byte j is the former byte j + r. -/
def aesTurn (r st : Nat) : Nat :=
  ((st &&& aesColumns (2 ^ (32 - 8 * r) - 1)) <<< (8 * r)) ||| ((st >>> (32 - 8 * r)) &&& aesColumns (2 ^ (8 * r) - 1))

/-- Each column times a circulant matrix, its first row given. -/
def aesMix (m0 m1 m2 m3 st : Nat) : Nat :=
  aesTimes m0 st ^^^ aesTurn 1 (aesTimes m1 st) ^^^ aesTurn 2 (aesTimes m2 st) ^^^ aesTurn 3 (aesTimes m3 st)

/-- Every byte of a word substituted. -/
def aesWord (w : Nat) : Nat :=
  [24, 16, 8, 0].foldl (fun v k => v * 256 + aesLook aesSTable ((w >>> k) % 256)) 0

/-- The key schedule's next words: `nk` words of key, `n` words still to form, the words so far last first, the round
constant. -/
def aesExpand (nk : Nat) : Nat → List Nat → Nat → List Nat
  | 0, ws, _ => ws.reverse
  | n + 1, ws, rc =>
    let i := ws.length
    let t := ws.headD 0
    let u := if i % nk = 0 then aesWord (t % 2 ^ 24 * 256 + t / 2 ^ 24) ^^^ rc * 2 ^ 24
      else if nk = 8 ∧ i % nk = 4 then aesWord t else t
    aesExpand nk n ((ws.getD (nk - 1) 0 ^^^ u) :: ws) (if i % nk = 0 then aesDouble rc else rc)

/-- Words in groups of four, each group one state. -/
def aesGroups : List Nat → List Nat
  | w0 :: w1 :: w2 :: w3 :: ws => (((w0 * 2 ^ 32 + w1) * 2 ^ 32 + w2) * 2 ^ 32 + w3) :: aesGroups ws
  | _ => []

/-- The round keys of a key of `nk` words: nk + 7 of 16 bytes. -/
def aesKeys (nk key : Nat) : List Nat :=
  let words := (List.range nk).map fun i => (key >>> (32 * (nk - 1 - i))) % 2 ^ 32
  aesGroups (aesExpand nk (4 * (nk + 7) - nk) words.reverse 1)

/-- The rounds of the cipher after the first key; the last has no mixing. -/
def aesRounds : List Nat → Nat → Nat
  | [], st => st
  | [k], st => aesShift st ^^^ k
  | k :: ks, st => aesRounds ks (aesMix 2 3 1 1 (aesShift st) ^^^ k)

/-- The cipher (FIPS 197) of a 16-byte block under a key of 4 or 8 words. -/
def aesCipher (nk key st : Nat) : Nat :=
  match aesKeys nk key with
  | [] => st
  | k :: ks => aesRounds ks (st ^^^ k)

/-- The rounds of the inverse cipher, round keys last first. -/
def aesUnrounds : List Nat → Nat → Nat
  | [], st => st
  | [k], st => aesUnshift st ^^^ k
  | k :: ks, st => aesUnrounds ks (aesMix 14 11 13 9 (aesUnshift st ^^^ k))

/-- The inverse cipher. -/
def aesInverse (nk key st : Nat) : Nat :=
  match (aesKeys nk key).reverse with
  | [] => st
  | k :: ks => aesUnrounds ks (st ^^^ k)

/-- AES-256 (R301) of a block. -/
def aes256 (key : BitVec 256) (x : BitVec 128) : BitVec 128 := BitVec.ofNat 128 (aesCipher 8 key.toNat x.toNat)

/-- F of R198: AES-128 under the all-zero key. -/
def aesZero (x : BitVec 128) : BitVec 128 := BitVec.ofNat 128 (aesCipher 4 0 x.toNat)

/-- Doubling of a block (SP 800-38B). -/
def cmacDouble (x : BitVec 128) : BitVec 128 := if x.getLsbD 127 then (x <<< 1) ^^^ 0x87 else x <<< 1

/-- The chain over `n` blocks and what follows them, which the last block takes in with its subkey (SP 800-38B). -/
def cmacChain (key : BitVec 256) (k1 : BitVec 128) : Nat → List Byte → BitVec 128 → BitVec 128
  | 0, m, x =>
    if m.length = 16 then aes256 key (x ^^^ k1 ^^^ ofBytes 128 m)
    else aes256 key (x ^^^ cmacDouble k1 ^^^ ofBytes 128 (m ++ 0x80 :: List.replicate (15 - m.length) 0))
  | n + 1, m, x => cmacChain key k1 n (m.drop 16) (aes256 key (x ^^^ ofBytes 128 (m.take 16)))

/-- AES-256-CMAC (R169, R301, R306). -/
def cmac (key : BitVec 256) (m : List Byte) : BitVec 128 :=
  cmacChain key (cmacDouble (aes256 key 0)) ((m.length - 1) / 16) m 0

/-- Step t of the wrapping (SP 800-38F) over the registers r, of which the first is worked on and goes to the end. -/
def kwStep (key : BitVec 256) (s : BitVec 64 × List (BitVec 64)) (t : Nat) : BitVec 64 × List (BitVec 64) :=
  let v := aes256 key (s.1 ++ s.2.headD 0)
  (v.extractLsb' 64 64 ^^^ BitVec.ofNat 64 t, s.2.drop 1 ++ [v.extractLsb' 0 64])

/-- Its inverse: the last register is worked on and goes to the front. -/
def kwUnstep (key : BitVec 256) (s : BitVec 64 × List (BitVec 64)) (t : Nat) : BitVec 64 × List (BitVec 64) :=
  let v := BitVec.ofNat 128 (aesInverse 8 key.toNat ((s.1 ^^^ BitVec.ofNat 64 t) ++ s.2.getLastD 0).toNat)
  (v.extractLsb' 64 64, v.extractLsb' 0 64 :: s.2.dropLast)

/-- The 64-bit words of a list of bytes. -/
def words64 (m : List Byte) : List (BitVec 64) := (List.range (m.length / 8)).map fun i => ofBytes 64 (slice m (8 * i) 8)

/-- Initial value of the wrapping. -/
def kwInit : BitVec 64 := 0xA6A6A6A6A6A6A6A6

/-- AES key wrap (R173, R301). -/
def kwWrap (key : BitVec 256) (m : List Byte) : List Byte :=
  let r := words64 m
  let s := ((List.range (6 * r.length)).map (· + 1)).foldl (kwStep key) (kwInit, r)
  bytesOf s.1 ++ s.2.flatMap fun w => bytesOf w

/-- AES key unwrap of a 256-bit key with its integrity check (R301, R314, R318). -/
def kwUnwrap (key : BitVec 256) (m : List Byte) : Option (BitVec 256) :=
  let r := (words64 m).drop 1
  let s := (((List.range (6 * r.length)).map (· + 1)).reverse).foldl (kwUnstep key) ((words64 m).headD 0, r)
  if m.length = 40 ∧ s.1 = kwInit then some (ofBytes 256 (s.2.flatMap fun w => bytesOf w)) else none

end Sys2Proof.Machine
end

