-- ==== Sys2Proof/Machine/Sha.lean ====
section
/-!
DEFINITION. SHA-256 and SHA-384, which R149, R199 and R301 (spec/07_data_key.md, spec/09_agreement_and_vote.md,
spec/14_keys_and_trust.md) take from their standard by name: FIPS 180-4 (PRESUMED, log entry 3).
-/
namespace Sys2Proof.Machine

/-- Rotation amounts of a hash: those of the two large functions and of the two schedule functions, each of which ends in
a shift. -/
structure ShaRot where
  big0 : Nat × Nat × Nat
  big1 : Nat × Nat × Nat
  sm0  : Nat × Nat × Nat
  sm1  : Nat × Nat × Nat
  deriving DecidableEq, Repr

/-- A word of `w` bits rotated right. -/
def shaRot (w r x : Nat) : Nat := x >>> r ||| (x <<< (w - r)) % 2 ^ w

/-- Three rotations joined. -/
def bigSigma (w : Nat) (r : Nat × Nat × Nat) (x : Nat) : Nat := shaRot w r.1 x ^^^ shaRot w r.2.1 x ^^^ shaRot w r.2.2 x

/-- Two rotations and a shift joined. -/
def smallSigma (w : Nat) (r : Nat × Nat × Nat) (x : Nat) : Nat := shaRot w r.1 x ^^^ shaRot w r.2.1 x ^^^ x >>> r.2.2

/-- Word `i` of `n` words of `w` bits, the first one most significant. -/
def shaWord (w n i v : Nat) : Nat := (v >>> (w * (n - 1 - i))) % 2 ^ w

/-- One round with its constant plus message word `kw`, on the eight working words of `w` bits in order. -/
def shaRound (w : Nat) (r : ShaRot) (kw s : Nat) : Nat :=
  let a := shaWord w 8 0 s
  let e := shaWord w 8 4 s
  let f := shaWord w 8 5 s
  let g := shaWord w 8 6 s
  let b := shaWord w 8 1 s
  let c := shaWord w 8 2 s
  let t1 := shaWord w 8 7 s + bigSigma w r.big1 e + (e &&& f ^^^ (2 ^ w - 1 - e) &&& g) + kw
  let t2 := bigSigma w r.big0 a + (a &&& b ^^^ a &&& c ^^^ b &&& c)
  let d := shaWord w 8 3 s + t1
  (t1 + t2) % 2 ^ w * 2 ^ (7 * w) + (s >>> (5 * w)) * 2 ^ (4 * w) + d % 2 ^ w * 2 ^ (3 * w) + (s >>> w) % 2 ^ (3 * w)

/-- The rounds of one block, one for each constant; `ws` holds the next 16 words of the schedule. -/
def shaRounds (w : Nat) (r : ShaRot) : List Nat → Nat → Nat → Nat
  | [], _, s => s
  | k :: ks, ws, s =>
    let v := smallSigma w r.sm1 (shaWord w 16 14 ws) + shaWord w 16 9 ws + smallSigma w r.sm0 (shaWord w 16 1 ws) +
      shaWord w 16 0 ws
    shaRounds w r ks (ws % 2 ^ (15 * w) * 2 ^ w + v % 2 ^ w) (shaRound w r (k + shaWord w 16 0 ws) s)

/-- The chaining words after a block, each the sum of what it was and what the rounds leave. -/
def shaBlock (w : Nat) (r : ShaRot) (ks : List Nat) (s ws : Nat) : Nat :=
  let t := shaRounds w r ks ws s
  [0, 1, 2, 3, 4, 5, 6, 7].foldl (fun v i => v * 2 ^ w + (shaWord w 8 i s + shaWord w 8 i t) % 2 ^ w) 0

/-- The message with its padding: one bit, zeros and the length in bits; a block is 16 words of `wb` bytes. -/
def shaPad (wb : Nat) (m : List Byte) : List Byte :=
  let used := m.length + 1 + 2 * wb
  m ++ (0x80 :: List.replicate ((16 * wb - used % (16 * wb)) % (16 * wb)) 0) ++ toBe (2 * wb) (8 * m.length)

/-- The chaining words after `n` blocks of `wb` times 16 bytes. -/
def shaChain (wb : Nat) (r : ShaRot) (ks : List Nat) : Nat → List Byte → Nat → Nat
  | 0, _, s => s
  | n + 1, p, s => shaChain wb r ks n (p.drop (16 * wb)) (shaBlock (8 * wb) r ks s (beNat (p.take (16 * wb))))

/-- The chaining words after a message; words of `wb` bytes. -/
def shaRun (wb : Nat) (r : ShaRot) (ks : List Nat) (init : Nat) (m : List Byte) : Nat :=
  shaChain wb r ks ((m.length + 1 + 2 * wb + 16 * wb - 1) / (16 * wb)) (shaPad wb m) init

/-- Round constants 0 to 19 of SHA-384 (FIPS 180-4). -/
def shaK0 : List Nat :=
  [0x428A2F98D728AE22, 0x7137449123EF65CD, 0xB5C0FBCFEC4D3B2F, 0xE9B5DBA58189DBBC,
   0x3956C25BF348B538, 0x59F111F1B605D019, 0x923F82A4AF194F9B, 0xAB1C5ED5DA6D8118,
   0xD807AA98A3030242, 0x12835B0145706FBE, 0x243185BE4EE4B28C, 0x550C7DC3D5FFB4E2,
   0x72BE5D74F27B896F, 0x80DEB1FE3B1696B1, 0x9BDC06A725C71235, 0xC19BF174CF692694,
   0xE49B69C19EF14AD2, 0xEFBE4786384F25E3, 0x0FC19DC68B8CD5B5, 0x240CA1CC77AC9C65]

/-- Round constants 20 to 39 of SHA-384 (FIPS 180-4). -/
def shaK1 : List Nat :=
  [0x2DE92C6F592B0275, 0x4A7484AA6EA6E483, 0x5CB0A9DCBD41FBD4, 0x76F988DA831153B5,
   0x983E5152EE66DFAB, 0xA831C66D2DB43210, 0xB00327C898FB213F, 0xBF597FC7BEEF0EE4,
   0xC6E00BF33DA88FC2, 0xD5A79147930AA725, 0x06CA6351E003826F, 0x142929670A0E6E70,
   0x27B70A8546D22FFC, 0x2E1B21385C26C926, 0x4D2C6DFC5AC42AED, 0x53380D139D95B3DF,
   0x650A73548BAF63DE, 0x766A0ABB3C77B2A8, 0x81C2C92E47EDAEE6, 0x92722C851482353B]

/-- Round constants 40 to 59 of SHA-384 (FIPS 180-4). -/
def shaK2 : List Nat :=
  [0xA2BFE8A14CF10364, 0xA81A664BBC423001, 0xC24B8B70D0F89791, 0xC76C51A30654BE30,
   0xD192E819D6EF5218, 0xD69906245565A910, 0xF40E35855771202A, 0x106AA07032BBD1B8,
   0x19A4C116B8D2D0C8, 0x1E376C085141AB53, 0x2748774CDF8EEB99, 0x34B0BCB5E19B48A8,
   0x391C0CB3C5C95A63, 0x4ED8AA4AE3418ACB, 0x5B9CCA4F7763E373, 0x682E6FF3D6B2B8A3,
   0x748F82EE5DEFB2FC, 0x78A5636F43172F60, 0x84C87814A1F0AB72, 0x8CC702081A6439EC]

/-- Round constants 60 to 79 of SHA-384 (FIPS 180-4). -/
def shaK3 : List Nat :=
  [0x90BEFFFA23631E28, 0xA4506CEBDE82BDE9, 0xBEF9A3F7B2C67915, 0xC67178F2E372532B,
   0xCA273ECEEA26619C, 0xD186B8C721C0C207, 0xEADA7DD6CDE0EB1E, 0xF57D4F7FEE6ED178,
   0x06F067AA72176FBA, 0x0A637DC5A2C898A6, 0x113F9804BEF90DAE, 0x1B710B35131C471B,
   0x28DB77F523047D84, 0x32CAAB7B40C72493, 0x3C9EBE0A15C9BEBC, 0x431D67C49C100D4C,
   0x4CC5D4BECB3E42B6, 0x597F299CFC657E2A, 0x5FCB6FAB3AD6FAEC, 0x6C44198C4A475817]

/-- The 80 round constants of SHA-384. -/
def shaK : List Nat := shaK0 ++ shaK1 ++ shaK2 ++ shaK3

/-- The 64 round constants of SHA-256: the high halves of the first 64 of SHA-384. -/
def shaK256 : List Nat := (shaK.take 64).map fun k => k >>> 32

/-- Rotations of SHA-256. -/
def sha256Rot : ShaRot := { big0 := (2, 13, 22), big1 := (6, 11, 25), sm0 := (7, 18, 3), sm1 := (17, 19, 10) }

/-- Rotations of SHA-384. -/
def sha384Rot : ShaRot := { big0 := (28, 34, 39), big1 := (14, 18, 41), sm0 := (1, 8, 7), sm1 := (19, 61, 6) }

/-- Initial words of SHA-256. -/
def sha256Init : Nat := 0x6A09E667BB67AE853C6EF372A54FF53A510E527F9B05688C1F83D9AB5BE0CD19

/-- Initial words of SHA-384. -/
def sha384Init : Nat :=
  0xCBBB9D5DC1059ED8629A292A367CD5079159015A3070DD17152FECD8F70E593967332667FFC00B318EB44A8768581511DB0C2E0D64F98FA747B5481DBEFA4FA4

/-- SHA-256 (R199, R301). -/
def sha256 (m : List Byte) : BitVec 256 := BitVec.ofNat 256 (shaRun 4 sha256Rot shaK256 sha256Init m)

/-- SHA-384 (R149, R301): six of the eight words. -/
def sha384 (m : List Byte) : BitVec 384 := BitVec.ofNat 384 (shaRun 8 sha384Rot shaK sha384Init m >>> 128)

end Sys2Proof.Machine
end

