-- ==== Sys2Proof/Machine/P384.lean ====
section
/-!
DEFINITION. The curve P-384 and what R149, R301, R305 and R307 (spec/07_data_key.md, spec/14_keys_and_trust.md) name of it:
public keys, ECDH, ECDSA with SHA-384 and its deterministic signatures, and the three-party key agreement. The curve and the
algorithms are those of their standards: SP 800-186, FIPS 186-5, RFC 6979 (PRESUMED, log entry 3).
-/
namespace Sys2Proof.Machine

/-- The prime of the field. -/
def p384P : Nat := 2 ^ 384 - 2 ^ 128 - 2 ^ 96 + 2 ^ 32 - 1

/-- The order of the base point. -/
def p384N : Nat := 0xFFFFFFFFFFFFFFFFFFFFFFFFFFFFFFFFFFFFFFFFFFFFFFFFC7634D81F4372DDF581A0DB248B0A77AECEC196ACCC52973

/-- The coefficient b of y² = x³ − 3x + b. -/
def p384B : Nat := 0xB3312FA7E23EE7E4988E056BE3F82D19181D9C6EFE8141120314088F5013875AC656398D8A2ED19D2A85C8EDD3EC2AEF

/-- x of the base point. -/
def p384Gx : Nat := 0xAA87CA22BE8B05378EB1C71EF320AD746E1D3B628BA79B9859F741E082542A385502F25DBF55296C3A545E3872760AB7

/-- y of the base point. -/
def p384Gy : Nat := 0x3617DE4A96262C6F5D9E98BF9292DC29F8F41DBD289A147CE9DA3113B5F0B8C00A60B1CE1D7E819D7A431D7C90EA0E5F

/-- `x ^ e` modulo m, over the lowest `k` bits of e. -/
def powMod (m : Nat) : Nat → Nat → Nat → Nat
  | 0, _, _ => 1 % m
  | k + 1, x, e =>
    let h := powMod m k (x * x % m) (e / 2)
    if e % 2 = 1 then h * x % m else h

/-- The inverse modulo a prime below 2^384. -/
def invMod (m x : Nat) : Nat := powMod m 384 x (m - 2)

/-- A point of the curve: none is the point at infinity. -/
abbrev Point := Option (Nat × Nat)

/-- The base point. -/
def p384G : Point := some (p384Gx, p384Gy)

/-- The opposite of a point. -/
def Point.neg : Point → Point
  | none => none
  | some (x, y) => some (x, (p384P - y) % p384P)

/-- A difference modulo the prime of the field. -/
def subP (x y : Nat) : Nat := (x + (p384P - y % p384P)) % p384P

/-- A point in Jacobian coordinates: x = X/Z², y = Y/Z³; Z is 0 at infinity. -/
structure Jac where
  x : Nat
  y : Nat
  z : Nat
  deriving DecidableEq, Repr

/-- The point at infinity. -/
def Jac.zero : Jac := { x := 1, y := 1, z := 0 }

/-- A point in Jacobian coordinates. -/
def Point.jac : Point → Jac
  | none => Jac.zero
  | some (x, y) => { x := x, y := y, z := 1 }

/-- The affine point. -/
def Jac.point (j : Jac) : Point :=
  if j.z = 0 then none
  else
    let i := invMod p384P j.z
    some (j.x * (i * i % p384P) % p384P, j.y * (i * i % p384P * i % p384P) % p384P)

/-- Twice a point, on a curve whose coefficient a is −3. -/
def Jac.dbl (j : Jac) : Jac :=
  if j.y = 0 then Jac.zero
  else
    let d := j.z * j.z % p384P
    let g := j.y * j.y % p384P
    let b := j.x * g % p384P
    let a := 3 * (subP j.x d * (j.x + d)) % p384P
    let x := subP (a * a) (8 * b)
    { x := x, y := subP (a * subP (4 * b) x) (8 * (g * g % p384P)), z := 2 * j.y * j.z % p384P }

/-- The sum of two points. -/
def Jac.add (j k : Jac) : Jac :=
  if j.z = 0 then k
  else if k.z = 0 then j
  else
    let zj := j.z * j.z % p384P
    let zk := k.z * k.z % p384P
    let u := j.x * zk % p384P
    let s := j.y * (k.z * zk % p384P) % p384P
    let h := subP (k.x * zj) u
    let r := subP (k.y * (j.z * zj % p384P)) s
    if h = 0 then (if r = 0 then j.dbl else Jac.zero)
    else
      let hh := h * h % p384P
      let v := u * hh % p384P
      let w := h * hh % p384P
      let x := subP (r * r) (w + 2 * v)
      { x := x, y := subP (r * subP v x) (s * w), z := j.z * k.z % p384P * h % p384P }

/-- A multiple of a point, over the lowest `k` bits of the factor. -/
def Jac.times : Nat → Nat → Jac → Jac
  | 0, _, _ => Jac.zero
  | k + 1, e, j =>
    let h := Jac.times k (e / 2) j.dbl
    if e % 2 = 1 then h.add j else h

/-- The sum of two points. -/
def Point.add (p q : Point) : Point := (p.jac.add q.jac).point

/-- A multiple of a point by a number below 2^384. -/
def Point.mul (q : Point) (e : Nat) : Point := (Jac.times 384 e q.jac).point

/-- The 97 bytes of an uncompressed point (R149); the point at infinity has none. -/
def Point.bytes : Point → List Byte
  | none => []
  | some (x, y) => 0x04 :: (toBe 48 x ++ toBe 48 y)

/-- The point that 97 bytes spell, if it lies on the curve. -/
def pointOf (b : List Byte) : Point :=
  let x := beAt b 1 48
  let y := beAt b 49 48
  if b.length = 97 ∧ byteAt b 0 = 4 ∧ x < p384P ∧ y < p384P ∧ y * y % p384P = (x * x * x + (p384P - 3) * x + p384B) % p384P
  then some (x, y) else none

/-- The private key formed from 448 random bits (R307): the extra-random-bits method of FIPS 186-5. -/
def privOf (seed : BitVec 448) : Nat := seed.toNat % (p384N - 1) + 1

/-- The public key of a seed's private key, uncompressed (R307). -/
def pubOf (seed : BitVec 448) : List Byte := (p384G.mul (privOf seed)).bytes

/-- The ECDH value of a seed's private key with a public key: the 48-byte X coordinate (R173). Bytes that are no point of the
curve have none. -/
def ecdh (seed : BitVec 448) (pub : List Byte) : List Byte :=
  match (pointOf pub).mul (privOf seed) with
  | none => []
  | some (x, _) => toBe 48 x

/-- The hash of a message as a number. -/
def hashNat (msg : List Byte) : Nat := (sha384 msg).toNat

/-- ECDSA verification of a signature r, s of 96 bytes by a public key (R149). -/
def ecdsaVerify (pub msg sig : List Byte) : Bool :=
  let r := beAt sig 0 48
  let s := beAt sig 48 48
  match pointOf pub with
  | none => false
  | some q =>
    let w := invMod p384N s
    sig.length == 96 && 0 < r && r < p384N && 0 < s && s < p384N &&
      (match (p384G.mul (hashNat msg * w % p384N)).add (Point.mul (some q) (r * w % p384N)) with
       | none => false
       | some (x, _) => x % p384N == r)

/-- HMAC with SHA-384, for a key of at most 128 bytes. -/
def hmac384 (key msg : List Byte) : List Byte :=
  let k := key ++ List.replicate (128 - key.length) 0
  bytesOf (sha384 (k.map (· ^^^ 0x5C) ++ bytesOf (sha384 (k.map (· ^^^ 0x36) ++ msg))))

/-- The signature with a nonce; none where r or s is 0. -/
def signWith (d h k : Nat) : Option (List Byte) :=
  match p384G.mul k with
  | none => none
  | some (x, _) =>
    let r := x % p384N
    let s := invMod p384N k * (h + r * d) % p384N
    if r = 0 ∨ s = 0 then none else some (toBe 48 r ++ toBe 48 s)

/-- The signature with the first of at most `n` deterministic nonces that gives one (RFC 6979). -/
def signFrom (d h : Nat) : Nat → List Byte → List Byte → List Byte
  | 0, _, _ => []
  | n + 1, k, v =>
    let v := hmac384 k v
    let t := beNat v
    match if 0 < t ∧ t < p384N then signWith d h t else none with
    | some sig => sig
    | none =>
      let k := hmac384 k (v ++ [0])
      signFrom d h n k (hmac384 k v)

/-- Deterministic ECDSA signature of a message by a seed's private key (R301): of the nonces of RFC 6979 the first 64, the
chance that all fail being below 2^-12000. -/
def ecdsaSign (seed : BitVec 448) (msg : List Byte) : List Byte :=
  let d := privOf seed
  let h := hashNat msg
  let b := toBe 48 d ++ toBe 48 (h % p384N)
  let v := List.replicate 48 (1 : Byte)
  let k := hmac384 (List.replicate 48 0) (v ++ [0] ++ b)
  let v := hmac384 k v
  let k := hmac384 k (v ++ [1] ++ b)
  signFrom d h 64 k (hmac384 k v)

/-- The second public value of a party in the three-party agreement (R305): its factor times the first value of the next party
less that of the previous one. -/
def bdValue (seed : BitVec 448) (next prev : List Byte) : List Byte :=
  (Point.mul ((pointOf next).add (pointOf prev).neg) (privOf seed)).bytes

/-- The secret that a party forms (R305): three times its factor times the previous party's first value, twice its own second
value and the next party's once; the X coordinate of the sum. -/
def agreeSecret (seed : BitVec 448) (prev own next : List Byte) : BitVec 384 :=
  match (((pointOf prev).mul (3 * privOf seed % p384N)).add ((pointOf own).mul 2)).add (pointOf next) with
  | none => 0
  | some (x, _) => BitVec.ofNat 384 x

end Sys2Proof.Machine
end

