-- ==== Sys2Proof/Machine/Flags.lean ====
section
/-!
DEFINITION. Conditions and plain arithmetic of node instructions (spec/04_node_programs.md R70, R80, R82, R83, R85,
R86), as functions of 16-bit plain values.
-/
namespace Sys2Proof.Machine

/-- A Boolean operand, 0 or 1 (R82). -/
def isBool (v : Half) : Bool := v == 0 || v == 1

/-- 1 when a condition holds, else 0 (R82). -/
def flag (b : Bool) : Half := if b then 1 else 0

/-- Condition codes of CMP and CMPI: EQ, NE, LT, GE, unsigned (R82). -/
def condHolds (fn : BitVec 2) (a b : Half) : Bool :=
  if fn = 0 then a == b else if fn = 1 then a != b else if fn = 2 then a.ult b else !a.ult b

/-- Conditions of EDG on the shadow and the current value: rise, fall, any (R83). -/
def edgeHolds (m : BitVec 2) (sh cur : Half) : Bool :=
  if m = 0 then cur.ult sh else if m = 1 then sh.ult cur else sh != cur

/-- Boolean AND, a · b (R80, R82). -/
def bAnd (a b : Half) : Half := a * b

/-- Boolean OR, a + b − a · b (R80, R82). -/
def bOr (a b : Half) : Half := a + b - a * b

/-- Boolean XOR, a + b − 2 · a · b (R82). -/
def bXor (a b : Half) : Half := a + b - 2 * a * b

/-- Boolean AND NOT, a − a · b (R80, R82). -/
def bAndn (a b : Half) : Half := a - a * b

/-- Selection, c · a + (1 − c) · b (R82). -/
def bSel (c a b : Half) : Half := c * a + (1 - c) * b

/-- min(a + b, 65,535) (R82). -/
def clampAdd (a b : Half) : Half := BitVec.ofNat 16 (min (a.toNat + b.toNat) 65535)

/-- max(a − b, 0) (R82). -/
def clampSub (a b : Half) : Half := BitVec.ofNat 16 (a.toNat - b.toNat)

/-- IMM[15:8] ≤ a ≤ IMM[7:0] (R82). -/
def inRange (imm a : Half) : Bool := (imm >>> 8).toNat ≤ a.toNat && a.toNat ≤ (imm &&& 0xFF).toNat

/-- A timer is running, v[15] (R85). -/
def tRunning (v : Half) : Bool := v.getLsbD 15

/-- Count of a timer, v[13:0] (R85). -/
def tCount (v : Half) : Half := v &&& 0x3FFF

/-- Unit of a timer, v[14]: true for 100 ms (R85). -/
def tUnit (v : Half) : Bool := v.getLsbD 14

/-- A timer is expired when it is running and its count is 0 (R85). -/
def tExpired (v : Half) : Bool := tRunning v && tCount v == 0

/-- Word of a started timer: running, unit, count k for cycles and k + 1 for 100 ms (R85, R86). -/
def tStarted (unit100 : Bool) (k : Half) : Half :=
  if unit100 then 0xC000 ||| ((k + 1) &&& 0x3FFF) else 0x8000 ||| (k &&& 0x3FFF)

/-- Largest value of a kind's domain (R70). -/
def kindMax (kind : BitVec 4) : Nat :=
  if kind = 0x1 then 255
  else if kind = 0x0 || kind = 0x4 || kind = 0x7 || kind = 0x8 then 1
  else 65535

/-- A value lies in its kind's domain (R70). -/
def inDomain (kind : BitVec 4) (v : Half) : Bool := v.toNat ≤ kindMax kind

/-- FIELD-IN, LOCAL-IN, HOST-CMD and BORDER-IN (R70). -/
def isInputKind (kind : BitVec 4) : Bool := kind = 5 || kind = 7 || kind = 9 || kind = 10

/-- FIELD-OUT, LOCAL-OUT and BORDER-OUT (R70). -/
def isOutputKind (kind : BitVec 4) : Bool := kind = 6 || kind = 8 || kind = 11

/-- The input kind that may use UNPK in a context (R70, R91). -/
def ctxKind (ck : BitVec 2) : BitVec 4 := if ck = 0 then 5 else if ck = 1 then 10 else if ck = 2 then 7 else 9

/-- A field of `w` bits at bit `b` of its first half-word, which with the next forms a 32-bit window (R90). -/
def fieldGet (h0 h1 : Half) (b w : Nat) (e : Bool) : Half :=
  let both : Word := h0 ++ h1
  let v := (both >>> (32 - b - w)).setWidth 16 &&& (BitVec.allOnes 16 >>> (16 - w))
  if e then v.extractLsb' 0 8 ++ v.extractLsb' 8 8 else v

/-- The two half-words with a field replaced (R90, R93). -/
def fieldPut (h0 h1 : Half) (b w : Nat) (e : Bool) (v : Half) : Half × Half :=
  let x : Half := if e then v.extractLsb' 0 8 ++ v.extractLsb' 8 8 else v
  let mask : Word := ((BitVec.allOnes 16 >>> (16 - w)).setWidth 32) <<< (32 - b - w)
  let both : Word := ((h0 ++ h1) &&& ~~~mask) ||| (((x.setWidth 32) <<< (32 - b - w)) &&& mask)
  (both.extractLsb' 16 16, both.extractLsb' 0 16)

end Sys2Proof.Machine
end

