-- ==== Sys2Proof/Machine/Operands.lean ====
section
/-!
DEFINITION. The coded word (spec/03_coded_state.md R49 to R54), signatures (R51), register terms
(spec/04_node_programs.md R73), and how a seat reads registers, node words, timers and buffer half-words, with the
node fault that a failed read raises (R80, R86, R89, R90, R100, R102).
-/
namespace Sys2Proof.Machine
open Config

/-- D(m) = m · Q_lane mod 2^64 (R49). -/
def dTerm (slot : BitVec 2) (m : Cycle) : Coded := m.setWidth 64 * qOf slot

/-- The coded word of value `v` with signature `sig` and cycle number `m` (R49). -/
def encode (slot : BitVec 2) (v : Half) (sig : Coded) (m : Cycle) : Coded :=
  v.setWidth 64 * kOf slot + sig + dTerm slot m

/-- The value that a coded word decodes to under `sig` and `m`, if it is valid (R49). -/
def decode (slot : BitVec 2) (c sig : Coded) (m : Cycle) : Option Half :=
  let u := (c - sig - dTerm slot m) * kInvOf slot
  if u.toNat < 2 ^ 16 then some (u.setWidth 16) else none

/-- Signature of a node by its tag (R51). -/
def sigNode (tag : Word) : Coded := (crc32c (toLe 4 tag.toNat)).setWidth 64

/-- Signature of payload half-word `k` of pseudo-position `p`; last byte 0x49 inbound, 0x4F outbound (R51, R89). -/
def sigHalf (last : Byte) (p k : Nat) : Coded := (crc32c (toLe 2 p ++ [BitVec.ofNat 8 k, last])).setWidth 64

/-- Signature of a timer by its handle (R51). -/
def sigTimer (h : Nat) : Coded := (crc32c (toLe 2 h ++ [0, 0x54])).setWidth 64

/-- G(r) = r · 2^40 (R73). -/
def gTerm (r : BitVec 4) : Coded := r.setWidth 64 <<< 40

/-- Key of a buffer half-word: pseudo-position p and k mod 256, the bytes its signature is formed from (R51, R89). -/
def bufKey (p k : Nat) : Nat := p * 256 + k % 256

/-- Pseudo-position of half-word `k` of a context (R89). -/
def ctxPos (ck : BitVec 2) (index k : Nat) : Nat :=
  if ck = 0 then index else if ck = 1 then 0x1000 + 16 * index + k / 256 else if ck = 2 then 0x2000
  else 0x3000 + k / 256

/-- Key of half-word `k` of a context. -/
def ctxKey (ck : BitVec 2) (index k : Nat) : Nat := bufKey (ctxPos ck index k) k

/-- Signature of the half-word at a buffer key. -/
def sigKey (last : Byte) (key : Nat) : Coded := sigHalf last (key / 256) (key % 256)

/-- Last signature byte of inbound half-words (R51). -/
def inByte : Byte := 0x49

/-- Last signature byte of outbound half-words (R51). -/
def outByte : Byte := 0x4F

/-- Kind code of a directory entry (R140). -/
def NodeEntry.kind (e : NodeEntry) : BitVec 4 := e.khc.extractLsb' 0 4

/-- Hand of a directory entry (R140). -/
def NodeEntry.hand (e : NodeEntry) : Nat := (e.khc.extractLsb' 4 3).toNat

/-- CARRY of a directory entry (R140). -/
def NodeEntry.carry (e : NodeEntry) : Bool := e.khc.getLsbD 7

/-- Bytes of a directory entry before its CRC (R140). -/
def NodeEntry.body (e : NodeEntry) : List Byte :=
  toLe 4 e.tag.toNat ++ toLe 2 e.rval.toNat ++ [e.khc, e.z] ++ toLe 4 e.pstart.toNat ++ toLe 2 e.plen.toNat ++
    toLe 2 e.aux.toNat

/-- The directory entry's check holds (R63, R135). -/
def NodeEntry.sound (e : NodeEntry) (i : Nat) : Bool := entryCrc e.body i == e.crc

/-- A table entry of `size` bytes, its CRC last, holds the check of R135 at its index. -/
def entrySound (sec : List Byte) (base size i : Nat) : Bool :=
  entryCrc (slice sec (base + size * i) (size - 4)) i == BitVec.ofNat 32 (leAt sec (base + size * i + size - 4) 4)

/-- A table of the image: its section, where its entries begin in it, and the size of an entry (R138 to R148). -/
structure Table where
  sec  : Nat
  base : Nat
  size : Nat
  deriving DecidableEq, Repr

/-- The node directory (R140). -/
def dirTable : Table := { sec := 1, base := 0, size := 20 }

/-- The reader blocks (R142). -/
def readerTable : Table := { sec := 3, base := 0, size := 32 }

/-- The successor blocks (R142). -/
def succTable (img : Image) : Table := { sec := 3, base := 32 * img.hdr.readers, size := 32 }

/-- The network record (R143). -/
def netTable : Table := { sec := 4, base := 0, size := 64 }

/-- The station records (R143). -/
def stationTable : Table := { sec := 4, base := 64, size := 48 }

/-- The channel records (R143). -/
def channelTable (img : Image) : Table := { sec := 4, base := 64 + 48 * img.hdr.stations, size := 16 }

/-- The restrictive payload records (R143). -/
def restrTable (img : Image) : Table := { sec := 4, base := 64 + 48 * img.hdr.stations + 16 * img.hdr.channels, size := 260 }

/-- The local input records (R144). -/
def localInTable : Table := { sec := 5, base := 0, size := 12 }

/-- The local output group records (R144). -/
def localGrpTable : Table := { sec := 5, base := 384, size := 16 }

/-- The neighbour records (R145). -/
def nbTable : Table := { sec := 6, base := 0, size := 32 }

/-- The out-slot records (R145). -/
def outTable : Table := { sec := 6, base := 256, size := 12 }

/-- The partner and ring parameters (R146). -/
def paramTable : Table := { sec := 7, base := 0, size := 64 }

/-- The forcing policy records (R147). -/
def policyTable : Table := { sec := 8, base := 0, size := 12 }

/-- The recorder record (R148). -/
def recorderTable : Table := { sec := 9, base := 0, size := 16 }

/-- A poisoned word lies in the `size` bytes at offset `o` of a section (R60). -/
def Image.poisoned (img : Image) (sec o size : Nat) : Bool := img.bad.any fun p => p.1 == sec && o ≤ p.2 && p.2 < o + size

/-- A word of a table entry is poisoned. -/
def Image.entryBad (img : Image) (t : Table) (i : Nat) : Bool := img.poisoned t.sec (t.base + t.size * i) t.size

/-- A table entry is delivered whole and holds its check (R60, R63). -/
def Image.tableSound (img : Image) (t : Table) (i : Nat) : Bool :=
  !img.entryBad t i && entrySound (img.sections.getD t.sec []) t.base t.size i

/-- The directory entry of a node is delivered whole and holds its check (R60, R63). -/
def nodeSound (img : Image) (i : Nat) (e : NodeEntry) : Bool := !img.entryBad dirTable i && e.sound i

/-- The first of the entries given that is wrong. -/
def Image.wrongOf (img : Image) (rs : List (Table × Nat)) : Option (Table × Nat) :=
  rs.find? fun r => !img.tableSound r.1 r.2

/-- The map entries that a node's window rests on (R63): channel and restrictive payload, or out-slot record. -/
def windowRefs (img : Image) (e : NodeEntry) : List (Table × Nat) :=
  if e.kind = 6 then
    (channelTable img, e.aux.toNat) ::
      (match img.channels[e.aux.toNat]? with
       | none => []
       | some c => [(restrTable img, c.stn.toNat)])
  else if e.kind = 11 then [(outTable, e.aux.toNat)] else []

/-- The map entries that a node's window rests on hold their checks (R63). -/
def windowSound (img : Image) (e : NodeEntry) : Bool := (img.wrongOf (windowRefs img e)).isNone

/-- Half-words of an inbound buffer of a context (R89, R143, R145). -/
def inHalves (img : Image) (ck : BitVec 2) (index : Nat) : Nat :=
  if ck = 0 then ((img.stations[index]?).map fun r => (r.stLen.toNat + 1) / 2).getD 0
  else if ck = 1 then ((img.nbs[index]?).map fun r => r.inCount.toNat).getD 0
  else if ck = 2 then 32 else 4096

/-- Half-words of an outbound buffer of a context; the host context has none (R89). -/
def outHalves (img : Image) (ck : BitVec 2) (index : Nat) : Nat :=
  if ck = 0 then ((img.stations[index]?).map fun r => (r.cmdLen.toNat + 1) / 2).getD 0
  else if ck = 1 then ((img.nbs[index]?).map fun r => r.outCount.toNat).getD 0
  else if ck = 2 then 32 else 0

/-- Window of an output-kind node: context, INDEX, first bit and length (R70, R93, R140). -/
structure Window where
  ck    : BitVec 2
  index : Nat
  off   : Nat
  len   : Nat
  deriving DecidableEq, Repr

/-- The window that a node's auxiliary field names (R140, R143, R145). -/
def windowOf (img : Image) (e : NodeEntry) : Option Window :=
  if e.kind = 6 then
    (img.channels[e.aux.toNat]?).map fun c =>
      { ck := 0, index := c.stn.toNat, off := c.bitOff.toNat, len := c.bitLen.toNat }
  else if e.kind = 8 then some { ck := 2, index := 0, off := 16 * e.aux.toNat, len := 16 }
  else if e.kind = 11 then
    (img.outs[e.aux.toNat]?).map fun o => { ck := 1, index := o.q.toNat, off := 16 * o.slot.toNat, len := 16 }
  else none

/-- What a node instruction is executed in: lane, slot of its constants, running cycle, image, node index and entry,
seat, whether the seat is settling, and whether P5 runs. -/
structure Eval where
  lane   : Lane
  slot   : BitVec 2
  n      : Cycle
  img    : Image
  i      : Nat
  ent    : NodeEntry
  seat   : SeatState
  settle : Bool
  p5     : Bool
  deriving DecidableEq, Repr

/-- What a node instruction does when it retires (R76). -/
inductive Eff where
  /-- writes a register -/
  | reg (d : BitVec 4) (v : Half)
  /-- writes a register with a coded result of the L-class -/
  | regWord (d : BitVec 4) (v : Half) (c : Coded)
  /-- writes a register and sets the substitution latch (R91) -/
  | regSubst (d : BitVec 4) (v : Half)
  /-- retires the node's value (R81) -/
  | retire (v : Half) (c : Coded)
  /-- queues a timer operation (R87) -/
  | timer (t : TimerOp)
  /-- puts a context in force (R89) -/
  | ctx (c : Ctx)
  /-- writes outbound half-words (R93) -/
  | packed (ws : List (Nat × Coded))
  /-- changes the check-value unit, with the bytes fed (R95) -/
  | cvu (u : Cvu) (fed : Nat)
  /-- writes a register from CCMP, with V and the outcome (R96) -/
  | compare (d : BitVec 4) (ok v : Bool)
  /-- goes on at an entry offset (R97) -/
  | jump (off : Nat)
  /-- ends the node (R97) -/
  | done
  deriving DecidableEq, Repr

/-- The effect retires the node's value. -/
def Eff.retires : Eff → Bool
  | .retire _ _ => true
  | _ => false

/-- What an instruction comes to: a node fault with the site of a code check and the kind of a CVU fault, a table
check failure at an entry (R63), a wait (R106), or its effect; with the single-bit and double-bit errors met (R60). -/
inductive Res where
  | fault (code site kind : BitVec 4)
  | table (index : Nat)
  | wait
  | eff (e : Eff)
  deriving DecidableEq, Repr

/-- A result with its ECC counts. -/
structure ResE where
  res    : Res
  corr   : Nat
  uncorr : Nat
  deriving DecidableEq, Repr

/-- An effect with no ECC event. -/
def ResE.ok (e : Eff) : ResE := { res := .eff e, corr := 0, uncorr := 0 }

/-- A node fault with no ECC event. -/
def ResE.nf (code : BitVec 4) : ResE := { res := .fault code 0 0, corr := 0, uncorr := 0 }

/-- A code check fault at a site of SEAT_CODE_LAST (R68). -/
def ResE.code (site : BitVec 4) : ResE := { res := .fault 1 site 0, corr := 0, uncorr := 0 }

/-- Adds the double-bit errors of poisoned DRAM words read (R60). -/
def ResE.withBad (r : ResE) (n : Nat) : ResE := { r with uncorr := r.uncorr + n }

/-- Raises a node fault when a condition holds, else goes on. -/
def failIf (bad : Bool) (code : BitVec 4) (k : ResE) : ResE := if bad then .nf code else k

/-- Stage 2 faults of R102 in the order of R100: reserved encoding, an out-of-range operand that accompanies a kind
violation (R100), kind violation, length. -/
def stage2 (c : Eval) (reserved kindBad outOfRange isEnd : Bool) (k : ResE) : ResE :=
  failIf reserved 8 <| failIf (kindBad && outOfRange) 4 <| failIf kindBad 9 <|
    failIf (!isEnd && c.seat.off + 1 == c.ent.plen.toNat) 0xE k

/-- The value of a working register under its term and D(n), if its word passes (R73). -/
def regValue (c : Eval) (r : BitVec 4) : Option Half := decode c.slot (c.seat.regs[r.toNat]).word (gTerm r) c.n

/-- The full bit of a register (R73). -/
def regFull (c : Eval) (r : BitVec 4) : Bool := (c.seat.regs[r.toNat]).full

/-- A full register whose word fails its check. -/
def regBad (c : Eval) (r : BitVec 4) : Bool := regFull c r && (regValue c r).isNone

/-- Reads the registers of a D-class instruction: a failing word (0x1) before an empty register (0xA) (R75, R100). -/
def withRegs (c : Eval) (rs : List (BitVec 4)) (k : ResE) : ResE :=
  if rs.any (regBad c) then .code 1 else failIf (rs.any fun r => !regFull c r) 0xA k

/-- The plain value of a register that has been checked. -/
def regVal (c : Eval) (r : BitVec 4) : Half := (regValue c r).getD 0

/-- Physical bank of bank C, S or P (R55, R80). -/
def bankOf (t : Store) (m : BitVec 2) : Fin 3 := if m = 0 then t.cur else if m = 1 then t.cur + 1 else t.cur + 2

/-- Bank cycle number of bank C, S or P (R52). -/
def bcnOf (t : Store) (n : Cycle) (m : BitVec 2) : Cycle := if m = 0 then t.bcnCur else if m = 1 then n else t.bcnPrev

/-- The stored word of node `j` in bank C, S or P. -/
def bankWord (t : Store) (m : BitVec 2) (j : Nat) : MemWord := Mem.get MemWord.zero t.phys[bankOf t m] j

/-- Signature of node `j` (R51). -/
def sigOf (img : Image) (j : Nat) : Coded := ((img.nodes[j]?).map fun e => sigNode e.tag).getD 0

/-- Whether node `j` is readable in bank S (R106). With the cone walk complete at the start of P5, F = N. A node that a node
fault abandoned never becomes readable, so that its reader waits until the boundary, the model's choice (log entry 101). -/
def readable (c : Eval) (j : Nat) : Bool :=
  if c.p5 then !Mem.get false c.lane.store.dirty j || Mem.get false c.lane.store.redone j
  else Mem.get false c.lane.store.bitmap j

/-- The value that node `j` decodes to in a bank, if its word passes; a poisoned word never does (R52, R60). -/
def nodeValue (c : Eval) (m : BitVec 2) (j : Nat) : Option Half :=
  let w := bankWord c.lane.store m j
  if w.ecc = .double then none else decode c.slot w.word (sigOf c.img j) (bcnOf c.lane.store c.n m)

/-- Adds the ECC events of reading node `j` (R60). -/
def withEcc (c : Eval) (m : BitVec 2) (j : Nat) (r : ResE) : ResE :=
  match (bankWord c.lane.store m j).ecc with
  | .ok => r
  | .single => { r with corr := r.corr + 1 }
  | .double => { r with uncorr := r.uncorr + 1 }

/-- Out-of-range operand of R80: `j` not below N, or in bank S not below the node's own index. -/
def outOfRange (c : Eval) (m : BitVec 2) (j : Nat) : Bool := c.img.hdr.nodes ≤ j || (m == 1 && c.i ≤ j)

/-- Kind violation of R80: bank P outside EDGE and STATE nodes; own index with bank C or P outside STATE nodes. -/
def bankKindBad (c : Eval) (m : BitVec 2) (j : Nat) : Bool :=
  (m == 2 && c.ent.kind != 4 && c.ent.kind != 12) || (m != 1 && j == c.i && c.ent.kind != 12)

/-- The cell is an inbound half-word of P1. -/
def cellP1 : DramCell → Bool
  | .inP1 _ => true
  | _ => false

/-- The cell is an inbound half-word of P5. -/
def cellP5 : DramCell → Bool
  | .inP5 _ => true
  | _ => false

/-- The cell is an outbound half-word. -/
def cellOut : DramCell → Bool
  | .out _ => true
  | _ => false

/-- The cell is a timer word. -/
def cellTimer : DramCell → Bool
  | .timer _ => true
  | _ => false

/-- An inbound half-word of P5 as it becomes one of P1 (R92). -/
def cellTurned : DramCell → Option DramCell
  | .inP5 k => some (.inP1 k)
  | _ => none

/-- The poisoned words of some kinds are written anew. -/
def Store.healAll (t : Store) (p : DramCell → Bool) : Store := { t with poison := t.poison.filter fun c => !p c }

/-- A half-word of a buffer or a timer word is poisoned (R60). -/
def Store.poisoned (t : Store) (c : DramCell) : Bool := t.poison.contains c

/-- A word is written anew: it is no longer poisoned. -/
def Store.heal (t : Store) (c : DramCell) : Store := { t with poison := t.poison.filter (· != c) }

/-- Timer word `h`, if it passes; a poisoned one never does (R60, R63, R85). -/
def timerValue (c : Eval) (h : Nat) : Option Half :=
  if c.lane.store.poisoned (.timer h) then none
  else decode c.slot (Mem.get 0 c.lane.store.timers h) (sigTimer h) c.n

/-- Timer-handle fault for a read (R86). -/
def handleBad (c : Eval) (h : Nat) : Bool := 65536 ≤ h || c.img.hdr.timers ≤ h

/-- Inbound half-word at a key, as presented in this phase (R92). -/
def inWord (c : Eval) (key : Nat) : Coded :=
  if c.p5 then Mem.get 0 c.lane.store.inP5 key else Mem.get 0 c.lane.store.inP1 key

/-- SUBST mark of an inbound half-word in this phase (R91, R92). -/
def inSubst (c : Eval) (key : Nat) : Bool :=
  if c.p5 then Mem.get false c.lane.store.subP5 key else Mem.get false c.lane.store.subP1 key

/-- An inbound half-word is poisoned in this phase (R60). -/
def inBad (c : Eval) (key : Nat) : Bool := c.lane.store.poisoned (if c.p5 then .inP5 key else .inP1 key)

/-- Value of an inbound half-word, if it passes (R57, R60, R62). -/
def inValue (c : Eval) (key : Nat) : Option Half :=
  if inBad c key then none else decode c.slot (inWord c key) (sigKey inByte key) c.n

/-- Outbound half-word at a key, as this seat sees it: a settling seat's own writes stand aside (R111). -/
def outWord (c : Eval) (key : Nat) : Coded :=
  let base := Mem.get 0 c.lane.store.out key
  if c.settle then (Mem.get none c.lane.rot.outs key).getD base else base

/-- An outbound half-word is poisoned, as this seat sees it (R60, R111). -/
def outBad (c : Eval) (key : Nat) : Bool :=
  c.lane.store.poisoned (.out key) && !(c.settle && (Mem.get none c.lane.rot.outs key).isSome)

/-- Value of an outbound half-word, if it passes (R57, R60). -/
def outValue (c : Eval) (key : Nat) : Option Half :=
  if outBad c key then none else decode c.slot (outWord c key) (sigKey outByte key) c.n

/-- How many of the half-words that a field touches are poisoned. -/
def badWords (bad : Nat → Bool) (k0 k1 : Nat) : Nat := (bad k0).toNat + (if k0 = k1 then 0 else (bad k1).toNat)

/-- First half-word of a field at bit offset `b` (R90). -/
def fieldFirst (b : Nat) : Nat := b / 16

/-- Last half-word that a field of `w` bits at `b` touches (R90). -/
def fieldLast (b w : Nat) : Nat := (b + w - 1) / 16

/-- Context fault of R90: E = 1 with a misaligned or narrow field, or a field beyond the buffer. -/
def fieldBad (f : FmtF) (halves : Nat) : Bool :=
  let w := f.wid.toNat + 1
  (f.e == 1 && (f.off.toNat % 8 != 0 || w != 16)) || halves ≤ fieldLast f.off.toNat w

end Sys2Proof.Machine
end

