-- ==== Sys2Proof/Machine/NodeEval.lean ====
section
/-!
DEFINITION. What each node instruction comes to, as a function of the evaluation it belongs to
(spec/04_node_programs.md R80 to R97, spec/06_check_value_units.md R123 to R129). Faults are judged in the order of
R100 and R102.
-/
namespace Sys2Proof.Machine
open Config

/-- The rules of R80 for a node operand `j` in bank `m`, then the wait of R106, then `k`. `own` lists faults of the
register operands that go before, `kindBad` a kind violation of the instruction itself. -/
def withNode (c : Eval) (m : BitVec 2) (j : Nat) (bad : Bool) (k : ResE) : ResE :=
  if bad then .code 1
  else failIf (outOfRange c m j) 4 <|
    if m == 1 && !readable c j then { res := .wait, corr := 0, uncorr := 0 } else k

/-- LD (R80): the node's word re-coded for the register, L-class. -/
def evalLd (c : Eval) (f : FmtN) : ResE :=
  let j := f.idx.toNat
  stage2 c (f.m == 3) (bankKindBad c f.m j) (outOfRange c f.m j) false <|
    withNode c f.m j false <|
      withEcc c f.m j <|
        match nodeValue c f.m j with
        | none => .code 1
        | some v =>
          .ok (.regWord f.w v ((bankWord c.lane.store f.m j).word - sigOf c.img j
            - dTerm c.slot (bcnOf c.lane.store c.n f.m) + gTerm f.w + dTerm c.slot c.n))

/-- ST (R81). -/
def evalSt (c : Eval) (f : FmtN) : ResE :=
  let s := sigOf c.img c.i
  stage2 c (f.m != 1) false false false <|
    failIf (f.idx.toNat != c.i) 4 <|
      failIf (!regFull c f.w) 0xA <|
        if c.seat.latch then
          failIf c.seat.stored 0xB (.ok (.retire c.ent.rval (encode c.slot c.ent.rval s c.n)))
        else match regValue c f.w with
          | none => .code 2
          | some v =>
            failIf (!inDomain c.ent.kind v) 5 <|
              failIf c.seat.stored 0xB (.ok (.retire v ((c.seat.regs[f.w.toNat]).word - gTerm f.w + s)))

/-- AND.N, OR.N and ANDN.N (R80), `op` their arithmetic form. -/
def evalBoolNode (op : Half → Half → Half) (c : Eval) (f : FmtN) : ResE :=
  let j := f.idx.toNat
  stage2 c (f.m == 3) (bankKindBad c f.m j) (outOfRange c f.m j) false <|
    withNode c f.m j (regBad c f.w) <|
      withEcc c f.m j <|
        match nodeValue c f.m j with
        | none => .code 1
        | some b =>
          withRegs c [f.w] <|
            failIf (!isBool (regVal c f.w) || !isBool b) 5 <| .ok (.reg f.w (op (regVal c f.w) b))

/-- SUBR (R80): the restrictive value from the checked directory entry. -/
def evalSubr (c : Eval) (f : FmtN) : ResE :=
  stage2 c (f.m != 0) false false false <|
    match c.img.nodes[f.idx.toNat]? with
    | none => .nf 4
    | some e =>
      failIf (c.img.hdr.nodes ≤ f.idx.toNat) 4 <|
        if nodeSound c.img f.idx.toNat e then .ok (.reg f.w e.rval)
        else { res := .table f.idx.toNat, corr := 0, uncorr := 0 }

/-- EDG (R83). -/
def evalEdg (c : Eval) (f : FmtN) : ResE :=
  let j := f.idx.toNat
  stage2 c (f.m == 3) (c.ent.kind != 4) (outOfRange c 1 j) false <|
    withNode c 1 j false <|
      withEcc c 1 j <| withEcc c 0 j <|
        match nodeValue c 1 j, nodeValue c 0 j with
        | some s, some v =>
          .ok (.reg f.w (if Mem.get false c.lane.store.blank j then c.ent.rval else flag (edgeHolds f.m s v)))
        | _, _ => .code 1

/-- Kind and handle rules of TSTART and TSTOP (R70, R86). -/
def withOwnTimer (c : Eval) (reserved : Bool) (h : Nat) (bad : Bool) (k : ResE) : ResE :=
  stage2 c reserved (c.ent.kind != 3) false false <|
    if bad then .code 1 else failIf (handleBad c h || h != c.ent.aux.toNat) 6 k

/-- TSTART (R86): op 1 starts in cycles, op 2 in 100 ms (R198). -/
def evalTstart (c : Eval) (f : FmtN) : ResE :=
  let k := regVal c f.w
  withOwnTimer c (f.m.getLsbD 1) f.idx.toNat (regBad c f.w) <|
    withRegs c [f.w] <|
      failIf (k.toNat == 0 || 16382 < k.toNat) 5 <|
        .ok (.timer { h := f.idx.toNat, op := if f.m.getLsbD 0 then 2 else 1, k := k })

/-- TSTOP (R86): op 3 (R198). -/
def evalTstop (c : Eval) (f : FmtN) : ResE :=
  withOwnTimer c (f.m != 0 || f.w != 0) f.idx.toNat false <|
    .ok (.timer { h := f.idx.toNat, op := 3, k := 0 })

/-- TQRY, TEXP and TRUN (R86), `g` what they take from the timer's value. -/
def evalTimerRead (g : Half → Half) (c : Eval) (f : FmtN) : ResE :=
  stage2 c (f.m != 0) false false false <|
    failIf (handleBad c f.idx.toNat) 6 <|
      (match timerValue c f.idx.toNat with
       | none => ResE.code 1
       | some v => .ok (.reg f.w (g v))).withBad (c.lane.store.poisoned (.timer f.idx.toNat)).toNat

/-- Reserved fields of format G (R78): those not used by the instruction, [9:2], and FN unless it is used. -/
def resG (f : FmtG) (useD useA useB useC useFn : Bool) : Bool :=
  !((useD || f.wd == 0) && (useA || f.wa == 0) && (useB || f.wb == 0) && (useC || f.wc == 0) && f.z == 0 &&
    (useFn || f.fn == 0))

/-- MOV (R82), L-class. -/
def evalMov (c : Eval) (f : FmtG) : ResE :=
  stage2 c (resG f true true false false false) false false false <|
    failIf (!regFull c f.wa) 0xA <|
      match regValue c f.wa with
      | none => .code 2
      | some v => .ok (.regWord f.wd v ((c.seat.regs[f.wa.toNat]).word - gTerm f.wa + gTerm f.wd))

/-- NOT (R82), L-class. -/
def evalNot (c : Eval) (f : FmtG) : ResE :=
  stage2 c (resG f true true false false false) false false false <|
    failIf (!regFull c f.wa) 0xA <|
      match regValue c f.wa with
      | none => .code 2
      | some v =>
        failIf (!isBool v) 5 <|
          .ok (.regWord f.wd (1 - v) (kOf c.slot - (c.seat.regs[f.wa.toNat]).word + 2 * dTerm c.slot c.n
            + gTerm f.wa + gTerm f.wd))

/-- AND, OR, XOR and ANDN (R82), `op` their arithmetic form. -/
def evalBool (op : Half → Half → Half) (c : Eval) (f : FmtG) : ResE :=
  stage2 c (resG f true true true false false) false false false <|
    withRegs c [f.wa, f.wb] <|
      failIf (!isBool (regVal c f.wa) || !isBool (regVal c f.wb)) 5 <|
        .ok (.reg f.wd (op (regVal c f.wa) (regVal c f.wb)))

/-- SEL (R82). -/
def evalSel (c : Eval) (f : FmtG) : ResE :=
  stage2 c (resG f true true true true false) false false false <|
    withRegs c [f.wa, f.wb, f.wc] <|
      failIf (!isBool (regVal c f.wc)) 5 <|
        .ok (.reg f.wd (bSel (regVal c f.wc) (regVal c f.wa) (regVal c f.wb)))

/-- CMP (R82). -/
def evalCmp (c : Eval) (f : FmtG) : ResE :=
  stage2 c (resG f true true true false true) false false false <|
    withRegs c [f.wa, f.wb] <| .ok (.reg f.wd (flag (condHolds f.fn (regVal c f.wa) (regVal c f.wb))))

/-- CADD and CSUB (R82), `op` their clamped form. -/
def evalArith (op : Half → Half → Half) (c : Eval) (f : FmtG) : ResE :=
  stage2 c (resG f true true true false false) false false false <|
    withRegs c [f.wa, f.wb] <| .ok (.reg f.wd (op (regVal c f.wa) (regVal c f.wb)))

/-- LDI (R82). -/
def evalLdi (c : Eval) (f : FmtI) : ResE :=
  stage2 c (f.wa != 0 || f.fn != 0) false false false <| .ok (.reg f.wd f.imm)

/-- CMPI (R82). -/
def evalCmpi (c : Eval) (f : FmtI) : ResE :=
  stage2 c false false false false <|
    withRegs c [f.wa] <| .ok (.reg f.wd (flag (condHolds f.fn (regVal c f.wa) f.imm)))

/-- CADDI and CSUBI (R82). -/
def evalArithImm (op : Half → Half → Half) (c : Eval) (f : FmtI) : ResE :=
  stage2 c (f.fn != 0) false false false <| withRegs c [f.wa] <| .ok (.reg f.wd (op (regVal c f.wa) f.imm))

/-- MTCH (R82): its operand is an enumeration, 0 to 255. -/
def evalMtch (c : Eval) (f : FmtI) : ResE :=
  stage2 c (f.fn != 0) false false false <|
    withRegs c [f.wa] <|
      failIf (255 < (regVal c f.wa).toNat) 5 <| .ok (.reg f.wd (flag (inRange f.imm (regVal c f.wa))))

/-- INDEX in the range of a context (R89). -/
def ctxOk (img : Image) (ck : BitVec 2) (index : Nat) : Bool :=
  if ck = 0 then index < img.hdr.stations
  else if ck = 1 then index < 8 && ((img.nbs[index]?).map fun r => r.used.getLsbD 0).getD false
  else index == 0

/-- STN (R89). -/
def evalStn (c : Eval) (f : FmtC) : ResE :=
  stage2 c (f.z != 0) false false false <|
    failIf (!ctxOk c.img f.ck f.index.toNat) 0xC (.ok (.ctx { ck := f.ck, index := f.index.toNat }))

/-- Value of a field of one or two half-words read by `rd` (R90). -/
def fieldValue (rd : Nat → Option Half) (ck : BitVec 2) (index : Nat) (f : FmtF) : Option Half :=
  let b := f.off.toNat
  let w := f.wid.toNat + 1
  let k0 := fieldFirst b
  let k1 := fieldLast b w
  match rd (ctxKey ck index k0), rd (ctxKey ck index k1) with
  | some h0, some h1 => some (fieldGet h0 h1 (b % 16) w (f.e == 1))
  | _, _ => none

/-- A half-word that the field touches carries mark SUBST (R91). -/
def fieldSubst (c : Eval) (ck : BitVec 2) (index : Nat) (f : FmtF) : Bool :=
  let w := f.wid.toNat + 1
  inSubst c (ctxKey ck index (fieldFirst f.off.toNat)) || inSubst c (ctxKey ck index (fieldLast f.off.toNat w))

/-- Keys of the first and the last half-word that a field touches in a context (R90). -/
def fieldKeys (x : Ctx) (f : FmtF) : Nat × Nat :=
  (ctxKey x.ck x.index (fieldFirst f.off.toNat), ctxKey x.ck x.index (fieldLast f.off.toNat (f.wid.toNat + 1)))

/-- A half-word that a field touches in a buffer of `n` half-words fails its check (R57, R100). -/
def fieldFails (rd : Nat → Option Half) (n : Nat) (x : Ctx) (f : FmtF) : Bool :=
  (fieldFirst f.off.toNat < n && (rd (fieldKeys x f).1).isNone) ||
    (fieldLast f.off.toNat (f.wid.toNat + 1) < n && (rd (fieldKeys x f).2).isNone)

/-- Poisoned half-words among those that a field touches in a buffer of `n` half-words (R60). -/
def fieldPoison (bad : Nat → Bool) (n : Nat) (x : Ctx) (f : FmtF) : Nat :=
  if fieldLast f.off.toNat (f.wid.toNat + 1) < n then badWords bad (fieldKeys x f).1 (fieldKeys x f).2
  else (fieldFirst f.off.toNat < n && bad (fieldKeys x f).1).toNat

/-- UNPK (R91). -/
def evalUnpk (c : Eval) (f : FmtF) : ResE :=
  let mismatch := match c.seat.ctx with
    | none => false
    | some x => ctxKind x.ck != c.ent.kind
  stage2 c (f.z != 0) (!isInputKind c.ent.kind || mismatch) false false <|
    match c.seat.ctx with
    | none => .nf 0xC
    | some x =>
      let n := inHalves c.img x.ck x.index
      (if fieldFails (inValue c) n x f then ResE.code 1
       else failIf (fieldBad f n) 0xC <|
        match fieldValue (inValue c) x.ck x.index f with
        | none => .code 1
        | some v =>
          if fieldSubst c x.ck x.index f then .ok (.regSubst f.w c.ent.rval) else .ok (.reg f.w v)).withBad
        (fieldPoison (inBad c) n x f)

/-- The field lies within the node's window, in the window's context (R93). -/
def inWindow (w : Option Window) (x : Ctx) (f : FmtF) : Bool :=
  match w with
  | none => false
  | some w =>
    w.ck == x.ck && w.index == x.index && w.off ≤ f.off.toNat &&
      f.off.toNat + f.wid.toNat + 1 ≤ w.off + w.len

/-- The half-words that PACK of `v` writes, re-encoded under D(n) (R93). -/
def packWords (c : Eval) (x : Ctx) (f : FmtF) (h0 h1 v : Half) : List (Nat × Coded) :=
  let b := f.off.toNat
  let w := f.wid.toNat + 1
  let p := fieldPut h0 h1 (b % 16) w (f.e == 1) v
  let key k := ctxKey x.ck x.index k
  let put k h := (key k, encode c.slot h (sigKey outByte (key k)) c.n)
  if fieldFirst b = fieldLast b w then [put (fieldFirst b) p.1] else [put (fieldFirst b) p.1, put (fieldLast b w) p.2]

/-- An outbound half-word of the buffer that a field touches fails its check (R57, R93, R100). -/
def packBad (c : Eval) (f : FmtF) : Bool :=
  match c.seat.ctx with
  | none => false
  | some x => fieldFails (outValue c) (outHalves c.img x.ck x.index) x f

/-- Poisoned half-words among those that a PACK reads. -/
def packPoison (c : Eval) (f : FmtF) : Nat :=
  match c.seat.ctx with
  | none => 0
  | some x => fieldPoison (outBad c) (outHalves c.img x.ck x.index) x f

/-- PACK (R93): of the faults of its operand stage a failing word comes first, then an empty register, then a context fault
(R100). -/
def evalPack (c : Eval) (f : FmtF) : ResE :=
  let w := f.wid.toNat + 1
  let host := match c.seat.ctx with
    | none => false
    | some x => x.ck == 3
  stage2 c (f.z != 0) (!isOutputKind c.ent.kind || host) false false <|
    (if packBad c f then ResE.code 1
     else withRegs c [f.w] <|
      match c.seat.ctx with
      | none => .nf 0xC
      | some x =>
        failIf (fieldBad f (outHalves c.img x.ck x.index) || !inWindow (windowOf c.img c.ent) x f) 0xC <|
          match outValue c (fieldKeys x f).1, outValue c (fieldKeys x f).2 with
          | some h0, some h1 =>
            failIf (2 ^ w ≤ (regVal c f.w).toNat) 5 (.ok (.packed (packWords c x f h0 h1 (regVal c f.w))))
          | _, _ => .code 1).withBad (packPoison c f)

/-- Check-value state fault (R95), kind 2 of CVU_FAULT (R130). -/
def cvuState : ResE := { res := .fault 0xD 0 2, corr := 0, uncorr := 0 }

/-- Engine difference (R126): code check at SITE 2, kind 3 of CVU_FAULT. -/
def cvuDiff : ResE := { res := .fault 1 2 3, corr := 0, uncorr := 0 }

/-- The two engines agree (R126). -/
def Cvu.agree (u : Cvu) : Bool := u.par == u.ser

/-- A changed unit, with the comparison of R126 at the retire. -/
def cvuDone (u : Cvu) (fed : Nat) : ResE := if u.agree then .ok (.cvu u fed) else cvuDiff

/-- Both engines take bytes (R124, R126). -/
def Cvu.feed (u : Cvu) (fn : BitVec 2) (bs : List Byte) : Cvu :=
  { u with par := polyBytes (polyOf fn) u.par bs, ser := bs.foldl (polyNibbles (polyOf fn)) u.ser }

/-- The bytes of a half-word in message order (R95). -/
def halfBytes (v : Half) : List Byte := [v.extractLsb' 8 8, v.extractLsb' 0 8]

/-- CSEL (R95). -/
def evalCsel (c : Eval) (f : FmtG) : ResE :=
  stage2 c (resG f false false false false true) false false false <|
    cvuDone { poly := some f.fn, par := (polyOf f.fn).init, ser := (polyOf f.fn).init } 0

/-- Feeds bytes to the selected unit (R95). -/
def feedUnit (c : Eval) (bs : List Byte) : ResE :=
  match c.seat.cvu.poly with
  | none => cvuState
  | some p => cvuDone (c.seat.cvu.feed p bs) bs.length

/-- CFB (R95). -/
def evalCfb (c : Eval) (f : FmtG) : ResE :=
  stage2 c (resG f false true false false false) false false false <|
    withRegs c [f.wa] <|
      failIf (255 < (regVal c f.wa).toNat) 5 <| feedUnit c [(regVal c f.wa).setWidth 8]

/-- CFH (R95). -/
def evalCfh (c : Eval) (f : FmtG) : ResE :=
  stage2 c (resG f false true false false false) false false false <|
    withRegs c [f.wa] <| feedUnit c (halfBytes (regVal c f.wa))

/-- CFW (R95): an odd WA raises an empty-register fault. -/
def evalCfw (c : Eval) (f : FmtG) : ResE :=
  stage2 c (resG f false true false false false) false false false <|
    if f.wa.getLsbD 0 then (if regBad c f.wa then .code 1 else .nf 0xA)
    else withRegs c [f.wa, f.wa + 1] <| feedUnit c (halfBytes (regVal c f.wa) ++ halfBytes (regVal c (f.wa + 1)))

/-- 16-bit parts of the selected polynomial (R95, R123). -/
def cvuParts (p : BitVec 2) : Nat := (polyOf p).width / 16

/-- Part `k` of a running value. -/
def cvuPart (r : Coded) (k : Nat) : Half := (r >>> (16 * k)).setWidth 16

/-- A running value with part `k` replaced. -/
def cvuWithPart (r : Coded) (k : Nat) (v : Half) : Coded :=
  (r &&& ~~~((0xFFFF : Coded) <<< (16 * k))) ||| (v.setWidth 64 <<< (16 * k))

/-- CRD (R95). -/
def evalCrd (c : Eval) (f : FmtG) : ResE :=
  stage2 c (resG f true false false false true) false false false <|
    match c.seat.cvu.poly with
    | none => cvuState
    | some p =>
      if cvuParts p ≤ f.fn.toNat then cvuState
      else if c.seat.cvu.agree then .ok (.reg f.wd (cvuPart c.seat.cvu.par f.fn.toNat)) else cvuDiff

/-- CWR (R95). -/
def evalCwr (c : Eval) (f : FmtG) : ResE :=
  stage2 c (resG f false true false false true) false false false <|
    withRegs c [f.wa] <|
      match c.seat.cvu.poly with
      | none => cvuState
      | some p =>
        if cvuParts p ≤ f.fn.toNat then cvuState
        else cvuDone { c.seat.cvu with par := cvuWithPart c.seat.cvu.par f.fn.toNat (regVal c f.wa),
                                       ser := cvuWithPart c.seat.cvu.ser f.fn.toNat (regVal c f.wa) } 0

/-- The expected value held in `n` registers from `a` onwards, most significant part first (R95). -/
def expectedValue (c : Eval) (a : BitVec 4) : Nat → Coded
  | 0 => 0
  | n + 1 => ((regVal c a).setWidth 64 <<< (16 * n)) ||| expectedValue c (a + 1) n

/-- The registers from `a` onwards. -/
def regRun (a : BitVec 4) : Nat → List (BitVec 4)
  | 0 => []
  | n + 1 => a :: regRun (a + 1) n

/-- CCMP (R95, R96, R126, R129). -/
def evalCcmp (c : Eval) (f : FmtG) : ResE :=
  stage2 c (resG f true true false false true || f.fn.getLsbD 1) false false false <|
    match c.seat.cvu.poly with
    | none => withRegs c [f.wa] cvuState
    | some p =>
      let n := cvuParts p
      withRegs c (regRun f.wa (min n (16 - f.wa.toNat))) <|
        failIf (16 < f.wa.toNat + n) 0xA <|
          if !c.seat.cvu.agree then cvuDiff
          else
            let eq := (c.seat.cvu.par ^^^ (polyOf p).fin) == expectedValue c f.wa n
            if f.fn.getLsbD 0 && !eq then { res := .fault 7 0 1, corr := 0, uncorr := 0 }
            else .ok (.compare f.wd eq (f.fn.getLsbD 0))

/-- Target of a branch from the entry's own offset (R97). -/
def branchTarget (c : Eval) (f : FmtB) : Int := c.seat.off + f.off.toInt

/-- Branch faults of stage 2 (R97, R100): backward branch, branch range, reserved encoding, length. -/
def withBranch (c : Eval) (f : FmtB) (reserved : Bool) (k : ResE) : ResE :=
  failIf (f.off.toInt ≤ 0) 2 <|
    failIf ((c.ent.plen.toNat : Int) ≤ branchTarget c f) 3 <| stage2 c reserved false false false k

/-- BR (R97). -/
def evalBr (c : Eval) (f : FmtB) : ResE :=
  withBranch c f (f.wa != 0 || f.z != 0) <| .ok (.jump (branchTarget c f).toNat)

/-- BRZ (`z` true) and BRNZ (`z` false) (R97). -/
def evalBrCond (z : Bool) (c : Eval) (f : FmtB) : ResE :=
  withBranch c f (f.z != 0) <|
    withRegs c [f.wa] <|
      .ok (.jump (if (regVal c f.wa == 0) == z then (branchTarget c f).toNat else c.seat.off + 1))

/-- END (R97): a node that has not retired raises a retire-count fault (R81). -/
def evalEnd (c : Eval) (f : FmtE) : ResE :=
  stage2 c (f.z != 0) false false true <| failIf (!c.seat.stored) 0xB (.ok .done)

end Sys2Proof.Machine
end

