-- ==== Sys2Proof/Machine/Timing.lean ====
section
/-!
DEFINITION. Phase windows and deadlines of a cycle in units of 10 µs (spec/02_the_cycle.md R22 to R24).
-/
namespace Sys2Proof.Machine

/-- T_cycle in units of 10 µs. -/
def cycleTime (d : ImgHeader) : Nat := 10 * d.tCycle

/-- T_freeze in units of 10 µs. -/
def freezeTime (d : ImgHeader) : Nat := 10 * d.tFreeze

/-- A window scaled by s = min(1, T_cycle / 5.0 ms), rounded down to 10 µs (R23). -/
def scaled (d : ImgHeader) (w : Nat) : Nat := w * min (cycleTime d) 500 / 500

/-- W_agree (R23). -/
def wAgree (d : ImgHeader) : Nat := scaled d 30

/-- W_check (R23). -/
def wCheck (d : ImgHeader) : Nat := scaled d 10

/-- W_vote (R23). -/
def wVote (d : ImgHeader) : Nat := scaled d 70

/-- W_seal (R23). -/
def wSeal (d : ImgHeader) : Nat := scaled d 30

/-- W_guard (R23). -/
def wGuard (d : ImgHeader) : Nat := scaled d 50

/-- D_agree (R24). -/
def dAgree (d : ImgHeader) : Nat := freezeTime d + wAgree d

/-- W_corr (R23). -/
def wCorr (d : ImgHeader) : Nat := min 200 (cycleTime d - dAgree d - wVote d - wSeal d - wGuard d)

/-- D_corr (R24). -/
def dCorr (d : ImgHeader) : Nat := dAgree d + wCorr d

/-- D_check (R24). -/
def dCheck (d : ImgHeader) : Nat := dCorr d + wCheck d

/-- D_vote (R24). -/
def dVote (d : ImgHeader) : Nat := dCorr d + wVote d

/-- D_seal (R24). -/
def dSeal (d : ImgHeader) : Nat := cycleTime d - wGuard d

/-- T_CYCLE in the range of R22. -/
def cycleOk (d : ImgHeader) : Bool := 20 ≤ d.tCycle && d.tCycle ≤ 1000

/-- T_FREEZE in the range of R22. -/
def freezeOk (d : ImgHeader) : Bool := 3 * d.tCycle ≤ 10 * d.tFreeze && 10 * d.tFreeze ≤ 7 * d.tCycle

end Sys2Proof.Machine
end

