-- ==== Sys2Proof/Machine/PreCheck.lean ====
section
/-!
DEFINITION. The configuration-consistency check: every static item of the reason code table
(spec/07_data_key.md R154, R160; spec/02_the_cycle.md R41; spec/04_node_programs.md R91, R93, R99;
spec/05_seats_at_work.md R107, R108, R117; spec/06_check_value_units.md R128). Each item answers the INDEX of R161
when it fails.
-/
namespace Sys2Proof.Machine

/-- An item of the reason code table with the INDEX of its failure (R160). -/
def item (code : Byte) (r : Option Nat) : Byte × Option Nat := (code, r)

/-- An item that fails with INDEX 0 when a condition holds. -/
def failWhen (b : Bool) : Option Nat := if b then some 0 else none

/-- The instruction of a program store entry; none for a reserved encoding (R63, R78, R79). -/
def entryInstr (e : Coded) : Option Instr := (decodeWord .a 0 (e.extractLsb' 32 32)).filter (·.wf)

/-- Entries of a node's program. -/
def programOf (img : Image) (e : NodeEntry) : List (Option Instr) :=
  ((img.progs.drop e.pstart.toNat).take e.plen.toNat).map entryInstr

/-- Seat clocks of an instruction apart from conditional branches (R80 to R98). -/
def clocksOf : Instr → Nat
  | .edg .. | .tstart .. | .tstop .. | .stn .. | .unpk .. | .cfh .. | .ccmp .. | .br .. => 2
  | .pack .. => 3
  | .cfw .. => 4
  | _ => 1

/-- Offset of a forward branch, from its own entry. -/
def branchOff : Instr → Option Int
  | .br _ _ f | .brz _ _ f | .brnz _ _ f => some f.off.toInt
  | _ => none

/-- Whether an instruction is BR. -/
def isBr : Instr → Bool
  | .br .. => true
  | _ => false

/-- Whether an instruction is END. -/
def isEnd : Instr → Bool
  | .fin .. => true
  | _ => false

/-- The larger of two costs, where a path that never ends has none. -/
def maxCost : Option Nat → Option Nat → Option Nat
  | none, b => b
  | a, none => a
  | some a, some b => some (max a b)

/-- A cost with clocks added. -/
def addCost (n : Nat) (c : Option Nat) : Option Nat := c.map (· + n)

/-- Cost of the paths to END from an entry, given those of the later entries in order (R98, R99); a path that faults at a
reserved encoding, a branch or the end of the program reaches no END. -/
def entryCost (i : Option Instr) (later : List (Option Nat)) : Option Nat :=
  match i with
  | none => none
  | some i =>
    if isEnd i then some 1
    else
      let taken : Option Nat :=
        match branchOff i with
        | none => none
        | some o => if o ≤ 0 then none else later.getD (o.toNat - 1) none
      match branchOff i with
      | none => addCost (clocksOf i) (later.headD none)
      | some _ => if isBr i then addCost 2 taken else maxCost (addCost 1 (later.headD none)) (addCost 4 taken)

/-- Costs from every entry of a program, in order. -/
def entryCosts (p : List (Option Instr)) : List (Option Nat) := p.foldr (fun i later => entryCost i later :: later) []

/-- Cost of a node: overhead and the largest path (R98, R99). -/
def nodeCost (img : Image) (e : NodeEntry) : Nat :=
  (if isOutputKind e.kind then 4 else 2) + ((entryCosts (programOf img e)).headD none).getD 0

/-- Cost of every node, in order. -/
def nodeCosts (img : Image) : List (NodeEntry × Nat) := img.nodes.map fun e => (e, nodeCost img e)

/-- Sum of the costs of a hand (R99). -/
def handCost (cs : List (NodeEntry × Nat)) (h : Nat) : Nat := ((cs.filter fun p => p.1.hand == h).map (·.2)).sum

/-- Bank-S operands of a node's program, EDG among them (R107, R117). -/
def shadowRefs (p : List (Option Instr)) : List Nat :=
  p.filterMap fun
    | some (.ld _ _ f) | some (.andN _ _ f) | some (.orN _ _ f) | some (.andnN _ _ f) =>
      if f.m = 1 then some f.idx.toNat else none
    | some (.edg _ _ f) => some f.idx.toNat
    | _ => none

/-- Sum of the costs of the nodes of hand `h` below index `i` (R107). -/
def sigmaOf (cs : List (NodeEntry × Nat)) (h i : Nat) : Nat := handCost (cs.take i) h

/-- The cross-hand lead of R107 holds for node `i`. -/
def leadOk (img : Image) (cs : List (NodeEntry × Nat)) (i : Nat) (e : NodeEntry) : Bool :=
  (shadowRefs (programOf img e)).all fun j =>
    match cs[j]? with
    | none => true
    | some (d, cost) => d.hand == e.hand || sigmaOf cs d.hand j + cost + 256 ≤ sigmaOf cs e.hand i

/-- Out-of-range operand or kind violation of a node operand, decoded statically (R80, R83). -/
def staticNode (img : Image) (i : Nat) (e : NodeEntry) (m : BitVec 2) (j : Nat) : Bool :=
  img.hdr.nodes ≤ j || (m == 1 && i ≤ j) || (m == 2 && e.kind != 4 && e.kind != 12) ||
    (m != 1 && j == i && e.kind != 12)

/-- An entry that statically raises a fault that code 0x3D names (R70, R78, R80, R97). -/
def staticBad (img : Image) (i : Nat) (e : NodeEntry) (off : Nat) (ins : Option Instr) : Bool :=
  match ins with
  | none => true
  | some ins =>
    (match branchOff ins with
     | none => false
     | some o => o ≤ 0 || (e.plen.toNat : Int) ≤ off + o) ||
      (match ins with
       | .ld _ _ f | .andN _ _ f | .orN _ _ f | .andnN _ _ f => staticNode img i e f.m f.idx.toNat
       | .edg _ _ f => e.kind != 4 || staticNode img i e 1 f.idx.toNat
       | .subr _ _ f => img.hdr.nodes ≤ f.idx.toNat
       | .st _ _ f => f.idx.toNat != i
       | .tstart .. | .tstop .. => e.kind != 3
       | .unpk .. => !isInputKind e.kind
       | .pack .. => !isOutputKind e.kind
       | _ => false)

/-- Contexts that may be in force at entries of a program: for each offset still ahead, the contexts that reach it. -/
abbrev CtxFlow := List (Nat × Option Ctx)

/-- Contexts that reach an offset. -/
def reaching (fl : CtxFlow) (off : Nat) : List (Option Ctx) := ((fl.filter fun p => p.1 == off).map (·.2)).eraseDups

/-- Follows every path of a program: each entry with the contexts that reach it (R91, R117). With `all`, an entry that no
path reaches takes the context of the nearest STN before it, `near` (R117 counts instructions on no path too). -/
def ctxAt (all : Bool) : List (Option Instr) → Nat → Option Ctx → CtxFlow → List (Instr × List (Option Ctx))
  | [], _, _, _ => []
  | none :: r, off, near, fl => ctxAt all r (off + 1) near fl
  | some i :: r, off, near, fl =>
    let found := reaching fl off
    let here := if all && found.isEmpty then [near] else found
    let set : Option Ctx :=
      match i with
      | .stn _ _ f => some { ck := f.ck, index := f.index.toNat }
      | _ => none
    let after : List (Option Ctx) := if set.isSome && !here.isEmpty then [set] else here
    let onward : CtxFlow := if isEnd i || isBr i then [] else after.map fun c => (off + 1, c)
    let jumped : CtxFlow :=
      match branchOff i with
      | some o => if o ≤ 0 then [] else after.map fun c => (off + o.toNat, c)
      | none => []
    (i, here) :: ctxAt all r (off + 1) (if set.isSome then set else near) (fl ++ onward ++ jumped)

/-- A path reaches an UNPK in a context that the node kind does not permit (R91). -/
def unpkBad (img : Image) (e : NodeEntry) : Bool :=
  (ctxAt false (programOf img e) 0 none [(0, none)]).any fun p =>
    match p.1 with
    | .unpk .. => p.2.any fun
      | none => false
      | some c => ctxKind c.ck != e.kind
    | _ => false

/-- KEY bits [31:30] and [23:0] of a reader block: context, INDEX and half-word (R142). -/
def readerKey (ck : BitVec 2) (index k : Nat) : Nat := ck.toNat * 2 ^ 30 + index % 4096 * 4096 + k % 4096

/-- Reader keys of the input buffer half-words that a node's UNPK entries touch, on a path or not (R117). -/
def readerKeys (img : Image) (e : NodeEntry) : List Nat :=
  (ctxAt true (programOf img e) 0 none [(0, none)]).flatMap fun p =>
    match p.1 with
    | .unpk _ _ f => p.2.flatMap fun
      | none => []
      | some c =>
        let b := f.off.toNat
        if ctxOk img c.ck c.index then
          ([fieldFirst b, fieldLast b (f.wid.toNat + 1)].filter fun k => decide (k < inHalves img c.ck c.index)).map
            (readerKey c.ck c.index)
        else []
    | _ => []

/-- Words of a block that its COUNT names. -/
def blockWords (count : Nat) (ws : List Word) : List Nat := (ws.take count).map fun w => (w.extractLsb' 0 20).toNat

/-- The key of a reader block without its COUNT. -/
def ReaderBlk.keyOf (b : ReaderBlk) : Nat := (b.key &&& 0xC0FFFFFF).toNat

/-- COUNT of a reader block (R142). -/
def ReaderBlk.count (b : ReaderBlk) : Nat := (b.key.extractLsb' 27 3).toNat

/-- Source of a successor block (R142). -/
def SuccBlk.source (b : SuccBlk) : Nat := (b.src.extractLsb' 0 20).toNat

/-- COUNT of a successor block (R142). -/
def SuccBlk.count (b : SuccBlk) : Nat := (b.src.extractLsb' 24 3).toNat

/-- The reader list of a key (R117). -/
def readersOf (img : Image) (key : Nat) : List Nat :=
  (img.readers.filter fun b => b.keyOf == key).flatMap fun b => blockWords b.count b.words

/-- The successor list of a node (R117). -/
def succsOf (img : Image) (j : Nat) : List Nat :=
  (img.succs.filter fun b => b.source == j).flatMap fun b => blockWords b.count b.words

/-- Nodes with their indices. -/
def indexed (img : Image) : List (Nat × NodeEntry) := (List.range img.nodes.length).zip img.nodes

/-- Nodes that an omission of R117 names. -/
def coneOmissions (img : Image) : List Nat :=
  (indexed img).flatMap fun (i, e) =>
    (if isInputKind e.kind && (readerKeys img e).any fun k => !(readersOf img k).contains i then [i] else []) ++
      (shadowRefs (programOf img e)).filter fun j => j < img.nodes.length && !(succsOf img j).contains i

/-- The lowest of a list. -/
def lowest : List Nat → Option Nat
  | [] => none
  | k :: r => some (r.foldl min k)

/-- Some node fails. -/
def someNode (img : Image) (bad : Nat → NodeEntry → Bool) : Bool := (indexed img).any fun p => bad p.1 p.2

/-- The first node that fails, as an INDEX. -/
def firstNode (img : Image) (bad : Nat → NodeEntry → Bool) : Option Nat :=
  ((indexed img).find? fun p => bad p.1 p.2).map (·.1)

/-- Values of a list are pairwise different. -/
def distinct {α : Type} [DecidableEq α] : List α → Bool
  | [] => true
  | a :: r => !r.contains a && distinct r

/-- Hands of a directory in order: from 0, never falling, rising by at most one, ending at 7 (R108). -/
def handsOk : Nat → List NodeEntry → Bool
  | h, [] => h == 7
  | h, e :: r => (e.hand == h || e.hand == h + 1) && handsOk e.hand r

/-- PSTART of every entry is the sum of the lower PLEN, and the whole sum is PROG_ENTRIES (R140). -/
def startsOk (total : Nat) : Nat → List NodeEntry → Bool
  | s, [] => s == total
  | s, e :: r => e.pstart.toNat == s && startsOk total (s + e.plen.toNat) r

/-- Bytes on the wire of a station's command telegram: headers, 50 bytes of SHP-independent telegram fields and tags
and the payload, preamble and gap (R34, R162, R166). -/
def wireBytes (r : StationRec) : Nat := 120 + r.cmdLen.toNat

/-- Windows of one station's command channels overlap (R93). -/
def windowsClash (cs : List ChannelRec) : Bool :=
  match cs with
  | [] => false
  | c :: r =>
    (c.dir == 1 && r.any fun d =>
      d.dir == 1 && d.stn == c.stn && c.bitOff.toNat < d.bitOff.toNat + d.bitLen.toNat &&
        d.bitOff.toNat < c.bitOff.toNat + c.bitLen.toNat) || windowsClash r

/-- A channel record within its station's payload (R143). -/
def channelOk (img : Image) (c : ChannelRec) : Bool :=
  match img.stations[c.stn.toNat]? with
  | none => false
  | some r =>
    let len := if c.dir = 1 then r.cmdLen.toNat else r.stLen.toNat
    c.dir.toNat ≤ 1 && 1 ≤ c.bitLen.toNat && c.bitLen.toNat ≤ 2048 && c.bitOff.toNat + c.bitLen.toNat ≤ 8 * len

/-- Channel ranges follow station position, consecutively (R143). -/
def rangesOk (img : Image) : Nat → Nat → List StationRec → Bool
  | k, _, [] => k == img.channels.length
  | k, p, r :: rs =>
    (r.chCount == 0 || r.firstCh.toNat == k) &&
      (((img.channels.drop k).take r.chCount.toNat).all fun c => c.stn.toNat == p) &&
      rangesOk img (k + r.chCount.toNat) (p + 1) rs

/-- AUX of a FIELD-OUT node names a command channel whose NODE is that node (R140, R143). -/
def fieldOutOk (img : Image) (i : Nat) (e : NodeEntry) : Bool :=
  match img.channels[e.aux.toNat]? with
  | none => false
  | some c => c.dir == 1 && c.node.toNat == i

/-- A command channel's NODE is a FIELD-OUT node whose AUX names it; a status channel's is 0xFFFFFFFF (R143). -/
def channelNodeOk (img : Image) (k : Nat) (c : ChannelRec) : Bool :=
  if c.dir = 0 then c.node == 0xFFFFFFFF
  else c.dir != 1 ||
    (match img.nodes[c.node.toNat]? with
     | none => false
     | some e => e.kind == 6 && e.aux.toNat == k)

/-- A network record part in its ranges, apart from station addresses (R143). A PCP above 7 is judged here, under code 0x48,
the model's choice (log entry 104). -/
def netOk (n : NetRec) (ips : List Word) : Bool :=
  8 ≤ n.pfx.toNat && n.pfx.toNat ≤ 30 && n.pcp.toNat ≤ 7 && 1 ≤ n.vid.toNat && n.vid.toNat ≤ 4094 &&
    !ips.contains n.modIp

/-- USED bit of a local output channel (R144). -/
def localUsed (img : Image) (ch : Nat) : Bool :=
  ((img.localGrp[ch / 8]?).map fun g => g.used.getLsbD (ch % 8)).getD false

/-- AUX values of the nodes of a kind. -/
def auxOf (img : Image) (kind : BitVec 4) : List Nat :=
  (img.nodes.filter fun e => e.kind == kind).map fun e => e.aux.toNat

/-- Out-slot records of the neighbours follow R145 from index `k` on. -/
def outsOk (img : Image) : Nat → List NbRec → Bool
  | k, [] => k == img.outs.length
  | k, n :: r =>
    let mine := (img.outs.drop k).take n.outCount.toNat
    (n.outCount == 0 || n.firstOut.toNat == k) && mine.length == n.outCount.toNat &&
      (mine.all fun o => o.q == n.q && o.slot.toNat < n.outCount.toNat && o.z == 0) && distinct (mine.map (·.slot)) &&
      outsOk img (k + n.outCount.toNat) r

/-- A neighbour record at index `q` (R145). Its MAX_AGE is judged here, under code 0x64, the model's choice (log entry
105). -/
def nbOk (img : Image) (q : Nat) (n : NbRec) : Bool :=
  n.q.toNat == q && n.used.toNat ≤ 1 &&
    (if n.used = 0 then n.nbSlot == 0 && n.maxAge == 0 && n.inCount == 0 && n.outCount == 0 && n.nbArea == 0 &&
        n.keyGen == 0 && n.firstOut == 0 && n.z == 0
     else n.nbSlot.toNat ≤ 63 && 1 ≤ n.maxAge.toNat && n.maxAge.toNat ≤ 8 && n.inCount.toNat ≤ 4096 &&
        n.outCount.toNat ≤ 4096 && n.nbSlot != img.hdr.slot1 && n.nbSlot != img.hdr.slot2)

/-- An out-slot record's node is a BORDER-OUT node whose AUX names it (R140, R145). -/
def outNodeOk (img : Image) (k : Nat) (o : OutSlot) : Bool :=
  match img.nodes[o.node.toNat]? with
  | none => false
  | some e => e.kind == 11 && e.aux.toNat == k

/-- The border map obeys R145. -/
def borderOk (img : Image) : Bool :=
  ((List.range img.nbs.length).zip img.nbs).all (fun p => nbOk img p.1 p.2) && outsOk img 0 img.nbs &&
    ((List.range img.outs.length).zip img.outs).all (fun p => outNodeOk img p.1 p.2) &&
    (auxOf img 11).all (fun k => k < img.outs.length) && distinct (auxOf img 11)

/-- Strictly ascending. -/
def ascending : List Nat → Bool
  | a :: b :: r => a < b && ascending (b :: r)
  | _ => true

/-- A policy record obeys R147 and R296: an input or output node, some force allowed, no permissive force of a window
wider than 16 bits. -/
def policyOk (img : Image) (p : PolicyRec) : Bool :=
  match img.nodes[p.node.toNat]? with
  | none => false
  | some e =>
    p.z == 0 && (isInputKind e.kind || isOutputKind e.kind) && 1 ≤ p.perm.toNat && p.perm.toNat ≤ 3 &&
      !(p.perm.getLsbD 1 && e.kind == 6 && ((windowOf img e).map fun w => decide (16 < w.len)).getD true)

/-- The static items in ascending code, apart from those that need more than the image: 0x16, 0x17, 0x22 to 0x24 and
0x26 (R154, R160). -/
def imageItems (img : Image) : List (Byte × Option Nat) :=
  let d := img.hdr
  let cs := nodeCosts img
  let timed := cycleOk d && freezeOk d
  [ item 0x18 (failWhen (62914560 < d.imgLen || 41943040 < 8 * d.progs)),
    item 0x20 (failWhen (!d.hwIssues.getLsbD 2)),
    item 0x21 (failWhen (0x0302 < d.fwMin.toNat)),
    item 0x27 (failWhen ((img.params.minLanes != 2 && img.params.minLanes != 3) || img.params.tUntested == 0 ||
      72 < img.params.tUntested.toNat)),
    item 0x30 (failWhen (d.nodes == 0 || 1048576 < d.nodes || d.progs < 2 || 5242880 < d.progs)),
    item 0x31 (failWhen (timed && d.tCycle < max 20 ((80 * d.nodes + 1048575) / 1048576))),
    item 0x32 (failWhen (timed && dAgree d * 10000 < d.cMax)),
    item 0x33 (failWhen (timed && wCorr d * 10000 < min 2000000 d.cMax)),
    item 0x34 (failWhen (!distinct (img.nodes.map (·.tag)))),
    item 0x35 (failWhen (someNode img fun _ e => 13 ≤ e.kind.toNat || e.plen.toNat < 2 || 4096 < e.plen.toNat)),
    item 0x36 (failWhen (someNode img fun _ e => !inDomain e.kind e.rval)),
    item 0x37 (failWhen (!handsOk 0 img.nodes || (img.nodes.head?.map (·.hand)) != some 0 || !startsOk d.progs 0 img.nodes)),
    item 0x38 (failWhen (someNode img fun i e => !leadOk img cs i e)),
    item 0x39 (lowest (coneOmissions img)),
    item 0x3A (failWhen (someNode img fun _ e => isInputKind e.kind && (programOf img e).any fun
      | some (.ccmp _ _ f) => f.fn.getLsbD 0
      | _ => false)),
    item 0x3B (failWhen ((List.range 8).any fun h => d.cMax < handCost cs h)),
    item 0x3C (failWhen (d.timers == 0 || 65536 < d.timers || (auxOf img 3).any (fun h => d.timers ≤ h) ||
      !distinct (auxOf img 3))),
    item 0x3D (firstNode img fun i e => unpkBad img e ||
      ((List.range e.plen.toNat).zip (programOf img e)).any fun p => staticBad img i e p.1 p.2),
    item 0x40 (failWhen (4096 < d.stations || 65536 < d.channels)),
    item 0x41 (failWhen (timed && 50 * d.tCycle < d.stations)),
    item 0x42 (failWhen (timed && d.tCycle * 100000 < 200000 + ((img.stations.map fun r => 8 * wireBytes r).sum))),
    item 0x43 (failWhen (!distinct (img.stations.map (·.stnId)) || !distinct (img.stations.map fun r => (r.ipA, r.udp)) ||
      !distinct (img.stations.map fun r => (r.ipB, r.udp)))),
    item 0x44 (failWhen (windowsClash img.channels)),
    item 0x45 (failWhen ((img.stations.any fun r => 256 < r.stLen.toNat || r.cmdLen == 0 || 256 < r.cmdLen.toNat) ||
      !img.channels.all (channelOk img) || !rangesOk img 0 0 img.stations)),
    item 0x46 (failWhen (img.stations.any fun r => r.maxAge == 0 || 8 < r.maxAge.toNat)),
    item 0x47 (failWhen (!((indexed img).all fun p => p.2.kind != 6 || fieldOutOk img p.1 p.2) ||
      !((List.range img.channels.length).zip img.channels).all fun p => channelNodeOk img p.1 p.2)),
    item 0x48 (failWhen (!netOk img.netA (img.stations.map (·.ipA)) || !netOk img.netB (img.stations.map (·.ipB)))),
    item 0x50 (failWhen (img.localIn.any fun r => r.filter == 0 || 4095 < r.filter.toNat)),
    item 0x51 (failWhen (img.localGrp.any fun g => g.pepOff.toNat < 100 || 500 < g.pepOff.toNat || g.pepPer == 0 ||
      60 < g.pepPer.toNat)),
    item 0x52 (failWhen (img.localGrp.any fun g => 1 < g.mode.toNat || (g.mode == 0 && g.tDeg != 0) ||
      (g.mode == 1 && (g.tDeg.toNat < 60 || 259200 < g.tDeg.toNat)))),
    item 0x53 (failWhen ((auxOf img 8).any (fun c => 31 < c || !localUsed img c) || !distinct (auxOf img 8))),
    item 0x54 (failWhen (img.localIn.any fun r => 3 < r.domain.toNat)),
    item 0x61 (failWhen (d.slot1 == d.slot2 || 63 < d.slot1.toNat || (63 < d.slot2.toNat && d.slot2 != 0xFF) ||
      (if d.slot2 = 0xFF then img.params.prefSlot != 0xFF
       else img.params.prefSlot != d.slot1 && img.params.prefSlot != d.slot2))),
    item 0x64 (failWhen (!borderOk img)),
    item 0x65 (failWhen (img.params.etherType.toNat < 0x0600)),
    item 0x70 (failWhen (!cycleOk d)),
    item 0x71 (failWhen (!freezeOk d)),
    item 0x72 (failWhen (img.pexp.toNat < 10 || 24 < img.pexp.toNat)),
    item 0x92 (failWhen (65536 < d.policies || !ascending (img.policy.map fun p => p.node.toNat) ||
      !img.policy.all (policyOk img))) ]

/-- The lowest failing code of a list in ascending code, with its INDEX; 0 when all pass (R154). -/
def lowestCode : List (Byte × Option Nat) → Byte × Nat
  | [] => (0, 0)
  | (_, none) :: r => lowestCode r
  | (c, some k) :: _ => (c, k)

/-- Every static item in a lane (R154): the generation floor (R157), the slot (R137), MIN_LANES against the image set
(R160), then the image. -/
def preCheck (img : Image) (floor : Word) (set : LaneSet) : Byte × Nat :=
  let own := img.slot
  lowestCode <|
    [ item 0x16 (failWhen (img.hdr.gen.toNat < floor.toNat)),
      (0x17, failWhen (own != img.hdr.slot1 && own != img.hdr.slot2)) ] ++
    (imageItems img).takeWhile (fun p => p.1.toNat < 0x24) ++
    [ item 0x24 (failWhen (set.count < img.params.minLanes.toNat)) ] ++
    (imageItems img).dropWhile (fun p => p.1.toNat < 0x24)

end Sys2Proof.Machine
end

