-- ==== Sys2Proof/Machine/Ops.lean ====
section
/-!
DEFINITION. Named operations over the module's state: access to lanes and seats, what a step emits, free values, and
the one operation for each kind of failure a lane records (spec/02_the_cycle.md R36, R44, spec/03_coded_state.md R57,
R68, spec/04_node_programs.md R100, R101, spec/05_seats_at_work.md R113, spec/19_register_space.md R387).
-/
namespace Sys2Proof.Machine

/-- What a command of this model answers: always a next state. -/
abbrev Answer := Host.Outcome State Fault Refusal

/-- A lane of the module. -/
def State.lane (s : State) : LaneId → Lane
  | .a => s.la
  | .b => s.lb
  | .c => s.lc

/-- The state with one lane replaced. -/
def State.setLane (s : State) (l : LaneId) (v : Lane) : State :=
  match l with
  | .a => { s with la := v }
  | .b => { s with lb := v }
  | .c => { s with lc := v }

/-- Applies a function to one lane. -/
def State.modLane (s : State) (l : LaneId) (f : Lane → Lane) : State := s.setLane l (f (s.lane l))

/-- Applies a function to each lane of a set. -/
def State.modLanes (s : State) (t : LaneSet) (f : LaneId → Lane → Lane) : State :=
  { s with la := if t.a then f .a s.la else s.la, lb := if t.b then f .b s.lb else s.lb,
           lc := if t.c then f .c s.lc else s.lc }

/-- Applies a function to every lane in order. -/
def State.mapLanes (s : State) (f : LaneId → Lane → Lane) : State :=
  { s with la := f .a s.la, lb := f .b s.lb, lc := f .c s.lc }

/-- The start of every step: what the last step sent is gone (log entry 5). -/
def State.begin (s : State) : State := { s with out := [] }

/-- Sends one item. -/
def State.emit (s : State) (o : Out) : State := { s with out := s.out ++ [o] }

/-- Sends items in order. -/
def State.emits (s : State) (os : List Out) : State := { s with out := s.out ++ os }

/-- A value that the spec leaves open: the next of the free values (log entry 4). -/
def State.fresh (s : State) (w : Nat) : BitVec w × State :=
  (Config.freeBits w s.freeCtr, { s with freeCtr := s.freeCtr + 1 })

/-- Lane slot as the straps give it (R50). -/
def Lane.slot (l : Lane) : BitVec 2 := l.boot.straps

/-- A seat of the lane. -/
def Lane.seat (l : Lane) (x : SeatId) : SeatState := l.seats[x.val]

/-- The lane with one seat replaced. -/
def Lane.setSeat (l : Lane) (x : SeatId) (v : SeatState) : Lane := { l with seats := l.seats.set x.val v }

/-- The seats in order. -/
def seatList : List SeatId := [0, 1, 2, 3, 4, 5, 6, 7, 8]

/-- Applies a function to every seat. -/
def Lane.mapSeats (l : Lane) (f : SeatId → SeatState → SeatState) : Lane :=
  { l with seats := Vector.ofFn fun x => f x (l.seat x) }

/-- A seat's BIST at the start of slice k: the PRPG holds its seed, the MISRs are clear (R356). -/
def SeatBist.load (k : Nat) : SeatBist := { prpg := Config.bistSeed k, m0 := 0, m1 := 0, m2 := 0 }

/-- A seat's BIST after its 1,024 patterns (R355, R356). -/
def SeatBist.finish (b : SeatBist) (sig : BitVec 192) : SeatBist :=
  { prpg := Config.bistRun b.prpg, m0 := sig.extractLsb' 0 64, m1 := sig.extractLsb' 64 64, m2 := sig.extractLsb' 128 64 }

/-- The security block is zeroised for its scan (R320 steps 1 to 5): the session keys stand wrapped in the secure store, the
key registers read 0, the scan permit is asserted. -/
def Sec.zeroise (c : Sec) (us : BitVec 16) : Sec :=
  { c with zeroCnt := c.zeroCnt + 1, zeroUs := us.toNat, zeroed := true, permit := true, rootReg := 0, wrapped := true }

/-- After the scan the block is reset, the permit deasserts, the root key is loaded from the fuses and the keys are unwrapped
again (R320 steps 6 and 7). -/
def Sec.reload (c : Sec) (root : BitVec 256) : Sec :=
  { c with zeroed := false, permit := false, rootReg := root, wrapped := false }

/-- Sets a bit of STS_FAULT (R387). -/
def Lane.mark (l : Lane) (b : Nat) : Lane :=
  { l with codes := { l.codes with stsFault := l.codes.stsFault ||| (1#8 <<< b) } }

/-- Writes CYC_DROP_CAUSE for the running cycle; the first cause to arise in a cycle stands (R44). -/
def Lane.noteCause (l : Lane) (cause phase : BitVec 4) : Lane :=
  { l with align := if l.align.noted then l.align else
      { l.align with noted := true, dcHeld := true, dcCyc := l.cyc.num.setWidth 16, dcCause := cause, dcPhase := phase } }

/-- The lane drops the running cycle; the first cause to arise stands (R36, R44). -/
def Lane.dropCycle (l : Lane) (cause phase : BitVec 4) : Lane :=
  if l.cyc.running then
    match l.cyc.drop with
    | some _ => l
    | none =>
      let m := (l.noteCause cause phase).mark 5
      { m with cyc := { m.cyc with drop := some { cause := cause, phase := phase } } }
  else l

/-- Code check failure outside the seats: counted, located, and the cycle dropped with cause 0x2 (R57, R68). -/
def Lane.codeFail (l : Lane) (site : BitVec 4) (index : Nat) : Lane :=
  let m := { l with codes := { l.codes with cuFail := l.codes.cuFail + 1, site := site, siteIdx := index % 2 ^ 20 } }
  (m.mark 0).dropCycle 2 l.cyc.phase

/-- A discard at the intake coder or the boundary re-code: located, with no drop (R57, R68). -/
def Lane.codeNote (l : Lane) (site : BitVec 4) (index : Nat) : Lane :=
  ({ l with codes := { l.codes with site := site, siteIdx := index % 2 ^ 20 } } : Lane).mark 0

/-- Records of a CVU fault (R130). -/
def Lane.noteCvu (l : Lane) (x : SeatId) (kind : BitVec 4) : Lane :=
  if kind = 0 then l
  else { l with codes := { l.codes with cfKind := kind, cfSeat := x.val, cfCnt := l.codes.cfCnt + 1 } }

/-- Records of a code check fault at a seat stage (R68). -/
def Lane.noteSeatCode (l : Lane) (site : BitVec 4) (index : Nat) : Lane :=
  if site = 0 then l
  else { l with codes := { l.codes with seatFail := l.codes.seatFail + 1, site := site, siteIdx := index } }

/-- Number of the phase in which a seat works, 1 or 5 (R101). -/
def phaseOf (p5 : Bool) : BitVec 4 := if p5 then 5 else 1

/-- A node fault in an active seat: recorded, counted, and the cycle dropped with cause 0x3 (R100, R101). -/
def Lane.nodeFault (l : Lane) (x : SeatId) (i off : Nat) (op : BitVec 6) (p5 : Bool) (code site kind : BitVec 4) :
    Lane :=
  let m := (l.noteCvu x kind).noteSeatCode site i
  let m := { m with codes := { m.codes with
    nfCode := code, nfSeat := x.val, nfPhase := phaseOf p5, nfIdx := i, nfOp := op, nfCyc := l.cyc.num.setWidth 10,
    nfOff := off, nfHeld := true, nfCnt := m.codes.nfCnt + 1 } }
  (m.mark 0).dropCycle 3 (phaseOf p5)

/-- A seat fault: recorded, counted, and the cycle dropped with cause 0x4 (R113, R121). -/
def Lane.noteSeatFault (l : Lane) (x : SeatId) (cause : BitVec 4) : Lane :=
  let m := { l with codes := { l.codes with sfCause := cause, sfSeat := x.val, sfCnt := l.codes.sfCnt + 1 },
                    rot := { l.rot with faults := l.rot.faults ++ [(x, cause)] } }
  (m.mark 1).dropCycle 4 l.cyc.phase

/-- A settle mismatch at a node, or 0xF_FFFF for an incomplete comparison (R112, R121). -/
def Lane.settleMismatch (l : Lane) (x : SeatId) (index : Nat) : Lane :=
  if l.rot.mismatch then l
  else
    let m := { l with rot := { l.rot with mismatch := true, failCnt := l.rot.failCnt + 1, failSeat := x.val,
                                          failIdx := index } }
    m.noteSeatFault x 1

/-- The generation floor rises to an armed image's generation (R157). -/
def Lane.raiseFloor (l : Lane) (gen : Word) : Lane :=
  if l.nv.genFloor.toNat < gen.toNat then { l with nv := { l.nv with genFloor := gen } } else l

/-- Counts ECC events (R60, R68). -/
def Lane.noteEcc (l : Lane) (corr uncorr : Nat) : Lane :=
  { l with codes := { l.codes with corr := l.codes.corr + corr, uncorr := l.codes.uncorr + uncorr } }

/-- A wrong table entry is used: one that is poisoned (R60) or fails its check is a code check failure, located by its word
address (R63, R68, R135). -/
def Lane.tableFail (l : Lane) (img : Image) (r : Table × Nat) : Lane :=
  (l.noteEcc 0 (img.entryBad r.1 r.2).toNat).codeFail 9 r.2

/-- Table entries are used in order: the first wrong one fails, and the use comes to nothing (R63). -/
def Lane.useTables (l : Lane) (img : Image) (rs : List (Table × Nat)) : Lane × Bool :=
  match img.wrongOf rs with
  | none => (l, true)
  | some r => (l.tableFail img r, false)

/-- Applies a function to the statistics under collection. -/
def Lane.statA (l : Lane) (f : StatA → StatA) : Lane := { l with stats := { l.stats with a := f l.stats.a } }

/-- Applies a function to the statistics under collection. -/
def Lane.statB (l : Lane) (f : StatB → StatB) : Lane := { l with stats := { l.stats with b := f l.stats.b } }

/-- A lane out of reset and out of START-HOLD acts on commands (R326). -/
def Lane.acts (l : Lane) : Bool := !l.boot.inReset && l.boot.hold == 0

/-- The lane has passed step 5 of R325: its monitors watch and its meters run, whatever its lane-alive line (R331, R334). -/
def Lane.clocked (l : Lane) : Bool := l.acts && l.boot.stage != 0

/-- The lane is out of reset and takes part: its lane-alive line is high, or it is armed, since a monitor trip of an armed
lane only drops its cycles and excludes it (R325, R326, R333; log entry 95). -/
def Lane.live (l : Lane) : Bool := (l.boot.alive || l.mode.armed) && !l.boot.inReset

end Sys2Proof.Machine
end

