-- ==== Sys2Proof/Machine/Seats.lean ====
section
/-!
DEFINITION. Seats at work (spec/05_seats_at_work.md R102 to R119): which node a seat takes next, the window rewrite of
R93, retirement, the settle comparator of R111, and the one operation by which every node instruction acts.
-/
namespace Sys2Proof.Machine

/-- The first entry of a list that passes, by its index counted from `k`. -/
def firstFrom (p : Nat → NodeEntry → Bool) : List NodeEntry → Nat → Option Nat
  | [], _ => none
  | e :: r, k => if p k e then some k else firstFrom p r (k + 1)

/-- The next node of a hand from index `k`: in P5 only dirty nodes (R27, R119). -/
def nextOf (l : Lane) (img : Image) (h : Nat) (p5 : Bool) (k : Nat) : Option Nat :=
  firstFrom (fun i e => e.hand == h && (!p5 || Mem.get false l.store.dirty i)) (img.nodes.drop k) k

/-- Bits of half-word `k` that lie in a window (R93). -/
def windowMask (w : Window) (k : Nat) : Half :=
  (List.range 16).foldl
    (fun m j => if w.off ≤ 16 * k + j && 16 * k + j < w.off + w.len then m ||| (1#16 <<< (15 - j)) else m) 0

/-- Half-word `k` of the restrictive pattern of a window (R93). -/
def restrictHalf (img : Image) (e : NodeEntry) (w : Window) (k : Nat) : Half :=
  if w.ck = 0 then
    match img.restr[w.index]? with
    | none => 0
    | some r => byteAt r.bytes (2 * k) ++ byteAt r.bytes (2 * k + 1)
  else if w.ck = 1 then e.rval else 0

/-- Half-words that a window touches. -/
def windowHalves (w : Window) : List Nat :=
  if w.len = 0 then []
  else (List.range (fieldLast w.off w.len + 1 - fieldFirst w.off)).map fun j => fieldFirst w.off + j

/-- Writes an outbound half-word: a settling seat's go to the settle comparator (R111). A word written anew is no longer
poisoned (R60). -/
def Lane.putOut (l : Lane) (settle : Bool) (key : Nat) (c : Coded) : Lane :=
  if settle then { l with rot := { l.rot with outs := Mem.set none l.rot.outs key (some c) } }
  else { l with store := { l.store.heal (.out key) with out := Mem.set 0 l.store.out key c } }

/-- An outbound half-word as a seat sees it (R111). -/
def Lane.outWordAt (l : Lane) (settle : Bool) (key : Nat) : Coded :=
  let base := Mem.get 0 l.store.out key
  if settle then (Mem.get none l.rot.outs key).getD base else base

/-- The outbound half-word at a key is poisoned, as a seat sees it (R60, R111). -/
def Lane.outBadAt (l : Lane) (settle : Bool) (key : Nat) : Bool :=
  l.store.poisoned (.out key) && !(settle && (Mem.get none l.rot.outs key).isSome)

/-- Value of an outbound half-word as a seat sees it, if it passes (R57, R60, R111). -/
def Lane.outValueAt (l : Lane) (settle : Bool) (key : Nat) (n : Cycle) : Option Half :=
  if l.outBadAt settle key then none else decode l.slot (l.outWordAt settle key) (sigKey outByte key) n

/-- An outbound half-word that a rewrite reads fails at the check unit (R57, R60, R68); a settling seat's reading is judged
by the comparator (R111). -/
def Lane.outFail (l : Lane) (settle : Bool) (key i : Nat) : Lane :=
  if settle then l else (l.noteEcc 0 (l.outBadAt settle key).toNat).codeFail 3 i

/-- Window rewrite before the first instruction of output-kind node `i` (R93). -/
def Lane.rewriteWindow (l : Lane) (settle : Bool) (img : Image) (i : Nat) (e : NodeEntry) (n : Cycle) : Lane :=
  match windowOf img e with
  | none => l
  | some w =>
    (windowHalves w).foldl
      (fun m k =>
        let key := ctxKey w.ck w.index k
        match m.outValueAt settle key n with
        | none => m.outFail settle key i
        | some h =>
          let mask := windowMask w k
          m.putOut settle key
            (encode m.slot ((h &&& ~~~mask) ||| (restrictHalf img e w k &&& mask)) (sigKey outByte key) n)) l

/-- A seat at the start of a node: full bits clear, no context, latch clear, unit unselected (R73, R89, R91, R95). -/
def SeatState.atNode (t : SeatState) (node : Option Nat) : SeatState :=
  { t with node := node, off := 0, regs := Vector.replicate 16 { word := 0, full := false }, ctx := none,
           latch := false, stored := false, cvu := { poly := none, par := 0, ser := 0 }, tq := none, cmps := 0,
           falses := 0, bytes := 0 }

/-- The seat takes a node, or falls idle. -/
def Lane.startNode (l : Lane) (x : SeatId) (img : Image) (node : Option Nat) : Lane :=
  let m := l.setSeat x ((l.seat x).atNode node)
  match node with
  | none => m
  | some i =>
    match img.nodes[i]? with
    | none => m
    | some e =>
      if isOutputKind e.kind then m.rewriteWindow ((l.seat x).code == 3) img i e l.cyc.num else m

/-- The seat goes on to the next node of its hand (R100, R104). -/
def Lane.advanceSeat (l : Lane) (x : SeatId) (img : Image) (i : Nat) : Lane :=
  match (l.seat x).hand with
  | none => l.startNode x img none
  | some h => l.startNode x img (nextOf l img h.val l.cyc.p5 (i + 1))

/-- Every seat that holds or shadows a hand takes its first node of the phase (R27, R111, R119). -/
def Lane.startPhase (l : Lane) (img : Image) : Lane :=
  seatList.foldl
    (fun m x =>
      match (m.seat x).hand with
      | none => m
      | some h => if (m.seat x).code == 1 || (m.seat x).code == 3 then m.startNode x img (nextOf m img h.val m.cyc.p5 0)
                  else m) l

/-- No seat that holds a hand has a node under evaluation. -/
def Lane.handsDone (l : Lane) : Bool := seatList.all fun x => (l.seat x).code != 1 || (l.seat x).node.isNone

/-- The active seat that holds the hand on which a settling seat is paired (R111). -/
def Lane.partner (l : Lane) (x : SeatId) : Option SeatId :=
  seatList.find? fun y => (l.seat y).code == 1 && (l.seat y).hand == (l.seat x).hand

/-- Code of a node fault in a list. -/
def faultAt (fs : List (Nat × BitVec 4)) (i : Nat) : Option (BitVec 4) := (fs.find? fun p => p.1 == i).map (·.2)

/-- The partner has finished node `i` in this phase: it runs ahead of the settling seat (R111). -/
def Lane.partnerDone (l : Lane) (x : SeatId) (i : Nat) : Bool :=
  let done := if l.cyc.p5 then Mem.get false l.store.redone i else Mem.get false l.store.bitmap i
  (done || (faultAt l.rot.actFaults i).isSome) &&
    (match l.partner x with
     | none => true
     | some y => (l.seat y).node != some i)

/-- The window bits that the settling seat left equal the partner's (R111). -/
def Lane.outsEqual (l : Lane) (img : Image) (e : NodeEntry) : Bool :=
  match windowOf img e with
  | none => true
  | some w =>
    (windowHalves w).all fun k =>
      let key := ctxKey w.ck w.index k
      match l.outValueAt true key l.cyc.num, l.outValueAt false key l.cyc.num with
      | some a, some b => (a &&& windowMask w k) == (b &&& windowMask w k)
      | _, _ => false

/-- The settle comparator agrees on node `i` (R111). -/
def Lane.settleEqual (l : Lane) (img : Image) (e : NodeEntry) (i : Nat) : Bool :=
  if faultAt l.rot.setFaults i != none || faultAt l.rot.actFaults i != none then
    faultAt l.rot.setFaults i == faultAt l.rot.actFaults i
  else
    Mem.get none l.rot.ret i == some (bankWord l.store 1 i).word &&
      Mem.get none l.rot.ops i == Mem.get none l.store.ops i && l.outsEqual img e

/-- The settling seat has ended node `i`: compare it with the partner's and go on (R111, R112). -/
def Lane.settleDone (l : Lane) (x : SeatId) (img : Image) (e : NodeEntry) (i : Nat) : Lane :=
  let m := if l.settleEqual img e i then l else l.settleMismatch x i
  m.advanceSeat x img i

/-- Abandons the node after a failure that is no node fault (R63). -/
def Lane.abandon (l : Lane) (x : SeatId) (c : Eval) : Lane := l.advanceSeat x c.img c.i

/-- Raises a node fault: in an active seat as R100 says, in a settling seat at the comparator (R111). -/
def Lane.raise (l : Lane) (x : SeatId) (c : Eval) (op : BitVec 6) (code site kind : BitVec 4) : Lane :=
  if c.settle then
    ({ l with rot := { l.rot with setFaults := l.rot.setFaults ++ [(c.i, code)] } } : Lane).settleDone x c.img c.ent c.i
  else
    let m := l.nodeFault x c.i c.seat.off op c.p5 code site kind
    ({ m with rot := { m.rot with actFaults := m.rot.actFaults ++ [(c.i, code)] } } : Lane).advanceSeat x c.img c.i

/-- Goes on at the next entry with a changed seat. -/
def Lane.nextEntry (l : Lane) (x : SeatId) (t : SeatState) : Lane := l.setSeat x { t with off := t.off + 1 }

/-- Register write of a result word after the verify stage (R73, R75). -/
def Lane.writeReg (l : Lane) (x : SeatId) (c : Eval) (op : BitVec 6) (t : SeatState) (d : BitVec 4) (v : Half)
    (w : Coded) : Lane :=
  if decode c.slot w (gTerm d) c.n = some v then
    l.nextEntry x { t with regs := t.regs.set d.toNat { word := w, full := true } }
  else l.raise x c op 1 2 0

/-- A force entry is active in a cycle (R290). -/
def Force.activeIn (f : Force) (n : Cycle) : Bool := f.start.toNat ≤ n.toNat

/-- The value that an active input force gives a node's retirement (R293). -/
def Lane.forcedValue (l : Lane) (i : Nat) : Option Half :=
  (l.force.table.find? fun f => f.node == i && !f.out && f.activeIn l.cyc.num).map (·.value)

/-- Position of an active input force of a node whose entry is poisoned (R60, R63). -/
def Lane.forceBad (l : Lane) (i : Nat) : Option Nat :=
  let k := l.force.table.findIdx fun f => f.node == i && !f.out && f.activeIn l.cyc.num && f.bad
  if k < l.force.table.length then some k else none

/-- A force table entry that is poisoned is a code check failure when it is used (R60, R63). -/
def Lane.forceFail (l : Lane) (k : Nat) : Lane := (l.noteEcc 0 1).codeFail 9 k

/-- Retirement of a node word after the verify stage: an active seat's goes to the shadow bank and through the check
unit, which sets the retire bit and hands the plain value to the digest (R58, R59, R81). An active input force gives the
value (R293). -/
def Lane.retireNode (l : Lane) (x : SeatId) (c : Eval) (op : BitVec 6) (v : Half) (w : Coded) : Lane :=
  if decode c.slot w (sigOf c.img c.i) c.n = some v then
    let f := l.forcedValue c.i
    let v := f.getD v
    let w := if f.isSome then encode c.slot v (sigOf c.img c.i) c.n else w
    if c.settle then
      ({ l with rot := { l.rot with ret := Mem.set none l.rot.ret c.i (some w) } } : Lane).nextEntry x
        { c.seat with stored := true }
    else
      let t := l.store
      let b := bankOf t 1
      let m := { l with store := { t with
        phys := t.phys.set b.val (Mem.set MemWord.zero t.phys[b] c.i { word := w, ecc := .ok }),
        bitmap := Mem.set false t.bitmap c.i true,
        plain := Mem.set none t.plain c.i (some v),
        redone := if c.p5 then Mem.set false t.redone c.i true else t.redone } }
      let m := if c.p5 then m.statA fun a => { a with dirty := a.dirty + 1 } else m
      m.nextEntry x { c.seat with stored := true }
  else l.raise x c op 1 2 0

/-- END: timer operation and counts of the evaluation take effect, and the seat goes on (R87, R97, R130). The comparisons
and bytes of a settling seat count nowhere, the model's choice (log entry 103). -/
def Lane.endNode (l : Lane) (x : SeatId) (c : Eval) : Lane :=
  if c.settle then
    ({ l with rot := { l.rot with ops := Mem.set none l.rot.ops c.i c.seat.tq } } : Lane).settleDone x c.img c.ent c.i
  else
    let m := { l with store := { l.store with ops := Mem.set none l.store.ops c.i c.seat.tq } }
    let m := m.statA fun a => { a with cvuCmp := a.cvuCmp + c.seat.cmps, cvuFalse := a.cvuFalse + c.seat.falses,
                                       cvuBytes := a.cvuBytes + c.seat.bytes }
    m.advanceSeat x c.img c.i

/-- Performs an effect at the retire stage (R76). -/
def Lane.perform (l : Lane) (x : SeatId) (c : Eval) (op : BitVec 6) : Eff → Lane
  | .reg d v => l.writeReg x c op c.seat d v (encode c.slot v (gTerm d) c.n)
  | .regWord d v w => l.writeReg x c op c.seat d v w
  | .regSubst d v => l.writeReg x c op { c.seat with latch := true } d v (encode c.slot v (gTerm d) c.n)
  | .retire v w => l.retireNode x c op v w
  | .timer t => l.nextEntry x { c.seat with tq := some t }
  | .ctx k => l.nextEntry x { c.seat with ctx := some k }
  | .packed ws => (ws.foldl (fun m p => m.putOut c.settle p.1 p.2) l).nextEntry x c.seat
  | .cvu u fed => l.nextEntry x { c.seat with cvu := u, bytes := c.seat.bytes + fed }
  | .compare d ok v =>
    l.writeReg x c op { c.seat with cmps := c.seat.cmps + 1, falses := c.seat.falses + (!ok && !v).toNat } d (flag ok)
      (encode c.slot (flag ok) (gTerm d) c.n)
  | .jump off => l.setSeat x { c.seat with off := off }
  | .done => l.endNode x c

/-- The evaluation that a seat's next instruction belongs to; none while the seat evaluates no node. -/
def evalOf (l : Lane) (x : SeatId) : Option Eval :=
  let t := l.seat x
  if l.cyc.running && (t.code == 1 || t.code == 3) then
    match l.boot.img, t.node with
    | some img, some i =>
      (img.nodes[i]?).map fun e =>
        { lane := l, slot := l.slot, n := l.cyc.num, img := img, i := i, ent := e, seat := t, settle := t.code == 3,
          p5 := l.cyc.p5 }
    | _, _ => none
  else none

/-- Store address of the entry at the seat's offset (R69, R140). -/
def entryAddr (c : Eval) : Nat := c.ent.pstart.toNat + c.seat.off

/-- The program store's entry is delivered whole and its check holds for the word fetched (R60, R63). -/
def fetchOk (c : Eval) (w : Word) : Bool :=
  match c.img.progs[entryAddr c]? with
  | none => false
  | some e => !c.img.poisoned 2 (8 * entryAddr c) 8 && entryCrc (toLe 4 w.toNat) (entryAddr c) == e.setWidth 32

/-- A settling seat waits for its partner at the end of a node, and at a fault (R111). -/
def settleWaits (l : Lane) (x : SeatId) (c : Eval) (r : Res) : Bool :=
  c.settle && !l.partnerDone x c.i &&
    (match r with
     | .fault .. => true
     | .eff .done => true
     | _ => false)

/-- Counts a clock waited under R106 (R121; log entry 9). -/
def Lane.countWait (l : Lane) (p5 : Bool) : Lane :=
  l.statA fun a => if p5 then { a with p5Wait := a.p5Wait + 1 } else { a with p1Wait := a.p1Wait + 1 }

/-- A node instruction in a seat of a lane: entry checks, then a wait, a fault or the effect. -/
def Lane.runNode (l : Lane) (x : SeatId) (c : Eval) (w : Word) (r : ResE) : Lane :=
  if !nodeSound c.img c.i c.ent then (l.tableFail c.img (dirTable, c.i)).abandon x c
  else match c.img.wrongOf (windowRefs c.img c.ent) with
  | some e => (l.tableFail c.img e).abandon x c
  | none =>
    if !fetchOk c w then
      ((l.noteEcc 0 (c.img.poisoned 2 (8 * entryAddr c) 8).toNat).codeFail 8 (entryAddr c)).abandon x c
    else if settleWaits l x c r.res then l
    else
      let m := l.noteEcc r.corr r.uncorr
      match r.res with
      | .wait => l.countWait c.p5
      | .table k => (m.tableFail c.img (dirTable, k)).abandon x c
      | .fault code site kind => m.raise x c (opcodeOf w) code site kind
      | .eff e =>
        match if e.retires then m.forceBad c.i else none with
        | some k => (m.forceFail k).abandon x c
        | none => m.perform x c (opcodeOf w) e

/-- A node instruction as a command: the word fetched and what it comes to. A seat that evaluates no node executes
nothing. -/
def nodeCommand (l : LaneId) (x : SeatId) (w : Word) (ev : Eval → ResE) (s : State) : State :=
  match evalOf (s.lane l) x with
  | none => s.begin
  | some c => s.begin.modLane l fun m => m.runNode x c w (ev c)

end Sys2Proof.Machine
end

