-- ==== Sys2Proof/Machine/Module.lean ====
section
/-!
DEFINITION. What the lanes share and what every chapter uses: module identity and key derivation
(spec/14_keys_and_trust.md R304, R306, R316; spec/08_field_telegrams.md R169, R171), exchange links and relaying
(spec/01_lanes_and_seats.md R13, R14), transmit lanes (R18), sessions and events (spec/12_cluster_and_host.md R274,
R277), and the keys of the coded buffers (spec/04_node_programs.md R89).
-/
namespace Sys2Proof.Machine
open Config

/-- Module identifier, the same in all three lanes (R304). -/
def mid : BitVec 128 := (0x33644300 : BitVec 32) ++ factorySerial

/-- Bytes of the module identifier. -/
def midBytes : List Byte := bytesOf mid

/-- Blocks 1 to `n` of the counter-mode KDF over label and context (R171, R306). -/
def kdfBlocks (key : BitVec 256) (label ctx : List Byte) (bits : Nat) : Nat → List Byte
  | 0 => []
  | n + 1 => kdfBlocks key label ctx bits n ++
      bytesOf (cmac key (BitVec.ofNat 8 (n + 1) :: label ++ [0] ++ midBytes ++ ctx ++ toBe 2 bits))

/-- The KDF's first `w` bits. -/
def kdf (w : Nat) (key : BitVec 256) (label ctx : List Byte) : BitVec w :=
  ofBytes w ((kdfBlocks key label ctx w ((w + 127) / 128)).take (w / 8))

/-- Label of station keys, "NDT" (R171). -/
def labelStation : List Byte := [0x4E, 0x44, 0x54]

/-- Label of border keys, "NDB" (R316). -/
def labelBorder : List Byte := [0x4E, 0x44, 0x42]

/-- Label of partner keys, "NDH" (R316). -/
def labelPartner : List Byte := [0x4E, 0x44, 0x48]

/-- A key of this lane under a label, for a station or an area, at a generation (R171, R316); none while the security block
is zeroised for its scan (R320). -/
def Lane.keyFor (l : Lane) (x : LaneId) (label : List Byte) (stn gen : Word) : Option (BitVec 256) :=
  if l.sec.zeroed then none else l.nv.master.map fun m => kdf 256 m label ([x.byte] ++ bytesOf stn ++ bytesOf gen)

/-- First 8 bytes of a MAC (R169). -/
def tagOf (key : BitVec 256) (b : List Byte) : BitVec 64 := (cmac key b).extractLsb' 64 64

/-- Key K_M of the module KDF (R306). -/
def moduleKey (secret : BitVec 384) : BitVec 256 :=
  (sha384 ([0x4E, 0x44, 0x4B, 0x4D] ++ bytesOf secret)).extractLsb' 128 256

/-- MK(label, C, w) (R306). -/
def mk (w : Nat) (secret : BitVec 384) (label ctx : List Byte) : BitVec w := kdf w (moduleKey secret) label ctx

/-- Seed of the identity key (R307). -/
def identitySeed (secret : BitVec 384) : BitVec 448 := mk 448 secret [0x4E, 0x44, 0x49] (List.replicate 9 0)

/-- The exchange link between two lanes. -/
def linkOf (l m : LaneId) : Nat :=
  if l = .a && m = .b || l = .b && m = .a then 0 else if l = .b && m = .c || l = .c && m = .b then 1 else 2

/-- The link between two lanes is up. -/
def State.linkUp (s : State) (l m : LaneId) : Bool := s.links.getLsbD (linkOf l m)

/-- How a message crosses between two lanes: not at all, or directly (false) or relayed by the third lane (true),
while exactly one link is down (R14). -/
def State.route (s : State) (l m : LaneId) : Option Bool :=
  if s.linkUp l m then some false
  else if s.linkUp l (l.third m) && s.linkUp (l.third m) m then some true else none

/-- Sends a message to a peer. -/
def State.xsend (s : State) (l m : LaneId) (msg : XMsg) : State :=
  match s.route l m with
  | none => s
  | some r => s.emit (.xl l m r msg)

/-- Sends a message to both peers. -/
def State.xcast (s : State) (l : LaneId) (msg : XMsg) : State := (s.xsend l l.next msg).xsend l l.prev msg

/-- Both links of a lane are down (R14). -/
def State.isolated (s : State) (l : LaneId) : Bool := !s.linkUp l l.next && !s.linkUp l l.prev

/-- A lane relays between the other two: exactly the link between them is down (R14). -/
def State.relays (s : State) (l : LaneId) : Bool :=
  s.linkUp l l.next && s.linkUp l l.prev && !s.linkUp l.next l.prev

/-- A lane holds itself in service. -/
def Lane.serves (l : Lane) (x : LaneId) : Bool := l.vote.service.has x

/-- State code of a lane as another lane holds it (R213). -/
def Lane.codeOf (l : Lane) (x : LaneId) : BitVec 4 := l.vote.codes.get x

/-- The lane runs its phases: in service or in shadow (R207, R209). -/
def Lane.phased (l : Lane) (x : LaneId) : Bool := l.codeOf x == 1 || l.codeOf x == 5

/-- The module holds the ACTIVE role, as the lane knows it (R237). -/
def Lane.active (l : Lane) : Bool := l.mode.armed && l.ptn.role == 0

/-- The lane evaluates nodes: a standby does so only from the adoption of a snapshot (R253). -/
def Lane.evaluates (l : Lane) : Bool := l.ptn.role != 2 || l.ptn.adopted

/-- The logic runs in the mode (R287). -/
def logicRuns (mode : BitVec 3) : Bool := mode == 1 || mode == 2 || mode == 4

/-- No lane is armed, so the module is in START or was never released (R134). -/
def State.unarmed (s : State) : Bool := !s.la.mode.armed && !s.lb.mode.armed && !s.lc.mode.armed

/-- Own slot address (R137). -/
def Image.own (img : Image) : Byte := img.slot

/-- PARTNER_SLOT (R137). -/
def Image.partnerSlot (img : Image) : Byte := if img.own = img.hdr.slot1 then img.hdr.slot2 else img.hdr.slot1

/-- The order in which a port looks for its transmit lane (R18). -/
def portOrder : Port → List LaneId
  | .j4 | .j6 | .j9 | .j10 => [.a, .b, .c]
  | .j5 | .j7 => [.c, .b, .a]
  | .j8 => [.b, .c, .a]

/-- Every port. -/
def portList : List Port := [.j4, .j5, .j6, .j7, .j8, .j9, .j10]

/-- The transmit lane of a port as a lane knows it. -/
def Lane.txOf (l : Lane) (p : Port) : Option LaneId := (l.tx.find? fun q => q.1 == p).map (·.2)

/-- A lane runs cycles or sleeps between them: roles change at boundaries alone (R18). -/
def State.hasBoundaries (s : State) : Bool := laneList.any fun x => (s.lane x).mode.armed && (s.lane x).mode.mode != 5

/-- The lane that transmits on a port: the one that holds the role. The role passes only at a boundary (R18); while the
module has none, as in START, it is the first live lane in the port's order, one that has loaded an image before one that
has not (log entry 21). -/
def State.txLane (s : State) (p : Port) : Option LaneId :=
  match laneList.find? fun x => (s.lane x).txOf p == some x with
  | some x => some x
  | none =>
    if s.hasBoundaries then none
    else match (portOrder p).find? fun x => (s.lane x).live && (s.lane x).boot.img.isSome with
    | some x => some x
    | none => (portOrder p).find? fun x => (s.lane x).live

/-- The port by which a session's traffic leaves (R274). -/
def Session.port (k : Session) : Port := if k.tunnel.isSome then .j6 else if k.ownJ10 then .j10 else .j9

/-- The session with a number. -/
def State.session (s : State) (id : Nat) : Option Session := s.sessions.find? fun k => k.id == id

/-- Replaces a session. -/
def State.setSession (s : State) (k : Session) : State :=
  { s with sessions := s.sessions.map fun j => if j.id = k.id then k else j }

/-- The response lane of a session (R381): the lane that sends its responses, which must hold the session's keys
(R310). -/
def State.respLane (s : State) (k : Session) : Option LaneId := (s.txLane k.port).filter fun x => k.lanes.has x

/-- A lane that leaves a session: its keys, selectors and latches there are gone (R310, R383). -/
def Session.leave (k : Session) (x : LaneId) : Session :=
  { k with lanes := k.lanes.put x false, sels := k.sels.put x Sels.init, latches := k.latches.put x [] }

/-- A reset lane loses its session keys; a session that no lane holds is gone, with what waits in it. -/
def State.dropKeys (s : State) (x : LaneId) : State :=
  let ks := (s.sessions.map fun k => k.leave x).filter fun k => k.lanes.count != 0
  let held (id : Nat) : Bool := ks.any fun k => k.id == id
  { s with sessions := ks, reads := s.reads.filter (fun r => held r.sess), pkgs := s.pkgs.filter (fun w => held w.sess) }

/-- Records with their positions. -/
def positions {α : Type} (rs : List α) : List (Nat × α) := (List.range rs.length).zip rs

/-- Half-words of a context with their buffer keys and the keys of their reader lists (R89, R142). -/
def slotsOf (ck : BitVec 2) (index count : Nat) : List (Nat × Nat) :=
  (List.range count).map fun k => (ctxKey ck index k, readerKey ck index k)

/-- Inbound half-words of a station. -/
def stationIn (r : StationRec) (p : Nat) : List (Nat × Nat) := slotsOf 0 p ((r.stLen.toNat + 1) / 2)

/-- Inbound half-words of a neighbour. -/
def nbIn (n : NbRec) (q : Nat) : List (Nat × Nat) := slotsOf 1 q n.inCount.toNat

/-- Inbound half-words of the local inputs. -/
def localIn : List (Nat × Nat) := slotsOf 2 0 32

/-- Inbound half-words of the host slots. -/
def hostIn : List (Nat × Nat) := slotsOf 3 0 4096

/-- Every inbound half-word of an image. -/
def inSlots (img : Image) : List (Nat × Nat) :=
  ((positions img.stations).flatMap fun p => stationIn p.2 p.1) ++
    ((positions img.nbs).flatMap fun p => nbIn p.2 p.1) ++ localIn ++ hostIn

/-- Outbound buffer keys of a station. -/
def stationOutKeys (r : StationRec) (p : Nat) : List Nat :=
  (List.range ((r.cmdLen.toNat + 1) / 2)).map fun k => ctxKey 0 p k

/-- Outbound buffer keys of a neighbour. -/
def nbOutKeys (n : NbRec) (q : Nat) : List Nat := (List.range n.outCount.toNat).map fun k => ctxKey 1 q k

/-- Keys of the local buffers. -/
def localKeys : List Nat := (List.range 32).map fun k => ctxKey 2 0 k

/-- Outbound half-words of an image with their restrictive values (R93, R143). -/
def outRestrictive (img : Image) : List (Nat × Half) :=
  ((positions img.stations).flatMap fun p =>
      let b := ((img.restr[p.1]?).map (·.bytes)).getD []
      (List.range ((p.2.cmdLen.toNat + 1) / 2)).map fun k =>
        (ctxKey 0 p.1 k, byteAt b (2 * k) ++ byteAt b (2 * k + 1))) ++
    (img.outs.map fun o =>
      (ctxKey 1 o.q.toNat o.slot.toNat, ((img.nodes[o.node.toNat]?).map (·.rval)).getD 0)) ++
    (localKeys.map fun k => (k, 0))

/-- Words of every node's restrictive value under cycle number `n` (R56). -/
def restrictiveWords (slot : BitVec 2) (img : Image) (n : Cycle) : List (Nat × MemWord) :=
  (positions img.nodes).map fun p =>
    (p.1, { word := encode slot p.2.rval (sigNode p.2.tag) n, ecc := .ok })

/-- Writes one list of words into two physical banks (R56). -/
def Store.writeBoth (t : Store) (ws : List (Nat × MemWord)) : Store :=
  let c := t.cur
  let p := t.cur + 2
  let a := t.phys.set c.val (Mem.setAll MemWord.zero t.phys[c] ws)
  { t with phys := a.set p.val (Mem.setAll MemWord.zero a[p] ws) }

/-- The current and the previous bank in the restrictive state under cycle number `n` (R56, R253). -/
def Lane.restrictBanks (l : Lane) (img : Image) (n : Cycle) : Lane :=
  { l with store := { l.store.writeBoth (restrictiveWords l.slot img n) with bcnCur := n, bcnPrev := n } }

/-- Idle timers and untaken buffers under cycle number `n`: inbound half-words 0 with stations, neighbours and local
inputs SUBST, host half-words VALID (R85, R178, R272, R279; log entry 2). -/
def Lane.clearBuffers (l : Lane) (img : Image) (n : Cycle) : Lane :=
  let ws := Mem.setAll 0 [] ((inSlots img).map fun k => (k.1, encode l.slot 0 (sigKey inByte k.1) n))
  let sub := Mem.setAll false [] ((inSlots img).map fun k => (k.1, decide (k.1 < ctxKey 3 0 0)))
  { l with store := { l.store with
      timers := Mem.setAll 0 [] ((List.range img.hdr.timers).map fun h => (h, encode l.slot 0 (sigTimer h) n)),
      acc := 0, inP1 := ws, inP5 := ws, subP1 := sub, subP5 := sub,
      out := Mem.setAll 0 [] ((outRestrictive img).map fun p => (p.1, encode l.slot p.2 (sigKey outByte p.1) n)),
      poison := [] } }

end Sys2Proof.Machine
end

