-- ==== Sys2Proof/Machine/Field.lean ====
section
/-!
DEFINITION. Intake of status telegrams in a lane (spec/08_field_telegrams.md R162 to R177, spec/03_coded_state.md R62 to
R65, spec/02_the_cycle.md R28), ARP (R164), and the refusal of wrong table entries (R63, R135).
-/
namespace Sys2Proof.Machine

/-- The station record at a position holds its check (R63). -/
def stationSound (img : Image) (p : Nat) : Bool := img.tableSound stationTable p

/-- The neighbour record `q` holds its check (R63). -/
def nbSound (img : Image) (q : Nat) : Bool := img.tableSound nbTable q

/-- The policy record at an index holds its check (R63). -/
def policySound (img : Image) (k : Nat) : Bool := img.tableSound policyTable k

/-- Why a status telegram is discarded (R175). -/
inductive TelFail where
  | partner | format | tag | echo | old
  deriving DecidableEq, Repr

/-- x is newer than y in serial arithmetic on `w` bits (R176). -/
def newer {w : Nat} (x y : BitVec w) : Bool := x != y && (x - y).toNat < 2 ^ (w - 1)

/-- Network record of a field network. -/
def Image.netOf (img : Image) : NetId → NetRec
  | .a => img.netA
  | .b => img.netB

/-- Address of a station on a field network. -/
def StationRec.ipOn (r : StationRec) : NetId → Word
  | .a => r.ipA
  | .b => r.ipB

/-- Whether a frame passes R163 on a network. -/
def frameOk (n : NetRec) (f : FieldFrame) : Bool :=
  f.fcsOk && f.tagged && f.vid.toNat == n.vid.toNat && !f.options && !f.fragment &&
    (f.dstIp == n.modIp || f.dstIp == n.mcast) && f.dstPort == n.stPort && f.sumOk

/-- LEN field of a status telegram (R167). -/
def telLen (d : List Byte) : Nat := beAt d 0x20 2

/-- UDP length against LEN (R166): 58 + LEN bytes. -/
def telLengthOk (d : List Byte) : Bool := 58 ≤ d.length && d.length == 58 + telLen d

/-- The record of a station. -/
def Lane.stn (l : Lane) (p : Nat) : StnRec := Mem.get StnRec.init l.field.stns p

/-- Applies a function to the record of a station. -/
def Lane.modStn (l : Lane) (p : Nat) (f : StnRec → StnRec) : Lane :=
  { l with field := { l.field with stns := Mem.set StnRec.init l.field.stns p (f (l.stn p)) } }

/-- Generation record of a station (R172). -/
def Lane.gen (l : Lane) (p : Nat) : Option GenRec := Mem.get none l.nv.gens p

/-- A generation is the current or the pending one of a station (R172). -/
def Lane.genOk (l : Lane) (p : Nat) (g : Word) : Bool :=
  match l.gen p with
  | none => false
  | some r => g == r.cur || r.pend == some g

/-- Checks 1 to 5 of R175: the position of the telegram's station. -/
def Lane.telStation (l : Lane) (img : Image) (net : NetId) (src : Word) (d : List Byte) : Except TelFail Nat :=
  if !telLengthOk d then .error .format
  else if byteAt d 0x13 != img.own then .error .partner
  else if byteAt d 0 != 1 || byteAt d 1 != 0x53 || beAt d 8 4 != img.params.areaId.toNat then .error .format
  else
    match (positions img.stations).find? fun p => p.2.stnId.toNat == beAt d 4 4 && p.2.ipOn net == src with
    | none => .error .format
    | some (p, r) =>
      if byteAt d 2 != r.stFmt || telLen d != r.stLen.toNat then .error .format
      else if !l.genOk p (BitVec.ofNat 32 (beAt d 0x1C 4)) then .error .format
      else .ok p

/-- This lane's tag on a status telegram (R169, R65). -/
def Lane.telTagOk (l : Lane) (x : LaneId) (stn : Word) (d : List Byte) : Bool :=
  let n := 0x22 + telLen d
  match l.keyFor x labelStation stn (BitVec.ofNat 32 (beAt d 0x1C 4)) with
  | none => false
  | some k => bytesOf (tagOf k (slice d 0 n)) == slice d (n + 8 * x.num) 8

/-- Half-word `k` of a telegram's payload (R166). -/
def payHalf (d : List Byte) (k : Nat) : Half :=
  let pay := slice d 0x22 (telLen d)
  byteAt pay (2 * k) ++ byteAt pay (2 * k + 1)

/-- The telegram as the lane keeps it: header values in plain form, payload coded under D(n) (R65, R175); `err` is what the
intake coder adds wrongly to the first word that it forms, 0 where it works (R57). -/
def Lane.codeTel (l : Lane) (p : Nat) (net : NetId) (d : List Byte) (n : Cycle) (err : Coded) : Tel :=
  { seq := BitVec.ofNat 32 (beAt d 0x18 4), echoCyc := BitVec.ofNat 48 (beAt d 0xC 6), echoCmdr := byteAt d 0x12,
    echoEp := BitVec.ofNat 32 (beAt d 0x14 4), keyGen := BitVec.ofNat 32 (beAt d 0x1C 4),
    cmdMiss := (byteAt d 3).getLsbD 0, net := net,
    halves := (List.range ((telLen d + 1) / 2)).map fun k =>
      encode l.slot (payHalf d k) (sigHalf inByte p k) n + (if k = 0 then err else 0) }

/-- Every word formed decodes back to the bytes held (R57, R65 step 1). -/
def Lane.coderBack (l : Lane) (p : Nat) (t : Tel) (d : List Byte) (n : Cycle) : Bool :=
  (positions t.halves).all fun h => decode l.slot h.2 (sigHalf inByte p h.1) n == some (payHalf d h.1)

/-- Every coded half-word of a telegram decodes under D(n) (R57, R62). -/
def Lane.telCoded (l : Lane) (p : Nat) (t : Tel) (n : Cycle) : Bool :=
  (positions t.halves).all fun h => (decode l.slot h.2 (sigHalf inByte p h.1) n).isSome

/-- A standby or candidate that has not adopted the active's cycle numbers yet: its own numbers say nothing of an ECHO_CYC
(R238, R253). -/
def Lane.ownNumbers (l : Lane) : Bool := !l.ptn.adopted && (l.ptn.role == 2 || l.ptn.role == 4)

/-- The ECHO fields are acceptable in cycle n (R177). -/
def Lane.echoOk (l : Lane) (t : Tel) (n : Cycle) : Bool :=
  let pair := some (t.echoCmdr, t.echoEp)
  ((t.echoCmdr == 0xFF && t.echoCyc == 0 && t.echoEp == 0) || pair == l.fail.curCmdr || pair == l.fail.prevCmdr) &&
    (t.echoCyc.toNat < n.toNat || l.ownNumbers)

/-- The telegram carries an echo (R177). -/
def Tel.echoes (t : Tel) : Bool := t.echoCmdr != 0xFF

/-- Checks 7 and 8 of R175. -/
def Lane.telLate (l : Lane) (p : Nat) (t : Tel) (n : Cycle) : Option TelFail :=
  if !l.echoOk t n then some .echo
  else
    match (l.stn p).lastSeq with
    | some s => if newer t.seq s then none else some .old
    | none => none

/-- Counts a discard (R175, R192). -/
def Lane.countDiscard (l : Lane) (net : NetId) : TelFail → Lane
  | .partner => l.statB fun b => match net with
    | .a => { b with ptnA := b.ptnA + 1 }
    | .b => { b with ptnB := b.ptnB + 1 }
  | .format => l.statB fun b => { b with dFormat := b.dFormat + 1 }
  | .tag => l.statB fun b => { b with dTag := b.dTag + 1 }
  | .echo => l.statB fun b => { b with dEcho := b.dEcho + 1 }
  | .old => l.statB fun b => { b with dOld := b.dOld + 1 }

/-- Counts a valid telegram (R192) and keeps E_X for the recorder (R371). -/
def Lane.countValid (l : Lane) (p : Nat) (t : Tel) : Lane :=
  let up (e : Option Cycle) : Option Cycle :=
    if !t.echoes then e
    else match e with
      | none => some t.echoCyc
      | some v => if v.toNat < t.echoCyc.toNat then some t.echoCyc else some v
  match t.net with
  | .a => (l.statB fun b => { b with validA := b.validA + 1 }).modStn p fun r => { r with exA := up r.exA }
  | .b => (l.statB fun b => { b with validB := b.validB + 1 }).modStn p fun r => { r with exB := up r.exB }

/-- The candidate of a station (R176). -/
def Lane.cand (l : Lane) (p : Nat) : Option Tel := Mem.get none l.field.cands p

/-- A valid telegram becomes the candidate when it is the newest; the other one counts as OLD (R176, R191). Its frame
goes to the fetch store (R193). -/
def Lane.offer (l : Lane) (p : Nat) (t : Tel) (net : NetId) (fr : FieldFrame) : Lane :=
  let l := l.countValid p t
  let take (m : Lane) : Lane := { m with field := { m.field with
    cands := Mem.set none m.field.cands p (some t), store := Mem.set none m.field.store p (some (net, fr)) } }
  match l.cand p with
  | none => take l
  | some c => if newer t.seq c.seq then take (l.countDiscard net .old) else l.countDiscard net .old

/-- A station record whose entry check fails is a code check failure when it is used (R63). -/
def Lane.useStation (l : Lane) (img : Image) (p : Nat) : Lane × Bool :=
  l.useTables img [(stationTable, p)]

/-- What becomes of a telegram under checks 1 to 6 (R175), coded under D(n): the coder's words are decoded back before the
tag is verified, and a difference costs the telegram alone (R57, R65). -/
def Lane.admitTel (l : Lane) (x : LaneId) (img : Image) (net : NetId) (fr : FieldFrame) (n : Cycle) :
    Lane × Option (Nat × Tel) :=
  let u := l.useTables img [(paramTable, 0)]
  if !u.2 then (u.1, none)
  else match l.telStation img net fr.srcIp fr.data with
  | .error e => (l.countDiscard net e, none)
  | .ok p =>
    let u := l.useStation img p
    let t := l.codeTel p net fr.data n fr.coderErr
    if !u.2 then (u.1, none)
    else if !l.coderBack p t fr.data n then (l.codeNote 5 p, none)
    else if !l.telTagOk x ((img.stations[p]?.map (·.stnId)).getD 0) fr.data then (l.countDiscard net .tag, none)
    else (l, some (p, t))

/-- A frame on a field network: the network record is checked, then the frame (R63, R163), then the telegram. -/
def Lane.receiveTel (l : Lane) (x : LaneId) (img : Image) (net : NetId) (fr : FieldFrame) (n : Cycle) :
    Lane × Option (Nat × Tel) :=
  let u := l.useTables img [(netTable, 0)]
  if !u.2 then (u.1, none)
  else if !frameOk (img.netOf net) fr then (l.countDiscard net .format, none)
  else l.admitTel x img net fr n

/-- A frame taken before the freeze is offered at once; one at the freeze or later is held for the next cycle (R28). -/
def Lane.takeTel (l : Lane) (p : Nat) (t : Tel) (net : NetId) (fr : FieldFrame) : Lane :=
  if l.cyc.frozen then { l with field := { l.field with held := l.field.held ++ [(p, t, net, fr)] } }
  else
    match l.telLate p t l.cyc.num with
    | some e => l.countDiscard net e
    | none => l.offer p t net fr

/-- A field port is not down in the lane (R333). -/
def Lane.fieldPortUp (l : Lane) : Bool := !l.meter.portDown.getLsbD 6

/-- A lane takes in status telegrams (R287, R253): it is armed, the logic runs, and its port is not down. -/
def Lane.takesField (l : Lane) : Bool := l.live && l.mode.armed && logicRuns l.mode.mode && l.fieldPortUp

/-- The echo of a tag-valid telegram, for the commander epoch of a cold start (R253). -/
def Lane.noteEcho (l : Lane) (t : Tel) : Lane :=
  if !t.echoes then l
  else { l with fail := { l.fail with
    echoes := (l.fail.echoes.filter fun e => e.1 != t.echoEp || e.2.1 != t.echoCmdr) ++
      [(t.echoEp, t.echoCmdr, l.cyc.num)] } }

/-- A lane whose logic does not run receives as R163 states and keeps only the echoes (R164, R253). -/
def Lane.hearsField (l : Lane) : Bool :=
  l.live && !(l.mode.armed && logicRuns l.mode.mode) && !l.boot.stopped && l.fieldPortUp

/-- Counts a frame that R163 lets pass (R192). -/
def Lane.countFrame (l : Lane) (net : NetId) : Lane :=
  l.statB fun b => match net with
    | .a => { b with rxA := b.rxA + 1 }
    | .b => { b with rxB := b.rxB + 1 }

/-- STATUS_TELEGRAM_RX (R163, R164, R166, R175, R28, R253). -/
def execStatusTelegramRx (l : LaneId) (net : NetId) (fr : FieldFrame) (s : State) : Answer :=
  let s := s.begin
  let m := s.lane l
  match m.boot.img with
  | none => .next s
  | some img =>
    if !(m.takesField || m.hearsField) then .next s
    else
      let k := if img.tableSound netTable 0 && frameOk (img.netOf net) fr then m.countFrame net else m
      let r := k.receiveTel l img net fr m.cyc.num
      match r.2 with
      | none => .next (s.setLane l r.1)
      | some (p, t) =>
        let k := r.1.noteEcho t
        .next (s.setLane l (if m.takesField then k.takeTel p t net fr else k))

/-- A held telegram enters the intake of cycle n at its boundary: each half-word moves to D(n) by Q_lane and is checked
(R62), then checks 7 and 8 apply (R28, R175); check 5 is not made again, the model's choice (log entry 108). -/
def Lane.takeHeld (l : Lane) (h : Nat × Tel × NetId × FieldFrame) (n : Cycle) : Lane :=
  let p := h.1
  let t := { h.2.1 with halves := h.2.1.halves.map fun c => c + Config.qOf l.slot }
  if !l.telCoded p t n then l.codeNote 7 p
  else
    match l.telLate p t n with
    | some e => l.countDiscard h.2.2.1 e
    | none => l.offer p t h.2.2.1 h.2.2.2

/-- Intake at the boundary that opens cycle n: what the cycle before left is gone, held telegrams are taken (R28). -/
def Lane.openIntake (l : Lane) (n : Cycle) : Lane :=
  let hs := l.field.held
  let l := { l with field := { l.field with
    cands := [], store := [], held := [], reported := [], targets := [], hold := [], agreed := [], inSet := [],
    fetches := [], r1 := PerLane.const none, r2 := PerLane.const none, r2Sent := false, r1Done := false } }
  if l.fieldPortUp then hs.foldl (fun m h => m.takeHeld h n) l else l

/-- The sum of half-words in one's complement arithmetic, as IPv4 and UDP check it (R162). -/
def onesSum (hs : List Nat) : Nat :=
  let t := hs.sum
  let u := t % 65536 + t / 65536
  u % 65536 + u / 65536

/-- The checksum over some bytes, most significant byte first. -/
def inetSum (b : List Byte) : Half := ~~~BitVec.ofNat 16 (onesSum ((List.range ((b.length + 1) / 2)).map fun k =>
  (byteAt b (2 * k)).toNat * 256 + (byteAt b (2 * k + 1)).toNat))

/-- A UDP datagram between two addresses and ports, with its checksum (R162). -/
def udpBytes (src dst : Word) (sp dp : Half) (data : List Byte) : List Byte :=
  let n := 8 + data.length
  let head (c : Half) : List Byte := bytesOf sp ++ bytesOf dp ++ toBe 2 n ++ bytesOf c
  let c := inetSum (bytesOf src ++ bytesOf dst ++ [0, 17] ++ toBe 2 n ++ head 0 ++ data)
  head (if c = 0 then 0xFFFF else c) ++ data

/-- An IPv4 packet of 20 header bytes with DF set and a TTL of 64 (R162). -/
def ipBytes (src dst : Word) (data : List Byte) : List Byte :=
  let o := Config.ipOpen data
  let head (c : Half) : List Byte := [0x45, o.1] ++ toBe 2 (20 + data.length) ++ bytesOf o.2 ++ [0x40, 0, 64, 17] ++ bytesOf c ++
    bytesOf src ++ bytesOf dst
  head (inetSum (head 0)) ++ data

/-- CRC-32 of an Ethernet frame as it is sent, least significant byte first (R123, R162). -/
def fcsOf (b : List Byte) : List Byte :=
  let p := polyOf 1
  toLe 4 ((polyBytes p p.init b ^^^ p.fin).setWidth 32 : Word).toNat

/-- MAC address of a station on a network, as ARP resolved it (R164). -/
def Lane.macOf (l : Lane) (p : Nat) (r : StationRec) (net : NetId) : BitVec 48 :=
  match (match net with
    | .a => (l.stn p).macA
    | .b => (l.stn p).macB) with
  | some m => m
  | none => Config.macUnresolved (r.ipOn net)

/-- The frame that carries a command telegram to a station (R162, R164). -/
def Lane.fieldFrame (l : Lane) (x : LaneId) (img : Image) (net : NetId) (p : Nat × StationRec) (b : List Byte) : List Byte :=
  let n := img.netOf net
  let f := bytesOf (l.macOf p.1 p.2 net) ++ bytesOf (Config.portMac net x) ++ [0x81, 0x00] ++
    toBe 2 (n.pcp.toNat * 8192 + n.vid.toNat) ++ [0x08, 0x00] ++
    ipBytes n.modIp (p.2.ipOn net) (udpBytes n.modIp (p.2.ipOn net) n.cmdPort p.2.udp b)
  f ++ fcsOf f

/-- ARP_RX (R164): a module in ACTIVE answers for MOD_IP. -/
def execArpRx (net : NetId) (target : Word) (s : State) : Answer :=
  let s := s.begin
  let port : Port := match net with
    | .a => .j4
    | .b => .j5
  match s.txLane port with
  | none => .next s
  | some x =>
    match (s.lane x).boot.img with
    | none => .next s
    | some img =>
      let u := (s.lane x).useTables img [(netTable, 0)]
      if !u.2 then .next (s.setLane x u.1)
      else if (s.lane x).active && target == (img.netOf net).modIp then .next (s.emit (.arpReply net target)) else .next s

/-- ARP_REFRESH (R164): every 60 s a module in ACTIVE asks for a station's MAC address; the answer is kept. -/
def execArpRefresh (net : NetId) (pos : Nat) (mac : BitVec 48) (s : State) : Answer :=
  let s := s.begin
  let port : Port := match net with
    | .a => .j4
    | .b => .j5
  match s.txLane port with
  | none => .next s
  | some x =>
    match (s.lane x).boot.img with
    | none => .next s
    | some img =>
      match img.stations[pos]? with
      | none => .next s
      | some r =>
        let u := (s.lane x).useStation img pos
        if !(s.lane x).active then .next s
        else if !u.2 then .next (s.setLane x u.1)
        else
          .next ((s.mapLanes fun _ m => if m.active then m.modStn pos fun q => match net with
              | .a => { q with macA := some mac }
              | .b => { q with macB := some mac } else m).emit (.arpRequest net (r.ipOn net)))

end Sys2Proof.Machine
end

