-- ==== Sys2Proof/Machine/Agreement.lean ====
section
/-!
DEFINITION. Agreement on the input set and the correction it starts (spec/09_agreement_and_vote.md R193 to R197;
spec/05_seats_at_work.md R116 to R119; spec/02_the_cycle.md R27, R30, R31, R36; spec/11_partner_and_failover.md R241,
R245, R248).
-/
namespace Sys2Proof.Machine

/-- A lane runs a cycle with its logic (R24, R287). -/
def Lane.inCycle (l : Lane) : Bool := l.live && l.mode.armed && logicRuns l.mode.mode && l.cyc.running

/-- Keeps the smallest slack to a deadline, in units of 10 µs (R45); of equal ones the first noted stands, the model's
choice (log entry 98). -/
def Lane.noteSlack (l : Lane) (phase : BitVec 4) (slack : Nat) : Lane :=
  l.statA fun a => match a.slack with
    | none => { a with slack := some (slack, phase) }
    | some (v, _) => if slack < v then { a with slack := some (slack, phase) } else a

/-- A phase completes at instant `t`: within its deadline, or the cycle drops (R24, R36). -/
def Lane.meet (l : Lane) (phase : BitVec 4) (deadline t : Nat) : Lane :=
  if t ≤ deadline then l.noteSlack phase (deadline - t) else l.dropCycle 1 phase

/-- The lane status frame of a lane (R13, R203, R245, R335) with the links up and whether it relays. -/
def Lane.statusFrame (l : Lane) (x : LaneId) (links : BitVec 3) (relays : Bool) : LaneStatus :=
  { cyc := l.cyc.num, arrival := 0, relayed := false, service := l.vote.service,
    overs := (noLanes.put x.next (2 ≤ l.meter.runNext)).put x.prev (2 ≤ l.meter.runPrev),
    takeover := l.fail.takeMine, code := l.codeOf x, mode := l.mode.mode, dropped := l.cyc.lastLane,
    outvotes := PerLane.mapAll List.length l.vote.wins, seats := l.seats.toList.map (·.code),
    devNext := l.meter.devNext, devPrev := l.meter.devPrev, links := links, relays := relays,
    portDown := l.meter.portDown }

/-- The lane status frame that a lane of the module sends. -/
def State.statusOf (s : State) (x : LaneId) : LaneStatus := (s.lane x).statusFrame x s.links (s.relays x)

/-- Newest of a list of 16-bit numbers in serial arithmetic (R195). -/
def newest : List Half → Option Half
  | [] => none
  | v :: r => some (r.foldl (fun b w => if newer w b then w else b) v)

/-- What each lane in service reports for the stations, as a lane holds it (R194, R209). -/
def Lane.reports (l : Lane) (x : LaneId) : PerLane (List (Nat × Half)) :=
  let of (y : LaneId) : List (Nat × Half) :=
    if !l.serves y then []
    else if y = x then l.field.reported.filterMap fun p => p.2.map fun v => (p.1, v)
    else ((l.field.r1.get y).map (·.cands)).getD []
  { a := of .a, b := of .b, c := of .c }

/-- What a lane reports for a station. -/
def reportOf (r : PerLane (List (Nat × Half))) (y : LaneId) (p : Nat) : Option Half :=
  ((r.get y).find? fun q => q.1 == p).map (·.2)

/-- What the lanes report for a station, in lane order. -/
def reportsFor (r : PerLane (List (Nat × Half))) (p : Nat) : List Half := laneList.filterMap fun y => reportOf r y p

/-- The candidate has a given OC_SEQ[15:0]. -/
def Lane.candIs (l : Lane) (p : Nat) (v : Half) : Option Tel := (l.cand p).filter fun t => t.seq.setWidth 16 == v

/-- Every peer in service has sent its round-1 frame of the cycle. -/
def Lane.heardAll (l : Lane) (x : LaneId) : Bool :=
  laneList.all fun y => y == x || !l.serves y || (l.field.r1.get y).isSome

/-- Settles the target of one station: held from the own candidate, or to be fetched (R195). -/
def Lane.settleTarget (l : Lane) (r : PerLane (List (Nat × Half))) (acc : Lane × List (LaneId × Nat)) (p : Nat) :
    Lane × List (LaneId × Nat) :=
  match newest (reportsFor r p) with
  | none => acc
  | some v =>
    let m := acc.1
    let f := { m.field with targets := Mem.set none m.field.targets p (some v) }
    match l.candIs p v with
    | some t => ({ m with field := { f with hold := Mem.set none f.hold p (some t) } }, acc.2)
    | none =>
      match laneList.find? fun y => reportOf r y p == some v with
      | none => ({ m with field := f }, acc.2)
      | some y => ({ m with field := { f with fetches := f.fetches ++ [p] } }, acc.2 ++ [(y, p)])

/-- Settles the targets and lists the fetches (R195); records the lanes heard (R213). -/
def Lane.settleTargets (l : Lane) (x : LaneId) (stations : Nat) : Lane × List (LaneId × Nat) :=
  let r := l.reports x
  let heard := LaneSet.those fun y => if y = x then true else l.serves y && (l.field.r1.get y).isSome
  let m := l.statB fun b => { b with heard := heard }
  let m := { m with field := { m.field with r1Done := true } }
  (List.range stations).foldl (l.settleTarget r) (m, [])

/-- Settles the targets of a lane and sends its fetch requests (R195). -/
def State.settleRound1 (s : State) (x : LaneId) : State :=
  let l := s.lane x
  match l.boot.img with
  | none => s
  | some img =>
    let r := l.settleTargets x img.stations.length
    r.2.foldl (fun t q => t.xsend x q.1 (.fetch q.2)) (s.setLane x r.1)

/-- Round 1 is open: the lane has closed its input set and settled no targets. -/
def Lane.round1Open (l : Lane) (x : LaneId) : Bool := l.inCycle && l.phased x && l.cyc.frozen && !l.field.r1Done

/-- Settles the targets at once when every round-1 frame is held. -/
def State.tryRound1 (s : State) (x : LaneId) : State :=
  if (s.lane x).round1Open x && (s.lane x).heardAll x then s.settleRound1 x else s

/-- ROUND1_FRAME_RX (R194): a frame of the running cycle from a lane in service, until the targets are settled. -/
def execRound1FrameRx (l sender : LaneId) (f : Round1) (s : State) : Answer :=
  let s := s.begin
  let m := s.lane l
  if m.inCycle && m.phased l && m.serves sender && sender != l && f.cyc == m.cyc.num && !m.field.r1Done then
    .next ((s.setLane l { m with field := { m.field with r1 := m.field.r1.put sender (some f) } }).tryRound1 l)
  else .next s

/-- ROUND1_DEADLINE (R194, R195): a lane not heard by now reports no candidates. -/
def execRound1Deadline (l : LaneId) (s : State) : Answer :=
  let s := s.begin
  if (s.lane l).round1Open l then .next (s.settleRound1 l) else .next s

/-- TELEGRAM_FETCH_RX (R193): the frame of the lane's candidate from the fetch store. -/
def execTelegramFetchRx (l sender : LaneId) (pos : Nat) (s : State) : Answer :=
  let s := s.begin
  let m := s.lane l
  match Mem.get none m.field.store pos with
  | some (net, fr) => if m.live then .next (s.xsend l sender (.fetchReply pos net fr)) else .next s
  | none => .next s

/-- A fetched copy is the target: it passes every check of R175 in this lane (R195). -/
def Lane.fetchedIs (l : Lane) (pos : Nat) (r : Option (Nat × Tel)) : Option Tel :=
  match r with
  | none => none
  | some (p, t) =>
    if p == pos && (l.telLate p t l.cyc.num).isNone && Mem.get none l.field.targets pos == some (t.seq.setWidth 16)
    then some t else none

/-- FETCH_REPLY_RX (R195): the copy counts as if it had arrived at the lane's own port. -/
def execFetchReplyRx (l : LaneId) (pos : Nat) (net : NetId) (fr : FieldFrame) (s : State) : Answer :=
  let s := s.begin
  let m := s.lane l
  match m.boot.img with
  | none => .next s
  | some img =>
    if !m.field.fetches.contains pos || m.field.r2Sent || !m.inCycle then .next s
    else
      let m := { m with field := { m.field with fetches := m.field.fetches.filter (· != pos) } }
      let r := m.receiveTel l img net fr m.cyc.num
      match r.1.fetchedIs pos r.2 with
      | some t =>
        let k := (r.1.countValid pos t).statA fun a => { a with fetched := a.fetched + 1 }
        .next (s.setLane l { k with field := { k.field with hold := Mem.set none k.field.hold pos (some t) } })
      | none =>
        let k := match r.2 with
          | none => r.1
          | some (p, t) => match r.1.telLate p t m.cyc.num with
            | none => r.1
            | some e => r.1.countDiscard net e
        .next (s.setLane l (k.statB fun b => { b with fetchBad := b.fetchBad + 1 }))

/-- Stations whose target a lane holds. -/
def Lane.heldTargets (l : Lane) : List Nat := l.field.hold.map (·.1)

/-- ROUND2_SEND (R196): sent by a lane in service when its fetches are complete or at T_freeze + 0.8·W_agree; fetches
still outstanding then are not answered in time. -/
def execRound2Send (l : LaneId) (s : State) : Answer :=
  let s := s.begin
  let m := s.lane l
  if !(m.inCycle && m.phased l && m.field.r1Done && !m.field.r2Sent && !m.cyc.agreed) then .next s
  else
    let k := m.statB fun b => { b with fetchBad := b.fetchBad + m.field.fetches.length }
    let k := { k with field := { k.field with r2Sent := true, fetches := [] } }
    let s := s.setLane l k
    if m.serves l then .next (s.xcast l (.round2 { cyc := m.cyc.num, held := m.heldTargets })) else .next s

/-- ROUND2_FRAME_RX (R196). -/
def execRound2FrameRx (l sender : LaneId) (f : Round2) (s : State) : Answer :=
  let s := s.begin
  let m := s.lane l
  if m.inCycle && m.serves sender && sender != l && f.cyc == m.cyc.num && !m.cyc.agreed then
    .next (s.setLane l { m with field := { m.field with r2 := m.field.r2.put sender (some f) } })
  else .next s

/-- Lanes in service that hold the target of a station (R196 rule 1). -/
def Lane.holders (l : Lane) (x : LaneId) (p : Nat) : Nat :=
  (LaneSet.those fun y => l.serves y &&
    (if y = x then (Mem.get none l.field.hold p).isSome
     else match l.field.r2.get y with
       | none => false
       | some f => f.held.contains p)).count

/-- OC_SEQ[15:0] agreed for a station (R196 rules 1 to 3). -/
def Lane.agreedSeq (l : Lane) (x : LaneId) (r : PerLane (List (Nat × Half))) (p : Nat) : Option Half :=
  match Mem.get none l.field.targets p with
  | none => none
  | some v =>
    if 2 ≤ l.holders x p then some v
    else
      let vs := reportsFor r p
      newest (vs.filter fun w => 2 ≤ vs.count w)

/-- The lane's own copy of a telegram by its OC_SEQ[15:0]. -/
def Lane.copyOf (l : Lane) (p : Nat) (v : Half) : Option Tel :=
  match (Mem.get none l.field.hold p).filter fun t => t.seq.setWidth 16 == v with
  | some t => some t
  | none => l.candIs p v

/-- Settles one station (R196, R197). -/
def Lane.agreeStation (x : LaneId) (r : PerLane (List (Nat × Half))) (l : Lane) (p : Nat) : Lane :=
  match l.agreedSeq x r p with
  | none => l
  | some v =>
    let m := l.statA fun a => { a with agreed := a.agreed + 1 }
    match l.copyOf p v with
    | none => m.statB fun b => { b with short := b.short + 1 }
    | some t => { m with field := { m.field with agreed := Mem.set none m.field.agreed p (some t),
                                                 inSet := Mem.set false m.field.inSet p true } }

/-- Threshold W of R245. -/
def witnessNeed (stations : Nat) : Nat := max ((stations + 3) / 4) (min 8 stations)

/-- Witness stations of the agreed set (R245). -/
def Lane.countWitness (l : Lane) : Nat :=
  (l.field.agreed.filter fun p => match p.2 with
    | none => false
    | some t => t.cmdMiss && t.echoEp.toNat ≤ l.ptn.pEpoch.toNat).length

/-- A count of witness stations suffices (R245). -/
def witnessed (stations count : Nat) : Bool := 0 < stations && witnessNeed stations ≤ count

/-- The image names a partner (R137). -/
def Lane.hasPartner (l : Lane) : Bool := ((l.boot.img).map fun i => i.partnerSlot != 0xFF).getD false

/-- Adds one to a bin. -/
def bump (h : List Nat) (k : Nat) : List Nat := h.set k (h.getD k 0 + 1)

/-- Bin of a gap that ends (R370, R372). -/
def gapBin (len : Nat) : Nat := min len 3 - 1

/-- A cycle that is not silent ends the gap of its path (R372). -/
def Lane.endGap (l : Lane) (p : HbPath) : Lane :=
  let b := l.rcd.b
  match p with
  | .link =>
    if l.ptn.silent1 = 0 then l
    else { l with rcd := { l.rcd with b := { b with gap1 := bump b.gap1 (gapBin l.ptn.silent1),
                                                    long1 := max b.long1 l.ptn.silent1 } },
                  ptn := { l.ptn with silent1 := 0 } }
  | .ring =>
    if l.ptn.silent2 = 0 then l
    else { l with rcd := { l.rcd with b := { b with gap2 := bump b.gap2 (gapBin l.ptn.silent2),
                                                    long2 := max b.long2 l.ptn.silent2 } },
                  ptn := { l.ptn with silent2 := 0 } }

/-- Judges the silence of both heartbeat paths in the running cycle (R241); a module without a partner has no paths
(R372). -/
def Lane.judgeSilence (l : Lane) : Lane :=
  if !l.hasPartner then l else
  let m := if l.ptn.got1 then l.endGap .link else l
  let m := if l.ptn.got2 then m.endGap .ring else m
  let p := m.ptn
  let s1 := if p.got1 then 0 else p.silent1 + 1
  let s2 := if p.got2 then 0 else p.silent2 + 1
  { m with ptn := { p with silent1 := s1, silent2 := s2, path1 := p.path1 && s1 < 3, path2 := p.path2 && s2 < 3 } }

/-- Both paths have been silent for 3 cycles (R245). -/
def Lane.bothSilent (l : Lane) : Bool := 3 ≤ l.ptn.silent1 && 3 ≤ l.ptn.silent2

/-- What a standby lane posts at its D_agree (R245, R253): a qualified one all three conditions, one in ROLE 2 the first
two. -/
def Lane.takeoverHolds (l : Lane) (stations : Nat) : Bool :=
  l.bothSilent && (witnessed stations l.fail.witness || witnessed stations l.fail.witLast) &&
    ((l.ptn.role == 1 && l.ptn.qualified) || l.ptn.role == 2)

/-- An agreed telegram shows another commander above the own epoch (R248). -/
def Lane.echoAbove (l : Lane) (img : Image) : Bool :=
  l.field.agreed.any fun p => match p.2 with
    | none => false
    | some t => t.echoes && t.echoCmdr != img.own && l.ptn.epoch.toNat < t.echoEp.toNat

/-- Settles P4: the agreed set, the witness and stand-down (R196, R245, R248). -/
def Lane.agree (l : Lane) (x : LaneId) (img : Image) : Lane :=
  let n := img.stations.length
  let m := (List.range n).foldl (Lane.agreeStation x (l.reports x)) l
  let m := { m with field := { m.field with store := [] }, cyc := { m.cyc with agreed := true } }
  let m := { m with fail := { m.fail with witness := m.countWitness } }
  { m with fail := { m.fail with standDown := m.fail.standDown || (m.active && m.echoAbove img) } }

/-- D_agree passes: the silence of the paths in the running cycle is settled, and what the lane posts of R245 (R241). -/
def Lane.passAgree (l : Lane) (img : Image) : Lane :=
  if l.cyc.judged then l
  else
    let m := ({ l with cyc := { l.cyc with judged := true } } : Lane).judgeSilence
    { m with fail := { m.fail with takeMine := m.takeoverHolds img.stations.length } }

/-- At an instant by which D_agree has passed, a lane that has settled its agreement judges the silence, and a standby posts
its takeover conditions (R241, R245). -/
def State.passAgree (s : State) (x : LaneId) (img : Image) (t : Nat) : State :=
  let l := s.lane x
  if !(l.inCycle && l.phased x && l.cyc.agreed && !l.cyc.judged && dAgree img.hdr ≤ t) then s
  else
    let s := s.setLane x (l.passAgree img)
    if l.ptn.role == 1 || l.ptn.role == 2 then s.xcast x (.status (s.statusOf x)) else s

/-- An inbound half-word of P5: buffer key, reader key, word under D(n), SUBST mark, whether the word is poisoned. -/
structure InSlot where
  key   : Nat
  rk    : Nat
  word  : Coded
  subst : Bool
  bad   : Bool := false
  deriving DecidableEq, Repr

/-- Pairs an inbound slot list with half-word numbers. -/
def numbered (ks : List (Nat × Nat)) : List (Nat × Nat × Nat) := (List.range ks.length).zip ks

/-- Station half-words of cycle n (R180). -/
def Lane.stationSlots (l : Lane) (p : Nat) (r : StationRec) : List InSlot :=
  (numbered (stationIn r p)).map fun k =>
    let old := Mem.get 0 l.store.inP1 k.2.1
    let bad := l.store.poisoned (.inP1 k.2.1)
    let subst := (l.stn p).st != .admitted
    match (Mem.get none l.field.agreed p).bind fun t => t.halves[k.1]? with
    | none => { key := k.2.1, rk := k.2.2, word := old, subst := subst, bad := bad }
    | some w => { key := k.2.1, rk := k.2.2, word := w, subst := subst }

/-- Half-word `k` of a border set (R271). -/
def borderValue (segs : List BorderSeg) (k : Nat) : Option Half :=
  segs.findSome? fun g => if g.first ≤ k then g.values[k - g.first]? else none

/-- Border half-words of cycle n (R271, R272). -/
def Lane.borderSlots (l : Lane) (q : Fin 8) (r : NbRec) : List InSlot :=
  let nb := l.ring.nbs[q]
  (numbered (nbIn r q.val)).map fun k =>
    let old := Mem.get 0 l.store.inP1 k.2.1
    let bad := l.store.poisoned (.inP1 k.2.1)
    let subst := nb.st != .admitted
    match nb.cand.bind fun c => borderValue c k.1 with
    | none => { key := k.2.1, rk := k.2.2, word := old, subst := subst, bad := bad }
    | some v => { key := k.2.1, rk := k.2.2, word := encode l.slot v (sigKey inByte k.2.1) l.cyc.num, subst := subst }

/-- Local half-words of cycle n (R218). -/
def Lane.localSlots (l : Lane) : List InSlot :=
  (numbered localIn).map fun k =>
    let old := Mem.get 0 l.store.inP1 k.2.1
    match if l.lio.gotSet then l.lio.set else none with
    | none => { key := k.2.1, rk := k.2.2, word := old, subst := true, bad := l.store.poisoned (.inP1 k.2.1) }
    | some f => { key := k.2.1, rk := k.2.2, subst := !f.valid.getLsbD k.1,
                  word := encode l.slot (flag (f.values.getLsbD k.1)) (sigKey inByte k.2.1) l.cyc.num }

/-- Value of a host slot in a cycle: its pulse, else 0 (R279). -/
def Lane.hostValue (l : Lane) (n : Cycle) (k : Nat) : Half :=
  ((l.host.pulses.find? fun p => p.1 == n && p.2.1.toNat == k).map (·.2.2)).getD 0

/-- Host half-words of cycle n, all VALID (R279). -/
def Lane.hostSlots (l : Lane) : List InSlot :=
  (numbered hostIn).map fun k =>
    { key := k.2.1, rk := k.2.2, subst := false,
      word := encode l.slot (l.hostValue l.cyc.num k.1) (sigKey inByte k.2.1) l.cyc.num }

/-- The numbers 0 to 7 of the neighbours. -/
def nbList : List (Fin 8) := [0, 1, 2, 3, 4, 5, 6, 7]

/-- The configured neighbours of an image. -/
def Image.nbsOf (img : Image) : List (Fin 8 × NbRec) := nbList.filterMap fun q => img.nbs[q.val]?.map fun r => (q, r)

/-- The agreed inbound buffers and marks of cycle n (R92, R116). -/
def Lane.p5Slots (l : Lane) (img : Image) : List InSlot :=
  ((positions img.stations).flatMap fun p => l.stationSlots p.1 p.2) ++
    (img.nbsOf.flatMap fun p => l.borderSlots p.1 p.2) ++ l.localSlots ++ l.hostSlots

/-- A half-word counts as changed: its word or its mark differs from the prediction's (R116). -/
def Lane.slotChanged (l : Lane) (i : InSlot) : Bool :=
  i.word != Mem.get 0 l.store.inP1 i.key || i.subst != Mem.get false l.store.subP1 i.key

/-- Local inputs blanked in cycle n: VALID now and SUBST in the last committed cycle, or blanked before and not yet
committed (R219). -/
def Lane.localBlanks (l : Lane) : BitVec 32 :=
  let valid : BitVec 32 := match if l.lio.gotSet then l.lio.set else none with
    | none => 0
    | some f => f.valid
  l.lio.blanks ||| (valid &&& l.lio.subCommit)

/-- Reader keys whose input nodes are blanked in cycle n (R182, R219, R272). -/
def Lane.blankKeys (l : Lane) (img : Image) : List Nat :=
  ((positions img.stations).flatMap fun p => if (l.stn p.1).blank then (stationIn p.2 p.1).map (·.2) else []) ++
    (img.nbsOf.flatMap fun p => if l.ring.nbs[p.1].blank then (nbIn p.2 p.1.val).map (·.2) else []) ++
    ((numbered localIn).filterMap fun k => if l.localBlanks.getLsbD k.1 then some k.2.2 else none)

/-- First reader block of the given keys that is wrong (R60, R63). -/
def badReaders (img : Image) (keys : List Nat) : Option (Table × Nat) :=
  img.wrongOf (((positions img.readers).filter fun b => keys.contains b.2.keyOf).map fun b => (readerTable, b.1))

/-- First successor block of a node that is wrong (R60, R63). -/
def badSuccs (img : Image) (j : Nat) : Option (Table × Nat) :=
  img.wrongOf (((positions img.succs).filter fun b => b.2.source == j).map fun b => (succTable img, b.1))

/-- Marks of the cone walker: dirty and blank bits, successor entries visited, first bad block. -/
structure Walk where
  dirty : Mem Bool
  blank : Mem Bool
  succ  : Nat
  bad   : Option (Table × Nat)
  deriving DecidableEq, Repr

/-- One node of the walk, in ascending index (R118). -/
def walkNode (img : Image) (w : Walk) (f : Nat) : Walk :=
  if !Mem.get false w.dirty f then w
  else
    let ys := succsOf img f
    let bl := Mem.get false w.blank f
    { dirty := ys.foldl (fun d y => Mem.set false d y true) w.dirty,
      blank := if bl then ys.foldl (fun d y => Mem.set false d y true) w.blank else w.blank,
      succ := w.succ + ys.length,
      bad := w.bad.orElse fun _ => badSuccs img f }

/-- The cone walk from the nodes passed and those of them blanked (R118). -/
def walkCone (img : Image) (passed blanked : List Nat) : Walk :=
  (List.range img.hdr.nodes).foldl (walkNode img)
    { dirty := passed.foldl (fun d y => Mem.set false d y true) [],
      blank := blanked.foldl (fun d y => Mem.set false d y true) [], succ := 0, bad := none }

/-- Input-kind nodes of an image. -/
def inputNodes (img : Image) : Nat := (img.nodes.filter fun e => isInputKind e.kind).length

/-- The agreed buffers of cycle n stand, and the blanks of the cycle are noted (R92, R182, R219). -/
def Lane.takeSlots (l : Lane) (slots : List InSlot) : Lane :=
  { l with
    store := { l.store with
      inP5 := Mem.setAll 0 [] (slots.map fun i => (i.key, i.word)),
      subP5 := Mem.setAll false [] (slots.map fun i => (i.key, i.subst)),
      poison := (l.store.healAll cellP5).poison ++ (slots.filter (·.bad)).map fun i => .inP5 i.key },
    lio := { l.lio with blanks := l.localBlanks },
    field := { l.field with stns := Mem.mapEntries StnRec.init (fun _ r => { r with blanked := r.blank }) l.field.stns },
    ring := { l.ring with nbs := l.ring.nbs.map fun r => { r with blanked := r.blank } } }

/-- P5 starts: changed and blanked inputs go to the cone walker, and the seats take their dirty nodes (R30, R116 to
R119). A lane that evaluates no nodes only forms its buffers (R253). -/
def Lane.startP5 (l : Lane) (img : Image) (t walk : Nat) : Lane :=
  let slots := l.p5Slots img
  let keys := (slots.filter l.slotChanged).map (·.rk)
  let bkeys := l.blankKeys img
  let blanked := (bkeys.flatMap (readersOf img)).eraseDups
  let passed := ((keys.flatMap (readersOf img)) ++ blanked ++ l.force.changed).eraseDups
  let m := l.takeSlots slots
  let m := { m with cyc := { m.cyc with p5 := true, phase := 5 } }
  if !l.evaluates then m
  else
    let w := walkCone img passed blanked
    let m := { m with store := { m.store with dirty := w.dirty, blank := w.blank, redone := [] },
                      rot := { m.rot with short := seatList.any fun x => (m.seat x).code == 3 && (m.seat x).node.isSome } }
    let m := m.statA fun a => { a with
      miss := passed.length, hit := inputNodes img - passed.length, succ := w.succ, walk := walk, corrStart := t }
    let m := match (badReaders img (keys ++ bkeys)).orElse fun _ => w.bad with
      | none => m
      | some k => m.tableFail img k
    m.startPhase img

/-- AGREEMENT_END (R196): when the round-2 frames of the peers in service are held, or at D_agree. P5 starts if the sweep is
complete (R30). At D_agree the lane judges its heartbeat paths (R241, R245). -/
def execAgreementEnd (l : LaneId) (t walk : Nat) (s : State) : Answer :=
  let s := s.begin
  let m := s.lane l
  match m.boot.img with
  | none => .next s
  | some img =>
    let all := laneList.all fun y => y == l || !m.serves y || (m.field.r2.get y).isSome
    if !(m.inCycle && m.phased l && m.field.r2Sent && !m.cyc.agreed && (all || dAgree img.hdr ≤ t)) then
      .next (s.passAgree l img t)
    else
      let k := (m.agree l img).meet 4 (dAgree img.hdr) t
      let k := if m.lio.gotSet then k else { k with lio := { k.lio with missed := k.lio.missed + 1 } }
      let k := if k.cyc.sweep || !k.evaluates then k.startP5 img t walk else k
      .next ((s.setLane l k).passAgree l img t)

/-- SWEEP_COMPLETE (R27, R30): every hand is evaluated; P5 starts if agreement is complete. The time of the walk that
starts here is a free value. -/
def execSweepComplete (l : LaneId) (t : Nat) (s : State) : Answer :=
  let s := s.begin
  let m := s.lane l
  match m.boot.img with
  | none => .next s
  | some img =>
    if !(m.inCycle && m.phased l && m.evaluates && !m.cyc.sweep && !m.cyc.p5 && m.handsDone) then .next s
    else
      let k := ({ m with cyc := { m.cyc with sweep := true, phase := if m.cyc.frozen then m.cyc.phase else 2 } }
        : Lane).statA fun a => { a with sweep := t }
      let k := k.meet 1 (dAgree img.hdr) t
      if k.cyc.agreed then
        let v := s.fresh 11
        .next (v.2.setLane l (k.startP5 img t v.1.toNat))
      else .next (s.setLane l k)

/-- Rewrites the window of one output force in the outbound buffer, through the checks of its tables (R63, R294); `k` is the
force's place in the table. -/
def Lane.forceWindow (l : Lane) (img : Image) (k : Nat) (f : Force) : Lane :=
  if f.bad then l.forceFail k
  else match img.nodes[f.node]? with
  | none => l
  | some e =>
    if !nodeSound img f.node e then l.tableFail img (dirTable, f.node)
    else match windowOf img e with
    | none => l
    | some w =>
      match img.wrongOf (windowRefs img e) with
      | some r => l.tableFail img r
      | none =>
        let first := fieldFirst w.off
        let put := fieldPut 0 0 (w.off % 16) w.len false f.value
        (windowHalves w).foldl
          (fun m k =>
            let key := ctxKey w.ck w.index k
            match m.outValueAt false key m.cyc.num with
            | none => m.outFail false key f.node
            | some h =>
              let mask := windowMask w k
              let v := if f.perm then (if k = first then put.1 else put.2) else restrictHalf img e w k
              m.putOut false key (encode m.slot ((h &&& ~~~mask) ||| (v &&& mask)) (sigKey outByte key) m.cyc.num))
          l

/-- The output forces active in the running cycle rewrite their windows, in node order (R294). -/
def Lane.forceOutputs (l : Lane) (img : Image) : Lane :=
  ((positions l.force.table).filter fun f => f.2.out && f.2.activeIn l.cyc.num).foldl
    (fun m f => m.forceWindow img f.1 f.2) l

/-- CORRECTION_COMPLETE (R119, R294): of a missed deadline and a code failure at one instant the lower code stands (R44). -/
def execCorrectionComplete (l : LaneId) (t : Nat) (s : State) : Answer :=
  let s := s.begin
  let m := s.lane l
  match m.boot.img with
  | none => .next s
  | some img =>
    if !(m.inCycle && m.phased l && m.evaluates && m.cyc.p5 && !m.cyc.corr && m.handsDone) then .next s
    else
      let k := ({ m with cyc := { m.cyc with corr := true, phase := 6 } } : Lane).statA fun a =>
        { a with corrTime := t - a.corrStart }
      .next (s.setLane l ((k.meet 5 (dCorr img.hdr) t).forceOutputs img))

/-- First node below N whose retire bit is clear (R59). -/
def Lane.missingRetire (l : Lane) (nodes : Nat) : Option Nat :=
  (List.range nodes).find? fun i => !Mem.get false l.store.bitmap i

/-- The settling seat, if one is paired (R111). -/
def Lane.settling (l : Lane) : Option SeatId := seatList.find? fun x => (l.seat x).code == 3

/-- The settle comparison at D_check: complete and equal meets the condition of R109; incomplete is a mismatch, unless
the lane has dropped the cycle for another cause (R111, R115). -/
def Lane.checkSettle (l : Lane) : Lane :=
  match l.settling with
  | none => l
  | some x =>
    if l.cyc.drop.isSome then l
    else if (l.seat x).node.isSome || !l.cyc.corr || l.rot.short then l.settleMismatch x 0xFFFFF
    else if l.rot.mismatch then l
    else { l with rot := { l.rot with met := true } }

/-- CHECK_DEADLINE (R24, R45, R59, R111): P6 completes at `c.t` with the retire bitmap complete, which it must be at D_check;
before D_check an incomplete one is only not complete yet. -/
def execCheckDeadline (c : CheckEnd) (s : State) : Answer :=
  let s := s.begin
  match (s.lane c.lane).boot.img with
  | none => .next s
  | some img =>
    let s := s.passAgree c.lane img c.t
    let m := s.lane c.lane
    if !(m.inCycle && m.phased c.lane && m.evaluates && !m.cyc.checked) then .next s
    else if (m.missingRetire img.hdr.nodes).isSome && c.t < dCheck img.hdr then .next s
    else
      let k := { m with cyc := { m.cyc with checked := true } }
      let k := match k.missingRetire img.hdr.nodes with
        | none => k.meet 6 (dCheck img.hdr) c.t
        | some i => k.codeFail 4 i
      .next (s.setLane c.lane k.checkSettle)

/-- DEADLINE_MISS (R36): a phase has not completed by its deadline. -/
def execDeadlineMiss (l : LaneId) (phase : BitVec 4) (s : State) : Answer :=
  .next (s.begin.modLane l fun m => m.dropCycle 1 phase)

end Sys2Proof.Machine
end

