-- ==== Sys2Proof/Machine/RingSend.lean ====
section
/-!
DEFINITION. What leaves on the ring and to the host: ring frames (spec/12_cluster_and_host.md R262 to R264), tunnels (R278),
SHP responses and events (R274, R276, R277).
-/
namespace Sys2Proof.Machine

/-- Header of a ring frame of this module in a direction (R262, R263). -/
def ringHdr (own cls dst dir : Byte) (len : Nat) (seq : Word) : RingHdr :=
  { ver := 1, cls := cls, dst := dst, src := own, dir := dir, hops := 0, len := BitVec.ofNat 16 len, seq := seq, res := 0 }

/-- Number of the module's last ring frame, as its lanes count it. -/
def State.ringSeq (s : State) : Word :=
  let f (m : Lane) : Nat := if m.live then m.ring.seq.toNat else 0
  BitVec.ofNat 32 (max (f s.la) (max (f s.lb) (f s.lc)))

/-- Every lane takes a number as that of the last ring frame. -/
def State.putRingSeq (s : State) (q : Word) : State :=
  s.mapLanes fun _ m => if m.live then { m with ring := { m.ring with seq := q } } else m

/-- Sends a ring frame once in each direction with one number (R264). -/
def State.ringCast (s : State) (own cls dst : Byte) (len : Nat) (b : RingBody) : State :=
  let q := s.ringSeq + 1
  let s := s.putRingSeq q
  let s := if (s.txLane .j6).isSome then s.emit (.ring .east (ringHdr own cls dst 0 len q) b) else s
  if (s.txLane .j7).isSome then s.emit (.ring .west (ringHdr own cls dst 1 len q) b) else s

/-- The slot with which the module sends on the ring; none until a transmit lane of the ring has loaded its image, which
names the EtherType (R146, R262). -/
def State.ringOwn (s : State) : Option Byte :=
  match [Port.j6, .j7].filterMap s.txLane with
  | [] => none
  | x :: _ => (s.lane x).boot.img.map (·.own)

/-- A TUNNEL frame to the other end (R278). -/
def State.tunnelFrame (s : State) (t : Tunnel) (opn cls : Bool) (off : Word) (data : List Byte) : State :=
  match s.ringOwn with
  | none => s
  | some own =>
    s.ringCast own 0x30 t.peer (12 + data.length)
      (.tunnel { tid := t.tid, opn := opn, cls := cls, mnt := t.maint, off := off, ack := t.recv, data := data })

/-- Pieces of at most 1,400 bytes (R278). -/
def pieces (b : List Byte) : List (List Byte) :=
  (List.range ((b.length + 1399) / 1400)).map fun k => slice b (1400 * k) 1400

/-- Frames of a run of stream bytes from an offset. -/
def State.tunnelRun (s : State) (t : Tunnel) (opn : Bool) (off : Word) (data : List Byte) : State :=
  (positions (pieces data)).foldl
    (fun s p => s.tunnelFrame t (opn && p.1 == 0) false (off + BitVec.ofNat 32 (1400 * p.1)) p.2) s

/-- One end of a tunnel, by its role, the slot of the other end and the TID. -/
def Tunnel.same (t u : Tunnel) : Bool := t.gateway == u.gateway && t.peer == u.peer && t.tid == u.tid

/-- Replaces a tunnel. -/
def State.putTunnel (s : State) (t : Tunnel) : State := { s with tunnels := s.tunnels.map fun u => if u.same t then t else u }

/-- Takes a tunnel out. -/
def State.dropTunnel (s : State) (t : Tunnel) : State := { s with tunnels := s.tunnels.filter fun u => !u.same t }

/-- Sends what may leave: at most 64 KiB are unacknowledged (R278). -/
def State.tunnelPush (s : State) (t : Tunnel) (opn : Bool) : State :=
  let data := t.queue.take (65536 - t.unacked.length)
  let v : Tunnel := { t with
    queue := t.queue.drop data.length, unacked := t.unacked ++ data, sent := t.sent + BitVec.ofNat 32 data.length }
  (s.putTunnel v).tunnelRun v opn t.sent data

/-- The target's end of the tunnel of a connection. -/
def State.targetTunnel (s : State) (conn : Nat) : Option Tunnel := s.tunnels.find? fun t => !t.gateway && t.conn == conn

/-- Message bytes of a tunnelled connection enter its stream under TLS record protection (R278, R309). -/
def State.tunnelWrite (s : State) (conn keyGen : Nat) (msg : List Byte) : State :=
  match s.targetTunnel conn with
  | none => s
  | some t =>
    let b := Config.tlsBytes conn keyGen (t.sent.toNat + t.queue.length) msg
    s.tunnelPush { t with queue := t.queue ++ b } false

/-- Closes this end of a tunnel and tells the other end (R278). -/
def State.tunnelClose (s : State) (t : Tunnel) : State := (s.dropTunnel t).tunnelFrame t false true t.sent []

/-- The SHP message of a response or event (R276). -/
def shpMessage (obj status : Byte) (req : Word) (body : List Byte) : List Byte :=
  [1, obj, 0, status] ++ bytesOf req ++ toBe 4 body.length ++ body

/-- A message of a session leaves through its response lane; through a tunnel, as stream bytes (R274, R278). -/
def State.sessionWrite (s : State) (id : Nat) (msg : List Byte) : State :=
  match s.session id with
  | none => s
  | some k =>
    match s.respLane k with
    | none => s
    | some x => s.tunnelWrite id (k.keyGen.get x) msg

/-- Sends an SHP response (R276). -/
def State.reply (s : State) (sess : Nat) (req : Word) (obj status : Byte) (body : List Byte) : State :=
  (s.emit (.shp sess req obj status body)).sessionWrite sess (shpMessage obj status req body)

/-- Sends an event to every session that subscribed to it, as the response lane settles it (R277); the detail, which
the spec does not define, is a free value. -/
def State.notify (s : State) (l : LaneId) (evt : Nat) : State :=
  let v := s.fresh 64
  let dest := s.sessions.filter fun k => k.mask.getLsbD evt && s.respLane k == some l
  if dest.isEmpty then s
  else
    let cyc := (s.lane l).cyc.num
    dest.foldl (fun t k => (t.emit (.event k.id evt cyc v.1)).sessionWrite k.id
      (shpMessage 7 0 0 ([BitVec.ofNat 8 evt] ++ bytesOf cyc ++ bytesOf v.1))) v.2

end Sys2Proof.Machine
end

