-- ==== Sys2Proof/Machine/Ages.lean ====
section
/-!
DEFINITION. Ages, staleness and re-admission of stations (spec/08_field_telegrams.md R178 to R182) and of border
neighbours (spec/12_cluster_and_host.md R271, R272), key generations (R172), and the advance of the vital timer bank
(spec/04_node_programs.md R85 to R88, spec/03_coded_state.md R63).
-/
namespace Sys2Proof.Machine

/-- age(n) = n − 1 − E, saturating at 255, and 255 while E is undefined (R179). -/
def stnAge (n : Cycle) (e : Option Cycle) : Nat :=
  match e with
  | none => 255
  | some v => min 255 (n.toNat - 1 - v.toNat)

/-- age = n − j, saturating at 255, and 255 while j is undefined (R272). -/
def nbAge (n : Cycle) (j : Option Cycle) : Nat :=
  match j with
  | none => 255
  | some v => min 255 (n.toNat - v.toNat)

/-- The later of E and an echo (R178). -/
def laterEcho (e : Option Cycle) (t : Tel) : Option Cycle :=
  if !t.echoes then e
  else match e with
    | none => some t.echoCyc
    | some v => if v.toNat < t.echoCyc.toNat then some t.echoCyc else some v

/-- What the agreed telegram of a committed cycle brings to a station's record, and the blank of R182 that committed. -/
def StnRec.commit (r : StnRec) (t : Option Tel) : StnRec :=
  let r := { r with blank := r.blank && !r.blanked }
  match t with
  | none => r
  | some t => { r with e := laterEcho r.e t, lastSeq := some t.seq }

/-- Run of a station that is not ADMITTED after a committed cycle, and its admission (R179). -/
def StnRec.runOn (r : StnRec) (maxAge : Nat) (echo : Bool) : StnRec :=
  if !echo then { r with run := 0, st := .stale }
  else
    let k := min 3 (r.run + 1)
    if k = 3 && r.age ≤ maxAge then { r with run := 3, st := .admitted, blank := true }
    else { r with run := k, st := .admitting }

/-- A station at the boundary that opens cycle n: age, staleness, and after a committed cycle its run (R179). -/
def StnRec.boundary (r : StnRec) (maxAge : Nat) (n : Cycle) (commit : Bool) (t : Option Tel) : StnRec :=
  let r := if commit then r.commit t else r
  let r := { r with age := stnAge n r.e, blanked := false }
  if r.st == .admitted then (if maxAge < r.age then { r with st := .stale, run := 0 } else r)
  else if commit then r.runOn maxAge ((t.map Tel.echoes).getD false) else r

/-- A telegram of the agreed set of the cycle that has ended, as this lane holds it (R197). -/
def Lane.agreedTel (l : Lane) (p : Nat) : Option Tel := Mem.get none l.field.agreed p

/-- Record of a station as it stands after the boundary that opens cycle n. -/
def Lane.stnNext (l : Lane) (n : Cycle) (commit : Bool) (p : Nat) (r : StationRec) : StnRec :=
  (l.stn p).boundary r.maxAge.toNat n commit (l.agreedTel p)

/-- Records of every station at the boundary (R179). -/
def Lane.stepStations (l : Lane) (img : Image) (n : Cycle) (commit : Bool) : Lane :=
  { l with field := { l.field with
      stns := (positions img.stations).foldl
        (fun m p => Mem.set StnRec.init m p.1 (l.stnNext n commit p.1 p.2)) l.field.stns } }

/-- A station's admission state changed to or from ADMITTED (R277, event 5). -/
def Lane.admissionMoved (l m : Lane) (img : Image) : Bool :=
  (List.range img.stations.length).any fun p => ((l.stn p).st == .admitted) != ((m.stn p).st == .admitted)

/-- A committed telegram at the pending generation makes it current (R172). -/
def GenRec.after (g : GenRec) (t : Option Tel) : GenRec :=
  match t, g.pend with
  | some t, some p => if t.keyGen == p then { cur := p, pend := none } else g
  | _, _ => g

/-- Generation records at a committing boundary (R172). -/
def Lane.stepGens (l : Lane) : Lane :=
  { l with nv := { l.nv with
      gens := Mem.mapEntries none (fun p g => g.map fun r => r.after (l.agreedTel p)) l.nv.gens } }

/-- A segment of an epoch and cycle passes checks 5 and 6 (R270). -/
def NbState.fresh (b : NbState) (epoch : Word) (cyc : Cycle) : Bool :=
  b.epoch.toNat ≤ epoch.toNat &&
    (match b.last with
     | some p => p.1 != epoch || decide (p.2.toNat < cyc.toNat)
     | none => true)

/-- A set passes checks 5 and 6. -/
def NbState.freshSet (b : NbState) (gs : List BorderSeg) : Bool := gs.all fun g => b.fresh g.epoch g.cyc

/-- The intake of a cycle opens: sets held since the freeze that still pass checks 5 and 6 enter it, and segments that no
longer pass are gone (R271, R285). -/
def NbState.openIntake (b : NbState) : NbState :=
  { b with ready := b.late.filter b.freshSet, late := [], segs := b.segs.filter fun g => b.fresh g.epoch g.cyc }

/-- What a committed cycle brings to a neighbour's record: the set taken, its epoch, and the blank that committed
(R270 to R272). -/
def NbState.commit (b : NbState) (cyc : Cycle) : NbState :=
  let b := { b with blank := b.blank && !b.blanked, epoch := b.pendEp.getD b.epoch, pendEp := none }
  match b.cand with
  | some (g :: _) => { b with j := some cyc, last := some (g.epoch, g.cyc), sender := g.sender }
  | _ => b

/-- Run and admission of a neighbour that is not ADMITTED (R272 steps 3 and 4). -/
def NbState.runOn (b : NbState) (maxAge : Nat) (took : Bool) : NbState :=
  let k := if maxAge < b.age then 0 else if took then min 3 (b.run + 1) else b.run
  if k = 3 then { b with run := 3, st := .admitted, blank := true }
  else { b with run := k, st := if k = 0 then .stale else .admitting }

/-- A neighbour at the boundary that opens cycle n (R272). -/
def NbState.boundary (b : NbState) (maxAge : Nat) (n : Cycle) (commit : Bool) : NbState :=
  let took := b.cand.isSome
  let b := if commit then b.commit (n - 1) else b
  let b := { b with age := nbAge n b.j, blanked := false, cand := none }
  let b := if b.st == .admitted && maxAge < b.age then { b with st := .stale } else b
  if b.st != .admitted then b.runOn maxAge (commit && took) else b

/-- Records of the neighbours with IN_COUNT above 0 at the boundary (R272). -/
def Lane.stepNeighbours (l : Lane) (img : Image) (n : Cycle) (commit : Bool) : Lane :=
  { l with ring := { l.ring with
      nbs := img.nbsOf.foldl
        (fun v p => if p.2.used != 0 && 0 < p.2.inCount.toNat
          then v.set p.1.val (v[p.1].boundary p.2.maxAge.toNat n commit) else v) l.ring.nbs } }

/-- A neighbour's admission state changed to or from ADMITTED (R277, event 6). -/
def Lane.nbMoved (l m : Lane) : Bool :=
  nbList.any fun q => (l.ring.nbs[q].st == .admitted) != (m.ring.nbs[q].st == .admitted)

/-- Whether the 100 ms accumulator passes its unit (R87). -/
def accTick (acc tCycle : Nat) : Bool := 1000 ≤ acc + tCycle

/-- The accumulator after a boundary (R87). -/
def accNext (acc tCycle : Nat) : Nat := if accTick acc tCycle then acc + tCycle - 1000 else acc + tCycle

/-- A timer's unit has elapsed and its count is above 0 (R87). -/
def timerFalls (v : Half) (tick : Bool) : Bool := tRunning v && tCount v != 0 && (!tUnit v || tick)

/-- A plain timer word after one advance (R87). -/
def timerNext (v : Half) (tick : Bool) : Half := if timerFalls v tick then v - 1 else v

/-- The value that a queued operation gives its timer (R86). -/
def TimerOp.value (o : TimerOp) : Half := if o.op = 3 then 0 else tStarted (o.op == 2) o.k

/-- One timer word at the boundary that opens cycle n: Q_lane is added, and K_lane subtracted where its unit has
elapsed (R63). A word that no longer decodes is left to fail where it is read. -/
def Lane.advanceTimer (l : Lane) (n : Cycle) (tick : Bool) (h : Nat) (c : Coded) : Coded :=
  match decode l.slot c (sigTimer h) (n - 1) with
  | none => c + Config.qOf l.slot
  | some v => if timerFalls v tick then c + Config.qOf l.slot - Config.kOf l.slot else c + Config.qOf l.slot

/-- The timer bank advances by one cycle, and at a committing boundary takes the operations of the committed cycle
(R26 step 4, R38, R87). -/
def Lane.stepTimers (l : Lane) (img : Image) (n : Cycle) (commit : Bool) : Lane :=
  let t := l.store
  let tick := accTick t.acc img.hdr.tCycle
  let ts := (List.range img.hdr.timers).foldl
    (fun m h => Mem.set 0 m h (l.advanceTimer n tick h (Mem.get 0 t.timers h))) t.timers
  let ts := if !commit then ts
    else (t.ops.filterMap (·.2)).foldl
      (fun m o => Mem.set 0 m o.h (encode l.slot o.value (sigTimer o.h) n)) ts
  let u := if !commit then t else (t.ops.filterMap (·.2)).foldl (fun v o => v.heal (.timer o.h)) t
  { l with store := { u with timers := ts, acc := accNext t.acc img.hdr.tCycle, ops := [] } }

end Sys2Proof.Machine
end

