-- ==== Sys2Proof/Machine/Snapshot.lean ====
section
/-!
DEFINITION. Snapshots (spec/09_agreement_and_vote.md R207, R208; spec/11_partner_and_failover.md R242, R254): the base
that a lane captures, the delta of a cycle, and the adoption of both under a lane's own constants
(spec/03_coded_state.md R56).
-/
namespace Sys2Proof.Machine

/-- STATE code of an admission state (R192, R286). -/
def AdmState.code : AdmState → BitVec 2
  | .stale => 0
  | .admitting => 1
  | .admitted => 2

/-- The admission state of a code. -/
def AdmState.ofCode (c : BitVec 2) : AdmState := if c = 2 then .admitted else if c = 1 then .admitting else .stale

/-- A station record with its generations as a snapshot carries it (R208). -/
def Lane.snapStation (l : Lane) (p : Nat) (r : StationRec) (q : StnRec) : SnapStation :=
  { pos := p, stnId := r.stnId, e := q.e, lastSeq := q.lastSeq, state := q.st.code, run := q.run, blank := q.blank,
    gen := ((l.gen p).map (·.cur)).getD 0, pending := (l.gen p).bind (·.pend) }

/-- A neighbour's input age as a snapshot carries it (R208, R254). -/
def snapBorder (r : NbRec) (b : NbState) : SnapBorder :=
  { nbSlot := r.nbSlot.toNat, j := b.j, state := b.st.code, run := b.run, blank := b.blank }

/-- A force entry as a snapshot carries it (R208, R254). -/
def snapForce (img : Image) (f : Force) : SnapForce :=
  { node := f.node, tag := ((img.nodes[f.node]?).map (·.tag)).getD 0, kind := ((img.nodes[f.node]?).map (·.kind)).getD 0,
    value := f.value, start := f.start, remove := f.remove, next := f.next.map fun k => (k.1, k.2.2) }

/-- Value of node `j` in the current or the previous bank, if its word passes (R52, R60). -/
def Lane.bankValue (l : Lane) (img : Image) (m : BitVec 2) (j : Nat) : Option Half :=
  let w := bankWord l.store m j
  if w.ecc = .double then none else decode l.slot w.word (sigOf img j) (bcnOf l.store l.cyc.num m)

/-- Every item of a list, if none is missing. -/
def allSome {α : Type} : List (Option α) → Option (List α)
  | [] => some []
  | none :: _ => none
  | some v :: r => (allSome r).map (v :: ·)

/-- A node's place in a base. -/
def Lane.snapNode (l : Lane) (img : Image) (p : Nat × NodeEntry) : Option SnapNode :=
  match l.bankValue img 0 p.1, l.bankValue img 2 p.1 with
  | some c, some q => some { idx := p.1, tag := p.2.tag, khc := p.2.khc, cur := c, prev := q }
  | _, _ => none

/-- The plain timer word of a handle, if it passes. -/
def Lane.snapTimer (l : Lane) (h : Nat) : Option (Nat × Half) :=
  if l.store.poisoned (.timer h) then none
  else (decode l.slot (Mem.get 0 l.store.timers h) (sigTimer h) l.cyc.num).map fun v => (h, v)

/-- The tag of each handle's owning TIMER node (R70, R254). -/
def timerOwners (img : Image) : List (Nat × Word) :=
  (img.nodes.filter fun e => e.kind == 3).map fun e => (e.aux.toNat, e.tag)

/-- The base that a lane captures at the boundary that opened its running cycle; none where a word fails its check
(R208, R242). -/
def Lane.captureBase (l : Lane) (img : Image) : Option SnapBase :=
  match allSome ((positions img.nodes).map (l.snapNode img)), allSome ((List.range img.hdr.timers).map l.snapTimer) with
  | some ns, some ts =>
    some { cyc := l.cyc.num, bcnCur := l.store.bcnCur, bcnPrev := l.store.bcnPrev, nodes := ns, timers := ts, owners := timerOwners img,
           acc := l.store.acc, stns := (positions img.stations).map fun p => l.snapStation p.1 p.2 (l.stn p.1),
           borders := img.nbsOf.map fun p => snapBorder p.2 l.ring.nbs[p.1],
           forces := l.force.table.map (snapForce img), epoch := l.ptn.epoch, sepoch := l.nv.se }
  | _, _ => none

/-- The ECC errors of the words that a capture reads: those of both banks and the timers (R60). -/
def Lane.captureEcc (l : Lane) (img : Image) : Lane :=
  let es := (List.range img.hdr.nodes).flatMap fun j => [(bankWord l.store 0 j).ecc, (bankWord l.store 2 j).ecc]
  l.noteEcc (es.count .single) (es.count .double + l.store.poison.countP cellTimer)

/-- Node values of the running cycle that differ from the current bank's (R208). -/
def Lane.deltaNodes (l : Lane) (img : Image) : List (Nat × Half) :=
  (List.range img.hdr.nodes).filterMap fun j =>
    match Mem.get none l.store.plain j with
    | none => none
    | some v => if l.bankValue img 0 j == some v then none else some (j, v)

/-- An entry of the force table at the boundary that opens n (R290, R291). -/
def Force.stepTo (f : Force) (n : Cycle) : Option Force :=
  let f := match f.next with
    | some (v, p, c) => if c.toNat ≤ n.toNat then { f with value := v, perm := p, start := c, next := none } else f
    | none => f
  match f.remove with
  | none => some f
  | some c =>
    if n.toNat < c.toNat then some f
    else match f.next with
      | some (v, p, k) => some { f with value := v, perm := p, start := k, remove := none, next := none }
      | none => none

/-- The delta of the running cycle after the vote (R208): changed node values, timer words that the queued operations
set, and the records as they stand after the boundary that follows. -/
def Lane.delta (l : Lane) (img : Image) (sealed : Bool) : SnapDelta :=
  let n := l.cyc.num + 1
  let g := if sealed then l.stepGens else l
  { cyc := l.cyc.num, committed := sealed, nodes := l.deltaNodes img,
    timers := (l.store.ops.filterMap (·.2)).map fun o => (o.h, o.value),
    stns := (positions img.stations).map fun p => g.snapStation p.1 p.2 (l.stnNext n sealed p.1 p.2),
    borders := img.nbsOf.map fun p => snapBorder p.2 (l.ring.nbs[p.1].boundary p.2.maxAge.toNat n sealed),
    forces := (l.force.table.filterMap fun f => f.stepTo n).map (snapForce img) }

/-- Value in a list of pairs. -/
def pairAt {α : Type} (ps : List (Nat × α)) (k : Nat) : Option α := (ps.find? fun p => p.1 == k).map (·.2)

/-- A base moved across the boundary that follows a delta's cycle (R208, R242): timers advance at every boundary, the
force table steps (R257), the
rest only with a cycle that committed. -/
def snapNext (b : SnapBase) (tCycle : Nat) (d : SnapDelta) : SnapBase :=
  let tick := accTick b.acc tCycle
  let b := { b with cyc := d.cyc + 1, forces := d.forces, timers := b.timers.map fun t => (t.1, timerNext t.2 tick), acc := accNext b.acc tCycle }
  if !d.committed then b
  else
    { b with
      bcnCur := d.cyc, bcnPrev := b.bcnCur, sepoch := b.sepoch + 1,
      nodes := b.nodes.map fun k => { k with cur := (pairAt d.nodes k.idx).getD k.cur, prev := k.cur },
      timers := b.timers.map fun t => (t.1, (pairAt d.timers t.1).getD t.2),
      stns := d.stns, borders := d.borders }

/-- Deltas follow one another from a cycle. -/
def consecutive : Cycle → List SnapDelta → Bool
  | _, [] => true
  | c, d :: r => d.cyc == c && consecutive (c + 1) r

/-- A base with its deltas applied in cycle order; those of the cycles in `dropped` count as dropped (R184, R208, R242). -/
def snapApply (b : SnapBase) (tCycle : Nat) (dropped : List Cycle) (ds : List SnapDelta) : SnapBase :=
  ds.foldl (fun x d => snapNext x tCycle { d with committed := d.committed && !dropped.contains d.cyc }) b

/-- Words of a bank from plain values under a bank cycle number (R56). -/
def bankFrom (slot : BitVec 2) (img : Image) (n : Cycle) (vs : List (Nat × Half)) : Mem MemWord :=
  Mem.setAll MemWord.zero [] (vs.map fun p => (p.1, { word := encode slot p.2 (sigOf img p.1) n, ecc := .ok }))

/-- The stores take plain values: both banks under their bank cycle numbers and the timer words under cycle n (R56). -/
def Store.load (t : Store) (slot : BitVec 2) (img : Image) (n : Cycle) (b : SnapBase) : Store :=
  let c := t.cur
  let p := t.cur + 2
  let a := t.phys.set c.val (bankFrom slot img b.bcnCur (b.nodes.map fun k => (k.idx, k.cur)))
  { t.healAll cellTimer with
           phys := a.set p.val (bankFrom slot img b.bcnPrev (b.nodes.map fun k => (k.idx, k.prev))),
           bcnCur := b.bcnCur, bcnPrev := b.bcnPrev, acc := b.acc,
           timers := Mem.setAll 0 [] (b.timers.map fun q => (q.1, encode slot q.2 (sigTimer q.1) n)) }

/-- A station record from a snapshot; the recorder's maxima, MAC addresses and command SEQ stay the lane's own. -/
def StnRec.adopt (r : StnRec) (n : Cycle) (k : SnapStation) : StnRec :=
  { r with e := k.e, lastSeq := k.lastSeq, st := AdmState.ofCode k.state, run := k.run, blank := k.blank,
           age := stnAge n k.e, blanked := false }

/-- Station records from a snapshot, by STN_ID (R254); with the generations when the snapshot is of this module
(R315). -/
def Lane.adoptStations (l : Lane) (img : Image) (n : Cycle) (own : Bool) (ks : List SnapStation) : Lane :=
  (positions img.stations).foldl
    (fun m p =>
      match ks.find? fun k => k.stnId == p.2.stnId with
      | none => m
      | some k =>
        let m := m.modStn p.1 fun r => r.adopt n k
        if own then { m with nv := { m.nv with
          gens := Mem.set none m.nv.gens p.1 (some { cur := k.gen, pend := k.pending }) } } else m) l

/-- Border input ages from a snapshot, by NB_SLOT (R254). -/
def Lane.adoptBorders (l : Lane) (img : Image) (n : Cycle) (ks : List SnapBorder) : Lane :=
  { l with ring := { l.ring with
      nbs := img.nbsOf.foldl
        (fun v p => match ks.find? fun k => k.nbSlot == p.2.nbSlot.toNat with
          | none => v
          | some k => v.set p.1.val { v[p.1] with j := k.j, st := AdmState.ofCode k.state, run := k.run, blank := k.blank,
                                                  age := nbAge n k.j, blanked := false, cand := none }) l.ring.nbs } }

/-- A force is restrictive on its node (R292): VALUE is the restrictive value, or for FIELD-OUT the restrictive pattern
of the window. -/
def forceRestrictive (img : Image) (i : Nat) (v : Half) : Bool :=
  match img.nodes[i]? with
  | none => false
  | some e =>
    v == e.rval ||
      (e.kind == 6 &&
        (match windowOf img e with
         | none => false
         | some w =>
           w.len ≤ 16 && 0 < w.len &&
             v == fieldGet (restrictHalf img e w (fieldFirst w.off)) (restrictHalf img e w (fieldFirst w.off + 1))
               (w.off % 16) w.len false))

/-- A force entry from a snapshot. -/
def forceFrom (img : Image) (node : Nat) (k : SnapForce) : Force :=
  { node := node, value := k.value, out := ((img.nodes[node]?).map fun e => isOutputKind e.kind).getD false,
    perm := !forceRestrictive img node k.value, start := k.start, remove := k.remove,
    next := k.next.map fun q => (q.1, !forceRestrictive img node q.1, q.2) }

/-- A lane adopts a base of its own module at the boundary that opens the base's cycle (R56, R208). Where the lane has
not run the cycle before, its inbound buffers start untaken. -/
def Lane.adoptBase (l : Lane) (img : Image) (b : SnapBase) : Lane :=
  let n := b.cyc
  let m := if l.cyc.num = n then l else l.clearBuffers img n
  let m := { m with cyc := { m.cyc with num := n }, store := m.store.load m.slot img n b,
                    force := { m.force with table := b.forces.map fun (k : SnapForce) => forceFrom img k.node k },
                    ptn := { m.ptn with epoch := b.epoch }, nv := { m.nv with se := b.sepoch } }
  (m.adoptStations img n true b.stns).adoptBorders img n b.borders

end Sys2Proof.Machine
end

