-- ==== Sys2Proof/Machine/Vote.lean ====
section
/-!
DEFINITION. Digests, vote and seal (spec/09_agreement_and_vote.md R198 to R201, R206, R209; spec/08_field_telegrams.md
R166 to R170, R183, R184; spec/03_coded_state.md R66; spec/12_cluster_and_host.md R269; spec/02_the_cycle.md R37, R44;
spec/11_partner_and_failover.md R245, R246, R256).
-/
namespace Sys2Proof.Machine

/-- Values of outbound half-words by key as the seal decoder yields them; none where one fails (R60, R66). -/
def Lane.outHalves (l : Lane) (n : Cycle) (ks : List Nat) : Option (List Half) :=
  allSome (ks.map fun k => l.outValueAt false k n)

/-- The seal decoder meets a failing half-word among those of some keys: a code check failure, located by the pseudo-position
of the first one (R60, R66, R68). -/
def Lane.sealFails (l : Lane) (n : Cycle) (ks : List Nat) : Lane :=
  match ks.find? fun k => (l.outValueAt false k n).isNone with
  | none => l
  | some k => (l.noteEcc 0 (l.outBadAt false k).toNat).codeFail 6 (k / 256)

/-- Bytes of half-words, each most significant byte first (R166). -/
def payloadBytes (hs : List Half) : List Byte := hs.flatMap fun h => bytesOf h

/-- Command payload of a station through the seal decoder (R66, R170). -/
def Lane.payload (l : Lane) (n : Cycle) (p : Nat) (r : StationRec) : Option (List Byte) :=
  (l.outHalves n (stationOutKeys r p)).map fun hs => (payloadBytes hs).take r.cmdLen.toNat

/-- The local command word: bit k is 1 when outbound half-word k holds 1 (R89). -/
def Lane.localWord (l : Lane) (n : Cycle) : Option (BitVec 32) :=
  (l.outHalves n localKeys).map fun hs =>
    (List.range 32).foldl (fun w k => if hs.getD k (0 : Half) == 1#16 then w ||| (1#32 <<< k) else w) 0

/-- Neighbours with border outputs, in ascending q. -/
def Image.outNbs (img : Image) : List (Fin 8 × NbRec) := img.nbsOf.filter fun p => p.2.used != 0 && 0 < p.2.outCount.toNat

/-- Keys of the outbound half-words of every station, and of every neighbour with border outputs (R66, R199). -/
def sealKeys (img : Image) : List Nat :=
  ((positions img.stations).flatMap fun p => stationOutKeys p.2 p.1) ++ img.outNbs.flatMap fun p => nbOutKeys p.2 p.1.val

/-- A block of F's sums (R198). -/
def block (b : List Byte) : BitVec 128 := aesZero (ofBytes 128 b)

/-- Contribution of a node to N_sum (R198). -/
def nodeTerm (n : Cycle) (i : Nat) (v : Half) : BitVec 128 :=
  block (toBe 4 i ++ bytesOf v ++ bytesOf n ++ [0, 0, 0, 0x4E])

/-- Contribution of a timer operation to T_sum (R198). -/
def timerTerm (n : Cycle) (o : TimerOp) : BitVec 128 :=
  block (toBe 4 o.h ++ [o.op.setWidth 8] ++ bytesOf o.k ++ bytesOf n ++ [0, 0, 0x54])

/-- N_sum over the plain values of the last retirements (R58, R198). -/
def Lane.nodeSum (l : Lane) (nodes : Nat) : BitVec 128 :=
  (List.range nodes).foldl
    (fun a i => match Mem.get none l.store.plain i with
      | none => a
      | some v => a + nodeTerm l.cyc.num i v) 0

/-- T_sum over the queued timer operations (R198). -/
def Lane.timerSum (l : Lane) : BitVec 128 :=
  (l.store.ops.filterMap (·.2)).foldl (fun a o => a + timerTerm l.cyc.num o) 0

/-- d_s of a station (R199). -/
def stationDigest (n : Cycle) (p : Nat) (pay : List Byte) : BitVec 64 :=
  (sha256 (bytesOf n ++ toBe 2 p ++ pay)).extractLsb' 192 64

/-- d_s of every station (R199). -/
def Lane.stationDigests (l : Lane) (img : Image) (n : Cycle) : Option (List (BitVec 64)) :=
  allSome ((positions img.stations).map fun p => (l.payload n p.1 p.2).map (stationDigest n p.1))

/-- The whole-cycle digest over its parts (R199). -/
def wholeDigest (n : Cycle) (ns ts : BitVec 128) (ds : List (BitVec 64)) (border : List Half) (word : BitVec 32) :
    BitVec 128 :=
  (sha256 (bytesOf n ++ bytesOf ns ++ bytesOf ts ++ (ds.flatMap fun d => bytesOf d) ++ payloadBytes border ++
    bytesOf word)).extractLsb' 128 128

/-- The output digest of a lane's running cycle (R198 to R200). -/
def Lane.digest (l : Lane) (x : LaneId) (img : Image) : Option DigestFrame :=
  let n := l.cyc.num
  match l.stationDigests img n, l.outHalves n (img.outNbs.flatMap fun p => nbOutKeys p.2 p.1.val), l.localWord n with
  | some ds, some bs, some w =>
    some { cyc := n, shadow := l.codeOf x == 5, stn := ds,
           whole := wholeDigest n (l.nodeSum img.hdr.nodes) l.timerSum ds bs w }
  | _, _, _ => none

/-- DIGEST_SEND (R200): when P5 and P6 are complete and the lane has not dropped the cycle. -/
def execDigestSend (l : LaneId) (s : State) : Answer :=
  let s := s.begin
  let m := s.lane l
  match m.boot.img with
  | none => .next s
  | some img =>
    if !(m.inCycle && m.phased l && m.evaluates && m.cyc.corr && !m.cyc.digSent && m.cyc.drop.isNone &&
        (m.missingRetire img.hdr.nodes).isNone) then .next s
    else
      match m.digest l img with
      | none => .next (s.setLane l (m.sealFails m.cyc.num (sealKeys img ++ localKeys)))
      | some f =>
        let k := { m with cyc := { m.cyc with digSent := true, phase := 7 }, vote := { m.vote with own := some f } }
        .next ((s.setLane l k).xcast l (.digest f))

/-- OUTPUT_DIGEST_RX (R200, R209): counts only with SHADOW clear, from a lane in service, by D_vote. The digest of a lane
in shadow is held until the boundary for the comparison of R209 alone (log entry 23). -/
def execOutputDigestRx (l sender : LaneId) (f : DigestFrame) (s : State) : Answer :=
  let s := s.begin
  let m := s.lane l
  if m.inCycle && !f.shadow && m.serves sender && sender != l && f.cyc == m.cyc.num && !m.cyc.voted then
    .next (s.setLane l { m with vote := { m.vote with digs := m.vote.digs.put sender (some f) } })
  else if m.inCycle && f.shadow && !m.serves sender && sender != l && f.cyc == m.cyc.num && m.codeOf sender == 5 then
    .next (s.setLane l { m with vote := { m.vote with digs := m.vote.digs.put sender (some f) } })
  else .next s

/-- Outcome of a vote: row of R201, lanes agreeing, digest not held, lane outvoted, agreed digest. -/
structure VoteRes where
  outcome  : BitVec 3
  agree    : LaneSet
  nodig    : LaneSet
  outvoted : Option LaneId
  whole    : Option DigestFrame
  deriving DecidableEq, Repr

/-- The cycle is sealed under an outcome (R201). -/
def VoteRes.sealed (r : VoteRes) : Bool := r.outcome == 0 || r.outcome == 1 || r.outcome == 3

/-- Two lanes hold equal whole-cycle digests (R201). -/
def sameDigest (d : PerLane (Option DigestFrame)) (p : LaneId × LaneId) : Bool :=
  match d.get p.1, d.get p.2 with
  | some f, some g => f.whole == g.whole
  | _, _ => false

/-- Pairs of lanes in the order of SEAL_PAIR. -/
def lanePairs : List (LaneId × LaneId) := [(.a, .b), (.b, .c), (.c, .a)]

/-- Vote outcomes of R201. -/
def settleVote (service : LaneSet) (d : PerLane (Option DigestFrame)) : VoteRes :=
  let nodig := LaneSet.those fun y => service.has y && (d.get y).isNone
  let two (p : LaneId × LaneId) : LaneSet := (noLanes.put p.1 true).put p.2 true
  let inSvc := lanePairs.filter fun p => service.has p.1 && service.has p.2
  match inSvc.find? (sameDigest d) with
  | some p =>
    let w := d.get p.1
    if service.count = 3 then
      if sameDigest d (p.2, p.1.third p.2) then
        { outcome := 0, agree := allLanes, nodig := nodig, outvoted := none, whole := w }
      else { outcome := 1, agree := two p, nodig := nodig, outvoted := some (p.1.third p.2), whole := w }
    else { outcome := 3, agree := two p, nodig := nodig, outvoted := none, whole := w }
  | none =>
    { outcome := if service.count = 3 then 2 else if service.count = 2 then 4 else 5, agree := noLanes, nodig := nodig,
      outvoted := none, whole := none }

/-- The lanes that a pair names, first-named first (R168). -/
def Pair.lanes : Pair → LaneId × LaneId
  | .ab => (.a, .b)
  | .bc => (.b, .c)
  | .ca => (.c, .a)

/-- SEAL_PAIR code of a pair (R168). -/
def Pair.code : Pair → BitVec 2
  | .ab => 1
  | .bc => 2
  | .ca => 3

/-- The pair of two different lanes. -/
def pairOf (l m : LaneId) : Pair :=
  match l.third m with
  | .a => .bc
  | .b => .ca
  | .c => .ab

/-- Pair of three agreeing lanes in cycle n (R183). -/
def rotatingPair (n : Cycle) : Pair := if n.toNat % 3 = 0 then .ab else if n.toNat % 3 = 1 then .bc else .ca

/-- Seal set after a vote: pair and spare (R183). -/
def sealSet (n : Cycle) (r : VoteRes) : Option (Pair × Option LaneId) :=
  if r.outcome = 0 then
    let p := rotatingPair n
    some (p, some (p.lanes.1.third p.lanes.2))
  else if r.outcome = 1 || r.outcome = 3 then
    (lanePairs.find? fun p => r.agree.has p.1 && r.agree.has p.2).map fun p => (pairOf p.1 p.2, none)
  else none

/-- A lane belongs to a seal set. -/
def inSealSet (q : Pair × Option LaneId) (x : LaneId) : Bool := q.1.lanes.1 == x || q.1.lanes.2 == x || q.2 == some x

/-- A force is active in a cycle (R185). -/
def Lane.forced (l : Lane) (n : Cycle) : Bool := l.force.table.any fun f => f.activeIn n

/-- Bytes 0x00 to 0x21 of a command telegram with SEAL_PAIR 0 (R168, R169). -/
def Lane.commandHead (l : Lane) (img : Image) (p : Nat) (r : StationRec) (n : Cycle) : List Byte :=
  [1, 0x43, r.cmdFmt, if l.forced n then 1 else 0] ++ bytesOf r.stnId ++ bytesOf img.params.areaId ++ bytesOf n ++
    [img.own, 0] ++ bytesOf l.ptn.epoch ++ bytesOf ((l.stn p).seqOut + 1) ++
    bytesOf (((l.gen p).map (·.cur)).getD 0) ++ bytesOf r.cmdLen

/-- A lane's tag on the command telegram of a station (R169). -/
def Lane.commandTag (l : Lane) (x : LaneId) (img : Image) (n : Cycle) (p : Nat × StationRec) : Option (BitVec 64) :=
  match l.payload n p.1 p.2, l.keyFor x labelStation p.2.stnId (((l.gen p.1).map (·.cur)).getD 0) with
  | some pay, some k => some (tagOf k (l.commandHead img p.1 p.2 n ++ pay))
  | _, _ => none

/-- Generation in use for a purpose and receiving area (R318). -/
def Lane.inUse (l : Lane) (purpose : Byte) (area : Word) : Option Word :=
  (l.nv.uses.find? fun u => u.1 == purpose && u.2.1 == area).map (·.2.2)

/-- Segments of a neighbour's border outputs: first half-word and count (R269). -/
def segmentsOf (r : NbRec) : List (Nat × Nat) :=
  (List.range ((r.outCount.toNat + 639) / 640)).map fun k => (640 * k, min 640 (r.outCount.toNat - 640 * k))

/-- Body bytes 0x00 to 0x1B + 2·COUNT of a BORDER frame with SEAL_PAIR 0 (R269). -/
def Lane.borderBody (l : Lane) (img : Image) (r : NbRec) (gen : Word) (n : Cycle) (seg : Nat) (f : Nat × Nat)
    (vs : List Half) : List Byte :=
  bytesOf img.params.areaId ++ bytesOf r.nbArea ++ bytesOf n ++
    [BitVec.ofNat 8 (seg * 16 + (r.outCount.toNat + 639) / 640), 0] ++ bytesOf l.ptn.epoch ++ bytesOf gen ++ toBe 2 f.1 ++
    toBe 2 f.2 ++ payloadBytes vs

/-- The border segments of a cycle in the order of the seal tags: neighbour, generation, bytes; none where a half-word
fails (R66, R269). A neighbour without a generation in use has none (R318). -/
def Lane.borderSegments (l : Lane) (img : Image) (n : Cycle) : Option (List (NbRec × Word × List Byte)) :=
  allSome (img.outNbs.flatMap fun p =>
    match l.inUse 0x42 p.2.nbArea with
    | none => []
    | some g => (positions (segmentsOf p.2)).map fun f =>
        (l.outHalves n ((List.range f.2.2).map fun k => ctxKey 1 p.1.val (f.2.1 + k))).map fun vs =>
          (p.2, g, l.borderBody img p.2 g n f.1 f.2 vs))

/-- A lane's tag on a border segment (R269). -/
def Lane.borderTag (l : Lane) (x : LaneId) (b : NbRec × Word × List Byte) : Option (BitVec 64) :=
  (l.keyFor x labelBorder b.1.nbArea b.2.1).map fun k => tagOf k b.2.2

/-- The tags of a lane on every command telegram and border segment of its cycle (R66, R183, R269). -/
def Lane.sealTags (l : Lane) (x : LaneId) (img : Image) : Option (List (BitVec 64) × List (BitVec 64)) :=
  let n := l.cyc.num
  match allSome ((positions img.stations).map (l.commandTag x img n)), l.borderSegments img n with
  | some ts, some bs => (allSome (bs.map (l.borderTag x))).map fun us => (ts, us)
  | _, _ => none

/-- Lanes that transmit on a field or ring port, as a lane knows them (R184). -/
def Lane.sealTargets (l : Lane) : List LaneId := ([Port.j4, .j5, .j6, .j7].filterMap l.txOf).eraseDups

/-- Lanes in service that have posted the takeover conditions (R245). -/
def Lane.takers (l : Lane) (x : LaneId) : Nat :=
  (LaneSet.those fun y => l.serves y && (if y = x then l.fail.takeMine else l.fail.takePeer.has y)).count

/-- Command SEQ restarts: the next telegram of every station has SEQ 1 (R170). -/
def Lane.restartSeq (l : Lane) : Lane :=
  { l with field := { l.field with stns := Mem.mapEntries StnRec.init (fun _ r => { r with seqOut := 0 }) l.field.stns } }

/-- This module becomes commander at an epoch (R177, R246). -/
def Lane.command (l : Lane) (img : Image) (epoch : Word) : Lane :=
  { l with ptn := { l.ptn with epoch := epoch },
           fail := { l.fail with prevCmdr := l.fail.curCmdr, curCmdr := some (img.own, epoch) } }

/-- Takeover in the running cycle (R246). -/
def Lane.takeOver (l : Lane) (img : Image) : Lane :=
  let e := l.ptn.pEpoch + 1
  let m := (l.command img e).restartSeq
  { m with nv := { m.nv with epFloor := e }, fail := { m.fail with tookAt := some l.cyc.num } }

/-- A standby takes over when two lanes in service have posted every condition (R245). -/
def Lane.settleTakeover (l : Lane) (x : LaneId) (img : Image) : Lane :=
  if l.ptn.role == 1 && 2 ≤ l.takers x then l.takeOver img else l

/-- The active settles the cycle at which a handover takes effect (R256): it seals nothing when the candidate has shown
ROLE 0, and else resumes with epoch + 2. -/
def Lane.settleHandover (l : Lane) (img : Image) : Lane :=
  match l.fail.ho with
  | .taken h seen =>
    if h = l.cyc.num then
      if seen then { l with fail := { l.fail with standDown := true } }
      else
        let m := l.command img (l.ptn.epoch + 2)
        { m with fail := { m.fail with ho := .idle, hoCode := 0x0A } }
    else l
  | _ => l

/-- The lane's module seals its running cycle (R237, R246, R248). -/
def Lane.sealsNow (l : Lane) : Bool :=
  (l.ptn.role == 0 && !l.fail.standDown) || l.fail.tookAt == some l.cyc.num

/-- Records of a settled vote (R44, R201, R202, R213). -/
def Lane.recordVote (l : Lane) (x : LaneId) (r : VoteRes) : Lane :=
  let m := l.statB fun b => { b with outcome := r.outcome, agree := r.agree, nodig := r.nodig,
                                     outvoted := LaneSet.those fun y => r.outvoted == some y }
  let q := sealSet l.cyc.num r
  let m := { m with
    cyc := { m.cyc with voted := true, phase := 8, sealed := r.sealed, modDrop := !r.sealed },
    vote := { m.vote with
      pair := q.map (·.1), spare := q.bind (·.2), sealPair := q.map (·.1),
      wins := match r.outvoted with
        | none => m.vote.wins
        | some y => m.vote.wins.put y (m.vote.wins.get y ++ [l.cyc.num.toNat]),
      total := m.vote.total + (r.outvoted == some x).toNat } }
  if m.cyc.drop.isSome then m
  else if !r.sealed then m.noteCause 6 7
  else if r.outvoted == some x then (m.noteCause 5 7).mark 5 else m

/-- Bridge nodes of an image (R255). -/
def bridgeNodes (img : Image) : List (Nat × NodeEntry) := (positions img.nodes).filter fun p => p.2.carry

/-- Bridge digest of the running cycle, first 8 bytes (R255). -/
def Lane.bridgeDigest (l : Lane) (img : Image) : BitVec 64 :=
  ((bridgeNodes img).foldl
    (fun a p => match Mem.get none l.store.plain p.1 with
      | none => a
      | some v => a + block (bytesOf p.2.tag ++ bytesOf v ++ bytesOf l.cyc.num ++ [0, 0, 0, 0x42])) (0 : BitVec 128)).extractLsb'
    64 64

/-- Digests that tracking and heartbeats use after the vote (R240, R243, R255). Only a lane that agrees with the voted
digest has the module's node values for a bridge digest (log entry 113). -/
def Lane.keepDigests (l : Lane) (x : LaneId) (img : Image) (r : VoteRes) : Lane :=
  { l with fail := { l.fail with
      digNow := if r.sealed then (r.whole.map fun f => (l.cyc.num, f.whole)) else none,
      bdNow := if r.sealed && r.agree.has x && l.cyc.drop.isNone then some (l.cyc.num, l.bridgeDigest img) else none } }

/-- What the lane's module seals in the running cycle waits on its D_agree: a standby that may take over in it, and an active
that settles a handover in it (R245, R256; log entry 114). -/
def Lane.sealWaits (l : Lane) : Bool :=
  l.ptn.role == 1 || (match l.fail.ho with
    | .taken h _ => h == l.cyc.num
    | _ => false)

/-- Own digest as the vote counts it: a lane that dropped the cycle has none (R36, R201). -/
def Lane.ballots (l : Lane) (x : LaneId) : PerLane (Option DigestFrame) :=
  if l.serves x then l.vote.digs.put x (if l.cyc.drop.isSome then none else l.vote.own) else l.vote.digs

/-- Every digest that can still count is held. -/
def Lane.ballotsIn (l : Lane) (x : LaneId) : Bool :=
  laneList.all fun y => !l.serves y || (if y = x then l.vote.own.isSome || l.cyc.drop.isSome
    else (l.vote.digs.get y).isSome)

/-- A lane of the seal set forms its tags and sends them to the transmit lanes, or a failure report (R63, R66, R184). -/
def State.sealCycle (s : State) (x : LaneId) (img : Image) : State :=
  let l := s.lane x
  match l.vote.pair with
  | none => s
  | some p =>
    if !(l.sealsNow && l.cyc.drop.isNone && inSealSet (p, l.vote.spare) x) then s
    else
      let u := l.useTables img [(paramTable, 0)]
      let tags := if u.2 then l.sealTags x img else none
      let f : SealFrame := { cyc := l.cyc.num, tags := tags }
      let m := { u.1 with vote := { u.1.vote with tags := u.1.vote.tags.put x (some f) } }
      let m := if tags.isNone then m.sealFails l.cyc.num (sealKeys img) else m
      (l.sealTargets.filter (· != x)).foldl (fun t y => t.xsend x y (.seal f)) (s.setLane x m)

/-- A source sends the delta of the cycle to the lanes it serves, and the active's partner link transmit lane to a
partner in transfer (R208, R239, R242). -/
def State.sendDeltas (s : State) (x : LaneId) (img : Image) (r : VoteRes) : State :=
  let l := s.lane x
  let ys := laneList.filter fun y => l.re.serving.has y && y != x
  let p := l.active && l.fail.base.isSome && l.txOf .j8 == some x
  if ys.isEmpty && !p then s
  else
    let d := l.delta img r.sealed
    let s := ys.foldl (fun t y => t.xsend x y (.snap (.delta d))) s
    if p then s.emit (.snapDelta d) else s

/-- VOTE (R201, R66): the lane settles the outcome when it holds every digest that can count, or at D_vote; lanes of the seal
set form their tags. A changed handover code raises event 7 (R277). -/
def execVote (l : LaneId) (t : Nat) (s : State) : Answer :=
  let s := s.begin
  let m := s.lane l
  match m.boot.img with
  | none => .next s
  | some img =>
    if !(m.inCycle && m.phased l && m.evaluates && !m.cyc.voted && (m.ballotsIn l || dVote img.hdr ≤ t) &&
        (!m.sealWaits || dAgree img.hdr ≤ t)) then .next s
    else
      let s := s.passAgree l img t
      let m := (((s.lane l).meet 7 (dVote img.hdr) t).settleTakeover l img).settleHandover img
      let r := settleVote m.vote.service (m.ballots l)
      let k := (m.recordVote l r).keepDigests l img r
      let v := ((s.setLane l k).sealCycle l img).sendDeltas l img r
      .next (if k.fail.hoCode != (s.lane l).fail.hoCode then v.notify l 7 else v)

/-- SEAL_TAG_RX (R184): tags of the running cycle, or a failure report, by D_seal. -/
def execSealTagRx (l sender : LaneId) (f : SealFrame) (s : State) : Answer :=
  let s := s.begin
  let m := s.lane l
  if m.inCycle && f.cyc == m.cyc.num && !m.cyc.guard && sender != l then
    .next (s.setLane l { m with vote := { m.vote with tags := m.vote.tags.put sender (some f) } })
  else .next s

/-- SEAL_FAILURE_NOTICE_RX (R184): held by the boundary of n + 1, it makes cycle n one that the module did not seal. -/
def execSealFailureNoticeRx (l sender : LaneId) (cyc : Cycle) (s : State) : Answer :=
  let s := s.begin
  let m := s.lane l
  if m.inCycle && cyc == m.cyc.num && sender != l then
    .next (s.setLane l { m with cyc := { m.cyc with notice := true }, re := { m.re with noticed := m.re.noticed ++ [cyc] } })
  else .next s

end Sys2Proof.Machine
end

