-- ==== Sys2Proof/Machine/Links.lean ====
section
/-!
DEFINITION. What lanes learn from each other between votes: lane status and the exclusions it leads to
(spec/09_agreement_and_vote.md R202 to R205; spec/15_clocks.md R335; spec/02_the_cycle.md R40;
spec/11_partner_and_failover.md R245), exchange links that go down and come up (spec/01_lanes_and_seats.md R14), and the
snapshot that brings a lane back (spec/09_agreement_and_vote.md R207, R208).
-/
namespace Sys2Proof.Machine

/-- A lane excludes itself at the next boundary; code 6, until START, prevails over a return under R207. -/
def Lane.excludeSelf (l : Lane) (code : BitVec 4) : Lane :=
  { l with vote := { l.vote with
      selfExcl := some (if code = 6 || l.vote.selfExcl == some 6 then 6 else code) } }

/-- The code of a lane that may return under R207. -/
def mayReturn : BitVec 4 := 2

/-- The code of a lane excluded until START (R207, R213). -/
def untilStart : BitVec 4 := 6

/-- A lane's own cross-check reports (R335). -/
def Lane.ownOver (l : Lane) (x : LaneId) : LaneSet :=
  (noLanes.put x.next (2 ≤ l.meter.runNext)).put x.prev (2 ≤ l.meter.runPrev)

/-- The cross-check reports of every lane as this lane holds them. -/
def Lane.overOf (l : Lane) (x y : LaneId) : LaneSet := if y = x then l.ownOver x else l.vote.overs.get y

/-- Lane `y` is reported above 2,000 by every other lane in service; with two lanes in service both must report each
other (R335). -/
def Lane.xchkHit (l : Lane) (x y : LaneId) : Bool :=
  let others := laneList.filter fun z => z != y && l.serves z
  l.serves y && !others.isEmpty && others.all (fun z => (l.overOf x z).has y) &&
    (l.vote.service.count != 2 || others.all fun z => (l.overOf x y).has z)

/-- Lanes that R335 excludes at this boundary. -/
def Lane.xchkExcluded (l : Lane) (x : LaneId) : LaneSet := LaneSet.those (l.xchkHit x)

/-- The set each lane reported for the last boundary; the own set is the one held (R203). -/
def Lane.reported (l : Lane) (x y : LaneId) : Option LaneSet := if y = x then some l.vote.service else l.vote.sets.get y

/-- Lanes that take part in the comparison of R203: those held in service here, and those that hold themselves in
service. -/
def Lane.claimants (l : Lane) (x : LaneId) : LaneSet :=
  LaneSet.those fun y => l.serves y || ((l.reported x y).map fun t => t.has y).getD false

/-- Lanes that R203 excludes at this boundary, from the sets reported for the last one: the lane that differs from a
set common to the other two; every lane where all three differ; both where two differ. A set not received decides
nothing (log entry 24). -/
def Lane.setExcluded (l : Lane) (x : LaneId) : LaneSet :=
  let c := l.claimants x
  if c.count = 3 then
    match l.reported x .a, l.reported x .b, l.reported x .c with
    | some a, some b, some d =>
      if a = b then (if d = a then noLanes else noLanes.put .c true)
      else if b = d then noLanes.put .a true
      else if a = d then noLanes.put .b true
      else allLanes
    | _, _, _ => noLanes
  else if c.count = 2 then
    match laneList.filter c.has with
    | [y, z] =>
      match l.reported x y, l.reported x z with
      | some a, some b => if a = b then noLanes else c
      | _, _ => noLanes
    | _ => noLanes
  else noLanes

/-- Latency of the links that a frame crossed, in 0.1 µs (R40). -/
def State.latency (s : State) (l sender : LaneId) (relayed : Bool) : Nat :=
  if relayed then (s.lane l).align.lat.get (l.third sender) + (s.lane (l.third sender)).align.lat.get sender
  else (s.lane l).align.lat.get sender

/-- A peer's state as its lane status reports it (R13, R213); a lane that is no longer in shadow has no run of
matches (R209). -/
def Lane.peerCode (l : Lane) (y : LaneId) (f : LaneStatus) : Lane :=
  if l.serves y then l
  else
    let m := { l with vote := { l.vote with codes := l.vote.codes.put y (if f.code = 1 then l.codeOf y else f.code) } }
    if f.code = 5 then m else { m with re := { m.re with peerMatch := m.re.peerMatch.put y 0 } }

/-- A peer's lane status frame of the running cycle (R203, R335, R245, R40). `lat` is the latency subtracted. One that
arrives after the lane's own freeze is no longer compared with the own boundary, the model's choice (log entry 99). -/
def Lane.takeStatus (l : Lane) (y : LaneId) (lat : Nat) (f : LaneStatus) : Lane :=
  let m := l.peerCode y f
  { m with
    peers := m.peers.put y (some f),
    vote := { m.vote with sets := m.vote.sets.put y (some f.service), overs := m.vote.overs.put y f.overs },
    fail := { m.fail with takePeer := m.fail.takePeer.put y (m.fail.takePeer.has y || f.takeover) },
    align := { m.align with skew := if (m.align.skew.get y).isNone && !m.cyc.frozen
                                    then m.align.skew.put y (some (f.arrival - lat)) else m.align.skew } }

/-- Boundary of a lane against the own one (R40). -/
def Lane.boundaryOf (l : Lane) (x y : LaneId) : Option Int := if y = x then some 0 else l.align.skew.get y

/-- Twice the median of three boundaries, or twice the midpoint of two (R40). -/
def twiceMedian : List Int → Option Int
  | [a, b] => some (a + b)
  | [a, b, c] => some (2 * (a + b + c - max a (max b c) - min a (min b c)))
  | _ => none

/-- Corrected skews shown for the cycle (R45). -/
def Lane.noteSkews (l : Lane) (x : LaneId) : Lane :=
  l.statA fun a => { a with skewNext := (l.align.skew.get x.next).getD a.skewNext,
                            skewPrev := (l.align.skew.get x.prev).getD a.skewPrev }

/-- A boundary lies more than 50 µs from the median (R40). -/
def outOfStep (med2 v : Int) : Bool := 1000 < (2 * v - med2).natAbs

/-- Slew of the next cycle toward the median, at most 500 ppm of T_cycle, in 0.1 µs (R40). -/
def slewOf (tCycle : Nat) (med2 : Int) : Int := max (-(tCycle / 2 : Nat)) (min (tCycle / 2 : Nat) (med2 / 2))

/-- The lane's boundary against the median, once the boundaries of every lane in service are known: slew, warning, and
after three boundaries in a row the exclusion of a lane out of step (R40, R202). At a boundary that a peer's missing frame
leaves unjudged SKEW_WARN keeps its last value, the model's choice (log entry 100). -/
def Lane.alignStep (l : Lane) (x : LaneId) (tCycle : Nat) : Lane :=
  let ms := laneList.filter fun y => y == x || l.serves y
  match allSome (ms.map (l.boundaryOf x)) with
  | none => l
  | some vs =>
    match twiceMedian vs with
    | none => l
    | some m2 =>
      if l.align.judged then l
      else
        let runs := ms.foldl
          (fun (r : PerLane Nat) y => r.put y (if outOfStep m2 ((l.boundaryOf x y).getD 0) then r.get y + 1 else 0))
          l.align.outRuns
        let m := { l with align := { l.align with
          judged := true, outRuns := runs, med2 := m2, skewWarn := outOfStep m2 0,
          slew := if l.ptn.adopted && l.ptn.role != 0 then l.align.slew else slewOf tCycle m2 } }
        let m := { m with vote := { m.vote with
          excl := LaneSet.those fun y => m.vote.excl.has y || (y != x && m.serves y && 3 ≤ runs.get y) } }
        if 3 ≤ runs.get x then
          (({ m with align := { m.align with outStep := true } } : Lane).dropCycle 7 0).excludeSelf mayReturn
        else m

/-- A lane that did not post the takeover conditions while two lanes in service did drops the cycle (R245); the spec
gives no cause code for it, so the code is a free value. -/
def State.dissent (s : State) (x : LaneId) : State :=
  let l := s.lane x
  if l.cyc.judged && (l.ptn.role == 1 || l.ptn.role == 2) && l.serves x && !l.fail.takeMine && 2 ≤ l.takers x &&
      l.cyc.drop.isNone then
    let v := s.fresh 4
    v.2.modLane x fun m => m.dropCycle v.1 4
  else s

/-- Event 1, where the state codes of the lanes differ from those that the lane held before (R277). -/
def State.tellCodes (s : State) (x : LaneId) (l : Lane) : State :=
  if (s.lane x).vote.codes != l.vote.codes then s.notify x 1 else s

/-- LANE_STATUS_RX (R203, R40). A frame of the next cycle is held for the own boundary (log entry 24). -/
def execLaneStatusRx (l sender : LaneId) (f : LaneStatus) (s : State) : Answer :=
  let s := s.begin
  let m := s.lane l
  if !m.live || !m.mode.armed || !m.cyc.running || sender = l then .next s
  else if f.cyc = m.cyc.num then
    let k := (m.takeStatus sender (s.latency l sender f.relayed) f).noteSkews l
    .next (((s.setLane l (k.alignStep l ((k.boot.img.map (·.hdr.tCycle)).getD 0))).dissent l).tellCodes l m)
  else if f.cyc = m.cyc.num + 1 then
    .next (s.setLane l { m with vote := { m.vote with early := m.vote.early.put sender (some f) } })
  else .next s

/-- The lanes at the ends of a link. -/
def linkEnds : XLink → LaneId × LaneId
  | .ab => (.a, .b)
  | .bc => (.b, .c)
  | .ca => (.c, .a)

/-- Number of a link in `State.links`. -/
def linkNum (k : XLink) : Nat := linkOf (linkEnds k).1 (linkEnds k).2

/-- The lane that both links down have in common, while exactly two links are down (R14). -/
def State.isolatedLane (s : State) : Option LaneId :=
  match laneList.filter s.isolated with
  | [x] => some x
  | _ => none

/-- Lane `y` notes that lane `x` is isolated: it is excluded at the next boundary (R14, R202). -/
def Lane.noteIsolated (m : Lane) (y x : LaneId) : Lane :=
  if !m.mode.armed || !m.serves x then m
  else if y = x then m.excludeSelf mayReturn
  else { m with vote := { m.vote with excl := m.vote.excl.put x true } }

/-- An isolated lane is excluded at the next boundary, by itself and by the others (R14, R202). -/
def State.noteIsolation (s : State) : State :=
  match s.isolatedLane with
  | none => s
  | some x => s.mapLanes fun y m => m.noteIsolated y x

/-- The isolation that stands when a lane's boundary comes (R14). -/
def State.isolateAt (s : State) (y : LaneId) : State :=
  match s.isolatedLane with
  | none => s
  | some x => s.modLane y fun m => m.noteIsolated y x

/-- A link is declared down, which the lanes at both ends report (R13). -/
def State.loseLink (s : State) (x y : LaneId) : State :=
  let t := { s with links := s.links &&& ~~~(1#3 <<< linkOf x y) }
  (t.modLane x fun m => if m.live then m.mark 6 else m).modLane y fun m => if m.live then m.mark 6 else m

/-- XL_LINK_DOWN (R13, R14). -/
def execXlLinkDown (k : XLink) (s : State) : Answer :=
  .next (s.begin.loseLink (linkEnds k).1 (linkEnds k).2).noteIsolation

/-- Frames that failed their CRC-32C on the links to the next and the previous lane in the cycle that ended: counted, with
the cycles in a row that had any (R13, R387). -/
def Lane.noteDiscards (l : Lane) (next prev : Nat) : Lane :=
  let run (k r : Nat) : Nat := if k = 0 then 0 else if 3 ≤ r then 1 else r + 1
  { l with xlDisc := (l.xlDisc.1 + next, l.xlDisc.2 + prev), xlRun := (run next l.xlRun.1, run prev l.xlRun.2) }

/-- A link with discarded frames in 3 consecutive cycles is declared down (R13). -/
def State.closeLinks (s : State) (x : LaneId) (next prev : Nat) : State :=
  let m := (s.lane x).noteDiscards next prev
  let t := s.setLane x m
  let t := if 3 ≤ m.xlRun.1 && t.linkUp x x.next then t.loseLink x x.next else t
  if 3 ≤ m.xlRun.2 && t.linkUp x x.prev then t.loseLink x x.prev else t

/-- XL_LINK_UP (R14): ends relaying and isolation; an exclusion already due stays. -/
def execXlLinkUp (k : XLink) (s : State) : Answer :=
  .next { s.begin with links := s.links ||| (1#3 <<< linkNum k) }

/-- The lowest-lettered lane in service other than the lane itself (R207 step 2). -/
def Lane.snapSource (l : Lane) (x : LaneId) : Option LaneId := laneList.find? fun y => y != x && l.serves y

/-- The lane is at step 2 of a return: no snapshot held, no run of matches (R207, R209). -/
def Lane.awaitSnapshot (l : Lane) (x : LaneId) : Lane :=
  { l with vote := { l.vote with codes := l.vote.codes.put x 3 },
           re := { l.re with source := none, base := none, baseOk := false, dig := none, deltas := [], since := none,
                             matched := 0, wantStep2 := false, noticed := [] } }

/-- A lane at step 2 asks its source for a snapshot, once for each time it enters the step (R207). -/
def State.requestSnapshot (s : State) (x : LaneId) : State :=
  let l := s.lane x
  if l.codeOf x != 3 || l.re.source.isSome then s
  else match l.snapSource x with
    | none => s
    | some y => (s.setLane x { l with re := { l.re with source := some y } }).xsend x y .snapReq

/-- SNAPSHOT_REQUEST_RX (R207): a lane in service accepts at its next boundary. -/
def execSnapshotRequestRx (l sender : LaneId) (s : State) : Answer :=
  let s := s.begin
  let m := s.lane l
  if m.live && m.mode.armed && m.serves l && sender != l then
    .next (s.setLane l { m with re := { m.re with asked := m.re.asked.put sender true } })
  else .next s

/-- The base is verified: the digest sent equals the one over the values decoded back (R208). -/
def Reentry.verify (r : Reentry) : Reentry :=
  match r.base, r.dig with
  | some b, some d => { r with baseOk := Config.baseDigest b == d }
  | _, _ => { r with baseOk := false }

/-- A snapshot message at a lane whose source the sender is (R208). -/
def Lane.takeSnap (l : Lane) (x : LaneId) : SnapMsg → Lane
  | .base b =>
    { l with vote := { l.vote with codes := l.vote.codes.put x 4 },
             re := ({ l.re with base := some b, since := some b.cyc, deltas := [] } : Reentry).verify }
  | .digest d => { l with re := ({ l.re with dig := some d } : Reentry).verify }
  | .delta d => { l with re := { l.re with deltas := l.re.deltas ++ [d] } }

/-- SNAPSHOT_RX (R208). -/
def execSnapshotRx (l sender : LaneId) (m : SnapMsg) (s : State) : Answer :=
  let s := s.begin
  let k := s.lane l
  if k.live && (k.codeOf l == 3 || k.codeOf l == 4) && k.re.source == some sender then
    .next ((s.setLane l (k.takeSnap l m)).tellCodes l k)
  else .next s

/-- 64 cycles have passed since the boundary at which the base was captured (R208). -/
def Lane.pastSnap (l : Lane) : Bool :=
  match l.re.base with
  | none => false
  | some b => b.cyc.toNat + 64 ≤ l.cyc.num.toNat

/-- SNAPSHOT_TIMEOUT (R208): a base not verified within 64 cycles of b restarts the transfer from step 2. -/
def execSnapshotTimeout (l : LaneId) (s : State) : Answer :=
  let s := s.begin
  let m := s.lane l
  if m.live && m.codeOf l == 4 && !m.re.baseOk && m.pastSnap then
    .next (((s.setLane l (m.awaitSnapshot l)).requestSnapshot l).tellCodes l m)
  else .next s

end Sys2Proof.Machine
end

