-- ==== Sys2Proof/Machine/Deal.lean ====
section
/-!
DEFINITION. The deal and its rotation at a boundary (spec/05_seats_at_work.md R109, R110, R112 to R115), seat retirement
(spec/09_agreement_and_vote.md R210, R211) and the seat slices that advance it (spec/17_self_test.md R356 to R358).
-/
namespace Sys2Proof.Machine

/-- The deal of the first cycle after START: S8 dummy at phase 0, Sk holding hand k (R109). -/
def Lane.firstDeal (l : Lane) : Lane :=
  let m := l.mapSeats fun x _ =>
    let t := { SeatState.init with engine := (l.seat x).engine }
    if h : x.val < 8 then { t with code := 1, hand := some ⟨x.val, h⟩ } else { t with code := 2 }
  { m with rot := { Rot.init with dummy := some 8 } }

/-- The seat after `x` in the order S0 to S8, S0. -/
def seatAfter (x : SeatId) : SeatId := if x = 8 then 0 else x + 1

/-- The next seat after `x` that is not retired, within `n` steps. -/
def Lane.nextSeat (l : Lane) : Nat → SeatId → SeatId
  | 0, x => x
  | n + 1, x => let y := seatAfter x
    if (l.seat y).code = 5 then l.nextSeat n y else y

/-- The next dummy after seat `x` (R110). -/
def Lane.nextDummy (l : Lane) (x : SeatId) : SeatId := l.nextSeat 8 x

/-- A seat out of play: no hand, no node. -/
def SeatState.idle (t : SeatState) (code : BitVec 3) : SeatState :=
  { t.atNode none with code := code, hand := none }

/-- A seat is retired (R114): it holds no hand where it was the dummy, the rotation stops with no dummy. -/
def Lane.retireSeat (l : Lane) (x : SeatId) : Lane :=
  let m := l.setSeat x ((l.seat x).idle 5)
  { m with rot := { m.rot with dummy := if m.rot.dummy = some x then none else m.rot.dummy } }

/-- Number of retired seats. -/
def Lane.retired (l : Lane) : Nat := (seatList.filter fun x => (l.seat x).code == 5).length

/-- A seat becomes dummy at phase 0; S8's turns are counted (R110, R121). -/
def Lane.makeDummy (l : Lane) (x : SeatId) (code : BitVec 3) : Lane :=
  let m := l.setSeat x { (l.seat x).idle code with incRun := 0 }
  { m with rot := { m.rot with dummy := some x, phase := 0,
                               rotations := if x = 8 then m.rot.rotations + 1 else m.rot.rotations } }

/-- A seat takes a hand (R110, R113). -/
def Lane.giveHand (l : Lane) (x : SeatId) (h : Option (Fin 8)) : Lane :=
  l.setSeat x { (l.seat x).idle 1 with hand := h, repeated := false }

/-- R113 swap: the dummy takes the faulting seat's hand, and the faulting seat becomes dummy at phase 0. -/
def Lane.swapSeat (l : Lane) (d x : SeatId) : Lane :=
  let m := (l.giveHand d (l.seat x).hand).makeDummy x 2
  m.setSeat x { m.seat x with repeated := false }

/-- A settle mismatch (R112): back to phase 0 for repeated slices, or retired directly after repeated slices. -/
def Lane.settleFailed (l : Lane) (d : SeatId) : Lane :=
  if (l.seat d).repeated then l.retireSeat d
  else
    let m := l.setSeat d { (l.seat d).idle 4 with repeated := true, incRun := 0 }
    { m with rot := { m.rot with phase := 0 } }

/-- The phase advances by one (R109, R110). -/
def Lane.advancePhase (l : Lane) (d : SeatId) : Lane :=
  if l.rot.phase < 47 then { l with rot := { l.rot with phase := l.rot.phase + 1 } }
  else if l.rot.phase < 49 then
    let m := if l.rot.phase = 47 then l.setSeat d { (l.seat d).idle 3 with hand := (l.seat (l.nextDummy d)).hand } else l
    { m with rot := { m.rot with phase := l.rot.phase + 1 } }
  else
    let x := l.nextDummy d
    (l.giveHand d (l.seat x).hand).makeDummy x 2

/-- The lowest-numbered seat with a hand that raised a seat fault in the cycle (R113, R115). -/
def Lane.faultingSeat (l : Lane) : Option SeatId :=
  seatList.find? fun x => (l.seat x).code == 1 && l.rot.faults.any fun f => f.1 == x

/-- Cycles without a dummy in which each seat raised seat faults, among the last 16 (R211). -/
def Lane.noteFaultCycles (l : Lane) : Lane :=
  l.mapSeats fun x t =>
    let new := if l.rot.dummy.isNone && t.code == 1 && (l.rot.faults.any fun f => f.1 == x) then [l.cyc.num.toNat] else []
    { t with faults := (t.faults ++ new).filter fun c => l.cyc.num.toNat < c + 16 }

/-- Seats of a lane without a dummy that raised faults in 3 of 16 cycles (R211). -/
def Lane.worn (l : Lane) : List SeatId :=
  if l.rot.dummy.isSome then [] else seatList.filter fun x => (l.seat x).code == 1 && 3 ≤ (l.seat x).faults.length

/-- The deal moves on (R109 to R115). Of a slice mismatch of the dummy and a seat fault in one cycle the dummy is retired first,
the model's choice (log entry 102). -/
def Lane.moveDeal (l : Lane) : Lane :=
  let l := l.rot.retire.foldl (fun m x => m.retireSeat x) l.noteFaultCycles
  match l.rot.dummy with
  | none => l.worn.foldl (fun m x => m.retireSeat x) l
  | some d =>
    match l.faultingSeat with
    | some x => l.swapSeat d x
    | none => if l.rot.mismatch then l.settleFailed d else if l.rot.met then l.advancePhase d else l

/-- The records of a cycle are cleared for the next. -/
def Rot.clear (r : Rot) : Rot :=
  { r with met := false, ret := [], outs := [], ops := [], setFaults := [], actFaults := [], short := false, mismatch := false, faults := [],
           retire := [] }

/-- The lane runs step 1 of a return (R207). -/
def Lane.underTest (l : Lane) (x : LaneId) : Bool := l.codeOf x == 2

/-- Whether a seat slice runs in the lane. -/
def Lane.putSlice (l : Lane) (run : Bool) : Lane := { l with bist := { l.bist with sliceRun := run } }

/-- Slice number under test (R356, R207). -/
def Lane.sliceNum (l : Lane) (lane : LaneId) : Nat := if l.underTest lane then l.re.slices else l.rot.phase

/-- The seat is given the slice of the cycle: the dummy, or every seat in step 1 of a return that has yet to match it. -/
def Lane.givenSlice (l : Lane) (lane : LaneId) (x : SeatId) : Bool :=
  if l.underTest lane then !l.re.sliceSeats.contains x && (l.seat x).code != 5 && l.re.slices < 48
  else l.rot.dummy == some x && l.rot.phase < 48

/-- Seat slices start with the cycle, except during a dip (R342, R356, R207). -/
def Lane.startSlice (l : Lane) (x : LaneId) (dip : Bool) : Lane :=
  let m := l.putSlice (!dip && (if l.underTest x then l.re.slices < 48 else l.rot.dummy.isSome && l.rot.phase < 48))
  if m.bist.sliceRun then
    m.mapSeats fun y t => if m.givenSlice x y then { t with engine := SeatBist.load (m.sliceNum x) } else t
  else m

/-- Step 5 of R26. -/
def Lane.stepDeal (l : Lane) (x : LaneId) (dip : Bool) : Lane :=
  let m := l.moveDeal
  ({ m with rot := m.rot.clear } : Lane).startSlice x dip

/-- Counts of a seat slice mismatch (R366, R370). -/
def Lane.countMismatch (l : Lane) (x : SeatId) (k : Nat) : Lane :=
  ({ l with bist := { l.bist with mismatch := l.bist.mismatch + 1, seat := x.val, slice := k,
                                  mis256 := l.bist.mis256 ++ [l.cyc.num.toNat] },
            rcd := { l.rcd with b := { l.rcd.b with sliceMis := l.rcd.b.sliceMis + 1 } } } : Lane).mark 2

/-- A slice mismatch of a seat: as dummy it is retired at the next boundary (R114); in step 1 of a return it is retired
and the return is barred (R207). -/
def Lane.sliceMismatch (l : Lane) (x : SeatId) (k : Nat) (test : Bool) : Lane :=
  let m := l.countMismatch x k
  if test then { m.retireSeat x with re := { m.re with sliceBad := true } }
  else ({ m with rot := { m.rot with retire := m.rot.retire ++ [x] } } : Lane).putSlice false

/-- Durations of complete slices (R366, R370). -/
def Lane.noteSlice (l : Lane) (us : Nat) : Lane :=
  { l with bist := { l.bist with longest := max l.bist.longest us, last := us },
           rcd := { l.rcd with b := { l.rcd.b with sliceLong := max l.rcd.b.sliceLong us, slices := l.rcd.b.slices + 1 } } }

/-- Slices of step 1 that every seat has matched move on together (R207). -/
def Reentry.sliceDone (r : Reentry) (x : SeatId) : Reentry :=
  let ss := if r.sliceSeats.contains x then r.sliceSeats else r.sliceSeats ++ [x]
  if ss.length = 9 then { r with slices := r.slices + 1, sliceSeats := [] } else { r with sliceSeats := ss }

/-- The seat runs a slice in this cycle: the dummy, or every seat in step 1 of a return. -/
def Lane.runsSlice (l : Lane) (lane : LaneId) (x : SeatId) : Bool :=
  l.live && l.cyc.running && !l.cyc.guard && l.bist.sliceRun && l.givenSlice lane x

/-- A seat of a lane under test has matched its slice: when all seats have, the slice ends; the last slice ends step 1,
and the lane asks for a snapshot (R207). -/
def State.endSlice (s : State) (x : LaneId) (before : Nat) (k : Lane) : State :=
  if k.re.slices = before then s.setLane x k
  else if k.re.slices < 48 || k.re.sliceBad then s.setLane x (k.putSlice false)
  else (s.setLane x ((k.putSlice false).awaitSnapshot x)).requestSnapshot x

/-- SEAT_SLICE_COMPLETE (R357): a slice matches only when the first compare is equal and the second unequal. The MISRs hold
the expected signature where the first compare is equal, and a free value where it is not (log entry 112). -/
def execSeatSliceComplete (l : LaneId) (x : SeatId) (first second : Bool) (us : Nat) (s : State) : Answer :=
  let s := s.begin
  let m := s.lane l
  if !m.runsSlice l x then .next s
  else
    let g := if first then (Config.bistSignature (m.sliceNum l), s) else s.fresh 192
    let s := g.2
    let k := m.noteSlice us
    let k := k.setSeat x { k.seat x with incRun := 0, engine := (k.seat x).engine.finish g.1 }
    if first && !second then
      if m.underTest l then
        let k := { k with re := k.re.sliceDone x }
        .next (s.endSlice l m.re.slices k)
      else .next (s.setLane l (({ k with rot := { k.rot with met := true } } : Lane).putSlice false))
    else .next (s.setLane l (k.sliceMismatch x (m.sliceNum l) (m.underTest l)))

/-- SEAT_SLICE_INCOMPLETE (R358): the same slice runs again; four in a row count as a mismatch. -/
def execSeatSliceIncomplete (l : LaneId) (x : SeatId) (s : State) : Answer :=
  let s := s.begin
  let m := s.lane l
  if !m.runsSlice l x then .next s
  else
    let run := (m.seat x).incRun + 1
    let k := { m with bist := { m.bist with incompl := m.bist.incompl + 1 },
                      rcd := { m.rcd with b := { m.rcd.b with sliceInc := m.rcd.b.sliceInc + 1 } } }
    let k := k.setSeat x { k.seat x with incRun := if 4 ≤ run then 0 else run }
    .next (s.setLane l (if 4 ≤ run then k.sliceMismatch x (m.sliceNum l) (m.underTest l)
                        else if m.underTest l then k else k.putSlice false))

/-- Cycles that a lane may run untested (R210). -/
def untestedLimit (img : Image) : Nat := img.params.tUntested.toNat * 36000000 / img.hdr.tCycle

/-- UNTESTED_LIMIT (R210): the lane excludes itself at the next boundary, until START (R207). -/
def execUntestedLimit (l : LaneId) (s : State) : Answer :=
  let s := s.begin
  let m := s.lane l
  match m.boot.img with
  | none => .next s
  | some img =>
    let u := m.useTables img [(paramTable, 0)]
    if !(m.live && m.mode.armed && m.serves l && m.retired == 1) then .next s
    else if !u.2 then .next (s.setLane l u.1)
    else if untestedLimit img ≤ m.re.untested then .next (s.setLane l (m.excludeSelf untilStart)) else .next s

end Sys2Proof.Machine
end

