-- ==== Sys2Proof/Machine/Fcu.lean ====
section
/-!
DEFINITION. The field controller and the lanes' side of its links (spec/10_local_vital_io.md R214 to R235;
spec/01_lanes_and_seats.md R15 to R17, R21).
-/
namespace Sys2Proof.Machine

/-- Group of a channel (R144). -/
def groupOf (ch : Fin 32) : Fin 4 := ⟨ch.val / 8, by omega⟩

/-- The groups in order. -/
def groupList : List (Fin 4) := [0, 1, 2, 3]

/-- The channels of a group in order (R144). -/
def channelsOf (g : Fin 4) : List (Fin 32) :=
  [0, 1, 2, 3, 4, 5, 6, 7].map fun (k : Fin 8) => ⟨8 * g.val + k.val, by omega⟩

/-- Applies a function to one group. -/
def Fcu.modGrp (f : Fcu) (g : Fin 4) (h : FcuGrp → FcuGrp) : Fcu := { f with groups := f.groups.set g.val (h f.groups[g]) }

/-- Applies a function to one channel. -/
def Fcu.modCh (f : Fcu) (c : Fin 32) (h : FcuCh → FcuCh) : Fcu := { f with chans := f.chans.set c.val (h f.chans[c]) }

/-- MODE 1 of a group: DEGRADED (R144). -/
def Fcu.degrades (f : Fcu) (g : Fin 4) : Bool := ((f.localGrp[g.val]?).map (·.mode)) == some 1

/-- T_DEG of a group in seconds (R144). -/
def Fcu.tDeg (f : Fcu) (g : Fin 4) : Nat := ((f.localGrp[g.val]?).map fun r => r.tDeg.toNat).getD 0

/-- Filter limit of an input: FILTER, or 20 for RESTORE (R215); none before a map is held. -/
def Fcu.limit (f : Fcu) (k : Fin 33) : Option Nat :=
  if k.val = 32 then some 20 else (f.localIn[k.val]?).map fun r => r.filter.toNat

/-- Domain group of an input (R214). -/
def Fcu.domain (f : Fcu) (k : Fin 33) : Option (Fin 4) :=
  if k.val = 32 then none else (f.localIn[k.val]?).map fun r => Fin.ofNat 4 r.domain.toNat

/-- An input's domain supply is in undervoltage (R216). -/
def Fcu.domainLow (f : Fcu) (k : Fin 33) : Bool :=
  match f.domain k with
  | none => false
  | some g => f.groups[g].uv

/-- An input is invalid for a cause other than too few samples (R216). -/
def Fcu.inputBad (f : Fcu) (k : Fin 33) : Bool := f.fault || f.inputs[k].pathFail || f.domainLow k

/-- LIk is valid (R216). -/
def Fcu.inputValid (f : Fcu) (k : Fin 33) : Bool :=
  match f.limit k with
  | none => false
  | some l => !f.inputBad k && l ≤ f.inputs[k].n

/-- Revalidation: the counter restarts with output 0 (R215, R216). -/
def FcuIn.restart (i : FcuIn) : FcuIn := { i with c := 0, out := false, n := 0 }

/-- Reading of a comparator at a voltage in units of 0.1 V (R214). -/
def readLevel (old : Bool) (v : Int) : Bool := if 90 ≤ v then true else if v ≤ 80 then false else old

/-- One sample through the integrating counter (R215). -/
def FcuIn.sample (i : FcuIn) (limit : Nat) (v : Int) : FcuIn :=
  let r := readLevel i.raw v
  let c := if r then min (i.c + 1) limit else i.c - 1
  let o := if c = limit then true else i.out
  { i with raw := r, c := c, out := if c = 0 then false else o, n := min (i.n + 1) limit }

/-- A group lets its channels follow their commands (R221): NORMAL or DEGRADED, VPR energised and read so after a
press. -/
def Fcu.follows (f : Fcu) (g : Fin 4) : Bool :=
  let x := f.groups[g]
  (x.st == .normal || x.st == .degraded) && x.vpr && !x.waitVpr && !f.fault

/-- A channel that is on, its switch open for a pepper pulse or not (R228). -/
def FcuCh.isOn (x : FcuCh) : Bool := x.on || (x.pulse && !x.void)

/-- A channel's switch follows what is wanted of it. A running pulse keeps the switch open; a channel switched off in one
ends it without outcome (R228, R235). -/
def FcuCh.switch (x : FcuCh) (want : Bool) : FcuCh :=
  { x with on := want && !x.pulse, void := x.void || (x.pulse && !want), passes := if want then x.passes else 0 }

/-- A channel's command may close its switch (R221, R223). -/
def Fcu.wants (f : Fcu) (c : Fin 32) : Bool := f.chans[c].cmd && f.follows (groupOf c) && !f.chans[c].hold

/-- A channel that is off is held back while the bus is low, until the first application after the dip (R235, R342). -/
def Fcu.driveCh (f : Fcu) (low : Bool) (c : Fin 32) : FcuCh :=
  let x := f.chans[c]
  let dip := f.wants c && !x.isOn && (low || x.dip)
  { x.switch (f.wants c && !dip) with dip := dip }

/-- The application: every switch follows its command and its group's state (R221, R223). -/
def Fcu.drive (f : Fcu) (low : Bool) : Fcu :=
  let f := { f with chans := f.chans.map fun (x : FcuCh) => { x with dip := false } }
  { f with chans := Vector.ofFn fun c : Fin 32 => f.driveCh low c }

/-- The switches of one group follow their commands outside an application (R222, R231, R234). -/
def Fcu.driveGroup (f : Fcu) (low : Bool) (g : Fin 4) : Fcu :=
  { f with chans := Vector.ofFn fun c : Fin 32 => if groupOf c = g then f.driveCh low c else f.chans[c] }

/-- Every switch that may not stay closed opens; none closes (R221, R235, R342). -/
def Fcu.shut (f : Fcu) : Fcu :=
  { f with chans := Vector.ofFn fun c : Fin 32 => f.chans[c].switch (f.chans[c].isOn && f.wants c) }

/-- A group's degrade limit no longer runs (R233, R236). -/
def FcuGrp.stopLimit (x : FcuGrp) : FcuGrp := { x with degLeft := none, degUs := 0 }

/-- A group's degrade limit of `t` seconds starts, unless it runs already (R233, R234). -/
def FcuGrp.startLimit (x : FcuGrp) (t : Nat) : FcuGrp := { x with degLeft := some (x.degLeft.getD t) }

/-- A group enters LATCHED: its cut switch opens (R226, R231) and its limit no longer runs. -/
def Fcu.latch (f : Fcu) (g : Fin 4) : Fcu :=
  (f.modGrp g fun x => { x.stopLimit with st := .latched, cut := true, check := false }).shut

/-- Every read-back path of a group is good. -/
def Fcu.pathsGood (f : Fcu) (g : Fin 4) : Bool := (channelsOf g).all fun c => !f.chans[c].rbLost

/-- Coverage is restored: every channel that is on has passed 3 pulses in a row and every read-back path is good
(R231). -/
def Fcu.covered (f : Fcu) (g : Fin 4) : Bool :=
  f.pathsGood g && (channelsOf g).all fun c => !f.chans[c].isOn || 3 ≤ f.chans[c].passes

/-- Coverage loss in a group (R231, R233). -/
def Fcu.loseCover (f : Fcu) (g : Fin 4) : Fcu :=
  let x := f.groups[g]
  if x.st == .normal || x.st == .degraded then
    if f.degrades g then
      f.modGrp g fun x => { x.startLimit (f.tDeg g) with st := .degraded, covLost := true }
    else (f.modGrp g fun x => { x with covLost := true }).latch g
  else f

/-- A DEGRADED group whose coverage is restored is NORMAL and its limit is reset (R231, R233). -/
def Fcu.regain (f : Fcu) (g : Fin 4) : Fcu :=
  if f.groups[g].st == .degraded && f.covered g then
    f.modGrp g fun x => { x.stopLimit with st := .normal, covLost := false, degExp := false }
  else f

/-- Read-back of LOk at 5 V or more at the last sample or check (R227, R236). -/
def FcuCh.reads (c : FcuCh) : Bool := c.rb

/-- Seconds left of a group's degrade limit by the FCU's crystal; 0 when it does not run (R233, R236). -/
def FcuGrp.left (x : FcuGrp) : Nat := (x.degLeft.getD 0) - x.degUs / 1000000

/-- State code of a group (R236). -/
def GrpSt.code : GrpSt → BitVec 8
  | .off => 0
  | .normal => 1
  | .degraded => 2
  | .supplyLow => 3
  | .latched => 4

/-- Group byte of a cycle set, as LIO_GRP shows it without the lane's own bit (R236). -/
def FcuGrp.byte (g : FcuGrp) : BitVec 8 :=
  (g.st.code <<< 5) ||| (if g.vpr then 0x10 else 0) ||| (if g.warn then 8 else 0) ||| (if g.cut then 4 else 0)

/-- A word with bit k from a test. -/
def wordOf (p : Fin 32 → Bool) : BitVec 32 :=
  (List.finRange 32).foldl (fun w k => if p k then w ||| (1#32 <<< k.val) else w) 0

/-- An input among LI0 to LI31. -/
def liOf (k : Fin 32) : Fin 33 := ⟨k.val, by omega⟩

/-- The cycle set at the latch (R217, R220). -/
def Fcu.cycleSet (f : Fcu) : CycleSet :=
  { crcOk := true, seq := f.seqOut + 1, cyc := f.cyc, values := wordOf fun k => f.inputs[liOf k].out,
    valid := wordOf fun k => f.inputValid (liOf k), restore := f.inputs[(32 : Fin 33)].out, jam := f.jam,
    accepted := f.accFlag, accCnt := f.accepted, jamCnt := f.jammed, refCnt := f.refused,
    groups := f.groups.toList.map (·.byte), lplus := f.groups.toList.map fun g => g.mv / 200,
    faults := f.chans.toList.map (·.fault), readback := wordOf fun k => f.chans[k].reads,
    degLeft := f.groups.toList.map (·.left), present := f.present }

/-- A module that leaves the ACTIVE role: every group that is not LATCHED is OFF; SUPPLY-LOW with MODE 0 latches (R222,
R231). -/
def Fcu.leaveActive (f : Fcu) : Fcu :=
  (groupList.foldl (fun f g =>
    let x := f.groups[g]
    if x.st == .latched then f
    else if x.st == .supplyLow && !f.degrades g then f.latch g
    else f.modGrp g fun x => { x.stopLimit with st := .off, check := false, covLost := false, degExp := false }) f).shut

/-- A group at START: OFF, with what is measured of its supply kept (R222, R231). -/
def FcuGrp.atStart (x : FcuGrp) : FcuGrp :=
  { FcuGrp.init with vpr := x.vpr, warn := x.warn, uv := x.uv, mv := x.mv }

/-- A channel at START: off, with what is known of its read-back path kept (R222). -/
def FcuCh.atStart (c : FcuCh) : FcuCh :=
  { FcuCh.init with rb := c.rb, rbFail := c.rbFail, rbPass := c.rbPass, rbLost := c.rbLost }

/-- The FCU as START begins in the module: counts and frames afresh, its fault, tests and map kept (R215, R222, R236; log
entry 96). -/
def Fcu.atStart (f : Fcu) : Fcu :=
  { Fcu.init with inputs := f.inputs.map FcuIn.restart, groups := f.groups.map FcuGrp.atStart,
                  chans := f.chans.map FcuCh.atStart, localIn := f.localIn, localGrp := f.localGrp, fault := f.fault,
                  testsOk := f.testsOk }

/-- The FCU goes to START with the last lane that does (R222). -/
def State.fcuToStart (s : State) : State := if s.unarmed then { s with fcu := s.fcu.atStart } else s

/-- A module that takes the ACTIVE role: each OFF group is checked for 2 ms (R222). -/
def Fcu.takeActive (f : Fcu) : Fcu :=
  { f with groups := f.groups.map fun x => if x.st == .off then { x with check := true } else x }

/-- The role as the FCU takes it from the lanes present (R222). -/
def Fcu.setActive (f : Fcu) (a : Bool) : Fcu :=
  if a == f.active then f
  else if a then { f with active := true }.takeActive else { f with active := false }.leaveActive

/-- The BOUNDARY frame of the running cycle that a lane has sent in sequence (R217). -/
def Fcu.frameOf (f : Fcu) (l : LaneId) : Option BoundaryFrame := (f.held.get l).filter fun b => b.cyc == f.cyc

/-- Lanes present by the frames of the running cycle held and b2 (R221). -/
def Fcu.presentBy (f : Fcu) (b2 : Nat) : LaneSet :=
  LaneSet.those fun l => match f.frameOf l with
    | none => false
    | some b => !b.excluded && b.active && b.at_us ≤ b2 + 500

/-- The running degrade limits go on to b2 by the FCU's crystal (R233; log entry 110). -/
def Fcu.countLimits (f : Fcu) (b2 : Nat) : Fcu :=
  let d := b2 - f.lastB2.getD b2
  { f with groups := f.groups.map fun x => if x.degLeft.isSome then { x with degUs := x.degUs + d } else x, lastB2 := some b2 }

/-- b2 is fixed, and the lanes present with it; the role is taken with two of them (R217, R222). -/
def Fcu.fixB2 (f : Fcu) (b2 : Nat) : Fcu :=
  let p := f.presentBy b2
  let f := { (if f.b2.isNone then f.countLimits b2 else f) with b2 := some b2, present := p }
  if 2 ≤ p.count then f.setActive true else f

/-- Fewer than two lanes are present for the cycle: the module does not hold the ACTIVE role (R222). -/
def Fcu.settleRole (f : Fcu) : Fcu := if f.b2.isSome && f.present.count < 2 then f.setActive false else f

/-- Once the frames of all three lanes are held, no lane can still become present (R221, R222). -/
def Fcu.settleFull (f : Fcu) : Fcu :=
  if laneList.all fun l => (f.frameOf l).isSome then f.settleRole else f

/-- A cycle in which no frame counts, or whose time no frame fixed, leaves no lane present: the module does not hold the
ACTIVE role in it (R15, R222). -/
def Fcu.openCycle (f : Fcu) (n : Cycle) (first : Nat) (l : LaneId) : Fcu :=
  let f := if n == f.cyc + 1 && f.b2.isSome then f else f.setActive false
  { f with cyc := n, first := some first, b2 := none, arrived := [(l, first)], present := noLanes, applied := false,
           latched := false }

/-- A frame of the running cycle (R217, R221). -/
def Fcu.joinCycle (f : Fcu) (l : LaneId) (b : BoundaryFrame) (t : Nat) : Fcu :=
  let f := { f with arrived := f.arrived ++ [(l, b.at_us)] }
  match f.b2 with
  | none => if b.at_us ≤ t + 500 then (f.fixB2 b.at_us).settleFull else f
  | some b2 => (f.fixB2 b2).settleFull

/-- A lane other than `l` that sent a frame of cycle n within 0.5 ms before an instant, with its arrival. -/
def Fcu.pairOf (f : Fcu) (l : LaneId) (n : Cycle) (t : Nat) : Option (LaneId × Nat) :=
  laneList.findSome? fun y => if y == l then none else match f.held.get y with
    | none => none
    | some h => if h.cyc == n && t ≤ h.at_us + 500 then some (y, h.at_us) else none

/-- A single frame of another cycle does not disturb the running one: that cycle still awaits its second frame or its late
ones, or is the later of the two (R217; log entry 97). -/
def Fcu.stands (f : Fcu) (b : BoundaryFrame) : Bool :=
  match f.first with
  | none => false
  | some t => b.at_us ≤ (f.b2.getD t) + 500 || (f.b2.isSome && b.cyc.ult f.cyc)

/-- A BOUNDARY frame in sequence (R217, R221): one of the running cycle joins it; of another cycle, the second within 0.5 ms
opens it and fixes its b2, and a single one opens it unless the running cycle stands. -/
def Fcu.boundary (f : Fcu) (l : LaneId) (b : BoundaryFrame) : Fcu :=
  let f := { f with held := f.held.put l (some b), mask := f.mask.put l b.mask }
  match if b.cyc == f.cyc then f.first else none with
  | some t => f.joinCycle l b t
  | none => match f.pairOf l b.cyc b.at_us with
    | some (y, t) => (f.openCycle b.cyc t y).joinCycle l b t
    | none => if f.stands b then f else f.openCycle b.cyc b.at_us l

/-- FCU_BOUNDARY_RX (R217, R220, R221): a frame that fails its CRC is discarded; one out of sequence does not count. The
spec does not state which number the first frame after a reset of the FCU carries: the model counts it with any number, and
so the first COMMAND frame (DESIGN CHOICE, log entry 97). -/
def execFcuBoundaryRx (l : LaneId) (f : BoundaryFrame) (s : State) : Answer :=
  let s := s.begin
  if !f.crcOk then .next s
  else
    let old := s.fcu.seqB.get l
    let c := { s.fcu with seqB := s.fcu.seqB.put l (some f.seq) }
    let inSeq := match old with
      | none => true
      | some q => f.seq == q + 1
    .next { s with fcu := if inSeq then c.boundary l f else c }

/-- Lanes present whose COMMAND frame of the cycle before satisfies a test. -/
def Fcu.votesFor (f : Fcu) (p : Option (BitVec 32) → Bool) : Nat :=
  (LaneSet.those fun l => f.present.has l && (match f.cmds.get l with
    | none => false
    | some c => c.cyc + 1 == f.cyc && p c.word)).count

/-- Application of the output commands (R221, R37). A channel that goes off may restore its group's coverage (R231). -/
def Fcu.apply (f : Fcu) (low : Bool) : Fcu :=
  let f :=
    if 2 ≤ f.votesFor fun w => w.isNone then { f with applied := true }.drive low
    else
      { f with
        applied := true,
        chans := Vector.ofFn fun c : Fin 32 =>
          { f.chans[c] with cmd := 2 ≤ f.votesFor fun w => match w with
              | none => false
              | some v => v.getLsbD c.val } }.drive low
  groupList.foldl Fcu.regain f

/-- OUTPUT_APPLY (R221): at b2(n+1), from the COMMAND frames of cycle n of the lanes present. -/
def execOutputApply (s : State) : Answer :=
  let s := s.begin
  if s.fcu.b2.isSome && !s.fcu.applied then .next { s with fcu := s.fcu.apply s.sup.warnNow } else .next s

/-- A cycle in which no lane's frame counted: no lane is present and every output is off (R15). Its b2 stays open, so no
cycle set goes. -/
def Fcu.lostCycle (f : Fcu) (low : Bool) : Fcu :=
  let f := { f with cyc := f.cyc + 1, first := none, b2 := none, arrived := [], present := noLanes, latched := false }
  (f.setActive false).apply low

/-- B2_TIMEOUT (R217): without a second frame b2 is the first arrival, and the actions whose instant has passed follow
at once. Where no frame counted since the last cycle set, that cycle has none at all (R15). -/
def execB2Timeout (s : State) : Answer :=
  let s := s.begin
  match s.fcu.first, s.fcu.b2 with
  | some t, none => .next { s with fcu := ((s.fcu.fixB2 t).setActive false).apply s.sup.warnNow }
  | none, _ => .next { s with fcu := s.fcu.lostCycle s.sup.warnNow }
  | some _, some _ => if s.fcu.latched then .next { s with fcu := s.fcu.lostCycle s.sup.warnNow } else .next s

/-- CYCLE_SET_LATCH (R217, R222): the set goes to every lane, once for each b2; by now the window for presence has closed. -/
def execCycleSetLatch (s : State) : Answer :=
  let s := s.begin
  if s.fcu.b2.isNone || s.fcu.latched then .next s
  else
    let f := s.fcu.setActive (2 ≤ s.fcu.present.count)
    .next ({ s with fcu := { f with seqOut := f.seqOut + 1, accFlag := false, latched := true } }.emit (.cycleSet f.cycleSet))

/-- Group state in a group byte. -/
def stateOf (b : BitVec 8) : BitVec 3 := b.extractLsb' 5 3

/-- Limit of a group in cycles: T_DEG × 10,000 / T_CYCLE rounded down (R233). -/
def degCycles (img : Image) (g : Nat) : Nat :=
  ((img.localGrp[g]?).map fun r => r.tDeg.toNat * 10000 / img.hdr.tCycle).getD 0

/-- A lane's count of a group's degrade limit, by group number. -/
def Lio.deg (o : Lio) (g : Nat) : Option Nat :=
  if g = 0 then o.degLeft.a else if g = 1 then o.degLeft.b else if g = 2 then o.degLeft.c else o.deg3

/-- Replaces a lane's count. -/
def Lio.putDeg (o : Lio) (g : Nat) (v : Option Nat) : Lio :=
  if g = 0 then { o with degLeft := { o.degLeft with a := v } }
  else if g = 1 then { o with degLeft := { o.degLeft with b := v } }
  else if g = 2 then { o with degLeft := { o.degLeft with c := v } } else { o with deg3 := v }

/-- The lane counts a degrade limit from the first set that shows the group DEGRADED; SUPPLY-LOW leaves it running
(R231, R233). -/
def Lio.followGroup (o : Lio) (img : Image) (g : Nat) (b : BitVec 8) : Lio :=
  if stateOf b = 2 then o.putDeg g (some ((o.deg g).getD (degCycles img g)))
  else if stateOf b = 3 then o
  else { o.putDeg g none with expired := o.expired &&& ~~~(1#4 <<< g) }

/-- A received cycle set (R218, R220); a degrade limit that starts uses the group's record (R63). -/
def Lane.takeSet (l : Lane) (f : CycleSet) : Lane :=
  let fresh := f.cyc == l.cyc.num && l.cyc.running && !l.cyc.agreed && !l.lio.gotSet
  let o := { l.lio with set := some f, seqIn := some f.seq, gotSet := l.lio.gotSet || fresh,
                        late := l.lio.late + (fresh && l.cyc.frozen).toNat }
  match l.boot.img with
  | none => { l with lio := o }
  | some img =>
    let u := l.useTables img (((positions f.groups).filter fun p => stateOf p.2 = 2 && (o.deg p.1).isNone).map fun p =>
      (localGrpTable, p.1))
    if u.2 then { l with lio := (positions f.groups).foldl (fun o p => o.followGroup img p.1 p.2) o }
    else { u.1 with lio := o }

/-- CYCLE_SET_RX (R218, R220): a frame that fails its CRC, or comes out of sequence, is discarded and counted. -/
def execCycleSetRx (l : LaneId) (f : CycleSet) (s : State) : Answer :=
  let s := s.begin
  let m := s.lane l
  if !m.live then .next s
  else
    let inSeq := match m.lio.seqIn with
      | none => true
      | some q => f.seq == q + 1
    let bad : Lane := { m with lio := { m.lio with linkErr := m.lio.linkErr + 1,
                                                   seqIn := if f.crcOk then some f.seq else m.lio.seqIn } }
    let k := if f.crcOk && inSeq then m.takeSet f else bad
    let moved := match m.lio.set with
      | none => false
      | some g => g.groups.map stateOf != f.groups.map stateOf
    let s := s.setLane l k
    .next (if f.crcOk && inSeq && moved then s.notify l 9 else s)

/-- FCU_COMMAND_RX (R220). -/
def execFcuCommandRx (l : LaneId) (f : CommandFrame) (s : State) : Answer :=
  let s := s.begin
  if !f.crcOk then .next s
  else
    let inSeq := match s.fcu.seqC.get l with
      | none => true
      | some q => f.seq == q + 1
    let c := { s.fcu with seqC := s.fcu.seqC.put l (some f.seq) }
    .next { s with fcu := if inSeq then { c with cmds := c.cmds.put l (some f) } else c }

/-- Channels of a group that read 5 V or more with their switches off are stuck-on (R222, R227). -/
def Fcu.markStuck (f : Fcu) (g : Fin 4) (high : BitVec 8) : Fcu :=
  (positions (channelsOf g)).foldl
    (fun f p => if high.getLsbD p.1 then f.modCh p.2 fun c => { c with rb := true, fault := 1 }
                else f.modCh p.2 fun c => { c with rb := false }) f

/-- GROUP_OFF_CHECK (R222): the 2 ms check of an OFF group; bit k of `high` is channel LO(8g+k) at 5 V or more. -/
def execGroupOffCheck (g : Fin 4) (high : BitVec 8) (s : State) : Answer :=
  let s := s.begin
  let f := s.fcu
  if !(f.active && f.groups[g].st == .off && f.groups[g].check) then .next s
  else
    let f := f.markStuck g high
    if high = 0 then .next { s with fcu := (f.modGrp g fun x => { x with st := .normal, check := false }).driveGroup s.sup.warnNow g }
    else .next { s with fcu := f.latch g }

/-- A jam of RESTORE ends once it has been inactive for 100 ms, 2,000 samples, after its release (R232). -/
def Fcu.restJam (f : Fcu) : Fcu :=
  if !f.jam || f.inputs[(32 : Fin 33)].out then { f with jamRest := 0 }
  else if 2000 ≤ f.jamRest + 1 then { f with jam := false, jamRest := 0 } else { f with jamRest := f.jamRest + 1 }

/-- INPUT_SAMPLE (R214, R215, R227, R234): the voltages of LI0 to LI31 and RESTORE in units of 0.1 V, the L+ of each group in
millivolts and whether each output reads 5 V or more. A path that a test holds open gives the filter no sample (R216), and
an input whose record is not held is not filtered. -/
def execInputSample (k : InputScan) (s : State) : Answer :=
  let s := s.begin
  let f := s.fcu
  let ins := Vector.ofFn fun n : Fin 33 =>
    match (k.volts[n.val]?).join, f.limit n with
    | some v, some l => f.inputs[n].sample l v
    | _, _ => f.inputs[n]
  let grps := Vector.ofFn fun g : Fin 4 => { f.groups[g] with mv := k.mv.getD g.val f.groups[g].mv }
  let chs := Vector.ofFn fun c : Fin 32 => { f.chans[c] with rb := k.high.getD c.val f.chans[c].rb }
  .next { s with fcu := { f with inputs := ins, groups := grps, chans := chs }.restJam }

/-- INPUT_PATH_TEST (R216): two failures in a row mark the path failed, three passes clear it; the last cause of
invalidity that clears revalidates the input. -/
def execInputPathTest (k : Fin 33) (zero : Bool) (s : State) : Answer :=
  let s := s.begin
  let f := s.fcu
  let i := f.inputs[k]
  let i' : FcuIn :=
    if zero then { i with failRun := 0, passRun := i.passRun + 1, pathFail := i.pathFail && i.passRun + 1 < 3 }
    else { i with passRun := 0, failRun := i.failRun + 1, pathFail := i.pathFail || 2 ≤ i.failRun + 1 }
  let g := { f with inputs := f.inputs.set k.val i' }
  let g := if f.inputBad k && !g.inputBad k then { g with inputs := g.inputs.set k.val i'.restart } else g
  .next { s with fcu := g }

/-- READBACK_TEST (R227): two failures in a row mark the read-back path lost, three passes clear it. -/
def execReadbackTest (ch : Fin 32) (ok : Bool) (s : State) : Answer :=
  let s := s.begin
  let c := s.fcu.chans[ch]
  let c' : FcuCh :=
    if ok then
      let clear := c.rbLost && 3 ≤ c.rbPass + 1
      { c with rbFail := 0, rbPass := c.rbPass + 1, rbLost := c.rbLost && !clear,
               fault := if clear && c.fault == 4 then 0 else c.fault }
    else { c with rbPass := 0, rbFail := c.rbFail + 1, rbLost := c.rbLost || 2 ≤ c.rbFail + 1 }
  let f := { s.fcu with chans := s.fcu.chans.set ch.val c' }
  .next { s with fcu := f.regain (groupOf ch) }

/-- STUCK_ON_DETECT (R227, R231, R235): the group of a channel that is off yet reads 5 V or more latches; read-back is
suspended in SUPPLY-LOW, and after an accepted press until the VPR reads energised. -/
def execStuckOnDetect (ch : Fin 32) (s : State) : Answer :=
  let s := s.begin
  let g := groupOf ch
  let st := s.fcu.groups[g].st
  if s.fcu.chans[ch].isOn || st == .supplyLow || s.fcu.groups[g].waitVpr then .next s
  else
    let f := s.fcu.modCh ch fun c => { c with rb := true, fault := 1 }
    if st == .normal || st == .degraded then .next { s with fcu := f.latch g }
    else .next { s with fcu := f }

/-- A channel is held off with a fault code; its group's state does not change (R223). -/
def Fcu.holdOff (f : Fcu) (ch : Fin 32) (code : BitVec 4) : Fcu :=
  (f.modCh ch fun c => { c with hold := true, fault := code }).shut

/-- FAILED_OFF_DETECT (R227, R223). -/
def execFailedOffDetect (ch : Fin 32) (s : State) : Answer :=
  let s := s.begin
  if s.fcu.chans[ch].on then .next { s with fcu := s.fcu.holdOff ch 2 } else .next s

/-- No channel of a group pulses (R228). -/
def Fcu.quiet (f : Fcu) (g : Fin 4) : Bool := (channelsOf g).all fun c => !f.chans[c].pulse

/-- PEPPER_PULSE_START (R228, R342): the switch of a channel that is on opens; `current` is its on-state load current in
units of 0.1 mA. One channel of a group pulses at a time, and none starts in a dip of the bus. -/
def execPepperPulseStart (ch : Fin 32) (current : Nat) (s : State) : Answer :=
  let s := s.begin
  if s.fcu.chans[ch].on && s.fcu.quiet (groupOf ch) && !s.sup.warnNow then
    .next { s with fcu := s.fcu.modCh ch fun c => { c with on := false, pulse := true, void := false, cur := current } }
  else .next s

/-- Outcome of a pepper pulse (R229). -/
def Fcu.judgePulse (f : Fcu) (ch : Fin 32) (fall back : Bool) : Fcu :=
  let g := groupOf ch
  let c := f.chans[ch]
  if c.rbLost then (f.modCh ch fun c => { c with passes := 0, fault := 4 }).loseCover g
  else if fall then
    if back then
      (f.modCh ch fun c => { c with passes := c.passes + 1, fault := if c.fault == 3 then 0 else c.fault }).regain g
    else f.holdOff ch 2
  else if Config.openLoad ≤ c.cur then
    (f.modCh ch fun c => { c with rb := true, fault := 1, passes := 0 }).latch g
  else (f.modCh ch fun c => { c with passes := 0, fault := 3 }).loseCover g

/-- PEPPER_PULSE_END (R228, R229, R235): the switch closes again; a pulse cut short gives no outcome. -/
def execPepperPulseEnd (ch : Fin 32) (fall back : Bool) (s : State) : Answer :=
  let s := s.begin
  let c := s.fcu.chans[ch]
  if !c.pulse then .next s
  else
    let f := s.fcu.modCh ch fun c => { c with on := !c.void, pulse := false, void := false }
    .next { s with fcu := if c.void then f else f.judgePulse ch fall back }

/-- THERMAL_SHUTDOWN (R223). -/
def execThermalShutdown (ch : Fin 32) (s : State) : Answer :=
  .next { s.begin with fcu := s.fcu.holdOff ch 5 }

/-- OVERLOAD_RETRY (R223, R227): a channel held off that is still commanded on is switched on again; it stays held off
when the try fails. -/
def execOverloadRetry (ch : Fin 32) (takes : Bool) (s : State) : Answer :=
  let s := s.begin
  let c := s.fcu.chans[ch]
  if c.hold && c.cmd && takes then
    let f := s.fcu.modCh ch fun c => { c with hold := false, fault := 0 }
    .next { s with fcu := f.modCh ch fun _ => f.driveCh s.sup.warnNow ch }
  else .next s

/-- TOGGLE_STOP (R225): a generator given a wrong word, or none, stops until a boundary re-arms it (Lane.setToggles). -/
def execToggleStop (l : LaneId) (g : Fin 4) (s : State) : Answer :=
  .next (s.begin.modLane l fun m => { m with lio := { m.lio with toggle := m.lio.toggle &&& ~~~(1#4 <<< g.val) } })

/-- Lanes that toggle a group's line (R225). -/
def State.togglers (s : State) (g : Fin 4) : Nat := (LaneSet.those fun l => (s.lane l).lio.toggle.getLsbD g.val).count

/-- VPR_ENERGISE (R226, R16): with toggling from two lanes and the cut switch closed. -/
def execVprEnergise (g : Fin 4) (s : State) : Answer :=
  let s := s.begin
  let f := s.fcu
  if 2 ≤ s.togglers g && !f.groups[g].cut && !f.fault then
    .next { s with fcu := (f.modGrp g fun x => { x with vpr := true, waitVpr := false }).driveGroup s.sup.warnNow g }
  else .next s

/-- VPR_DEENERGISE (R226, R233): with toggling from fewer than two lanes or the cut switch open; without supply no
channel of the group reads 5 V. The FCU latches a DEGRADED group whose VPR reads de-energised, once it has settled that
the module still holds its role (log entry 96). -/
def execVprDeenergise (g : Fin 4) (s : State) : Answer :=
  let s := s.begin
  let f := s.fcu
  if 2 ≤ s.togglers g && !f.groups[g].cut && !f.fault then .next s
  else
    let f := f.modGrp g fun x => { x with vpr := false }
    let f := ((channelsOf g).foldl (fun f c => f.modCh c fun x => { x with rb := false }) f).settleRole
    if f.groups[g].st == .degraded then .next { s with fcu := f.latch g } else .next { s with fcu := f.shut }

/-- LPLUS_WARNING (R234): a sample below 19.2 V sets the flag; above it, the 100 ms have passed and the flag clears. -/
def execLplusWarning (g : Fin 4) (mv : Nat) (s : State) : Answer :=
  let s := s.begin
  .next { s with fcu := s.fcu.modGrp g fun x => { x with warn := mv < 19200 || (x.warn && mv == 19200), mv := mv } }

/-- LPLUS_UNDERVOLTAGE (R234). -/
def execLplusUndervoltage (g : Fin 4) (mv : Nat) (s : State) : Answer :=
  let s := s.begin
  let f := s.fcu
  if 16800 ≤ mv then .next s
  else
    let d := f.degrades g
    let f := f.modGrp g fun x => { x with uv := true, warn := true, mv := mv }
    if f.groups[g].st == .normal || f.groups[g].st == .degraded then
      .next { s with fcu := (f.modGrp g fun x =>
        { (if d then x.startLimit (f.tDeg g) else x) with st := .supplyLow, covLost := x.covLost || d }).shut }
    else .next { s with fcu := f }

/-- A group in SUPPLY-LOW after its recovery check (R234). -/
def Fcu.recover (f : Fcu) (g : Fin 4) (high : BitVec 8) : Fcu :=
  let f := f.markStuck g high
  let x := f.groups[g]
  if high != 0 then f.latch g
  else if !f.degrades g || x.degExp then f.latch g
  else f.modGrp g fun x => { x with st := .degraded }

/-- LPLUS_RECOVERY (R234): the inputs of the domain are revalidated, and a group in SUPPLY-LOW is checked and moved
on. -/
def execLplusRecovery (g : Fin 4) (mv : Nat) (high : BitVec 8) (s : State) : Answer :=
  let s := s.begin
  let f := s.fcu
  if !f.groups[g].uv || mv ≤ 19200 then .next s
  else
    let h := f.modGrp g fun x => { x with uv := false, warn := false, mv := mv }
    let ins := Vector.ofFn fun k : Fin 33 =>
      if f.inputBad k && !h.inputBad k then h.inputs[k].restart else h.inputs[k]
    let h := { h with inputs := ins }
    if h.groups[g].st == .supplyLow then .next { s with fcu := (h.recover g high).driveGroup s.sup.warnNow g }
    else .next { s with fcu := h }

/-- The cause of a LATCHED group is still present (R232): a channel reads stuck-on, L+ is below 19.2 V now (the warning flag
outlasts that by 100 ms), or coverage is lost and MODE is 0. -/
def Fcu.causePresent (f : Fcu) (g : Fin 4) : Bool :=
  ((channelsOf g).any fun c => f.chans[c].rb) || ((f.groups[g].warn || f.groups[g].uv) && f.groups[g].mv < 19200) ||
    (!f.degrades g && !f.pathsGood g)

/-- A LATCHED group leaves that state by RESTORE (R231, R232). A channel held off for overload or failed-off stays so until
its own try (R223). -/
def Fcu.restoreGroup (f : Fcu) (g : Fin 4) : Fcu :=
  let lost := !f.pathsGood g
  let f := (channelsOf g).foldl (fun f c => f.modCh c fun x =>
    { x with passes := 0, fault := if x.fault == 1 then 0 else x.fault }) f
  f.modGrp g fun x =>
    { x.stopLimit with
      cut := false, waitVpr := true, degExp := false, covLost := lost,
      degLeft := if f.active && lost then some (f.tDeg g) else none,
      st := if !f.active then .off else if lost then .degraded else .normal }

/-- An accepted press acts on every LATCHED group at once (R232). -/
def Fcu.restore (f : Fcu) : Fcu :=
  (groupList.foldl (fun f g =>
    if f.groups[g].st != .latched then f
    else if f.causePresent g then { f with refused := f.refused + 1 } else f.restoreGroup g) f).shut

/-- RESTORE_PRESS (R232): judged at the release by the milliseconds inactive before and active; held while the bus is
below its warning level. A jam ends with the 100 ms inactive before a press; the release of a press of 2 s does not end it. -/
def execRestorePress (inactiveMs activeMs : Nat) (s : State) : Answer :=
  let s := s.begin
  let f := s.fcu
  if inactiveMs < 100 then .next s
  else
    let f := { f with jam := f.jam && 2000 ≤ activeMs }
    if activeMs < 50 || 2000 ≤ activeMs then .next { s with fcu := f }
    else
      let f := { f with accepted := f.accepted + 1, accFlag := true }
      .next { s with fcu := if s.sup.warnNow then { f with heldPress := true } else f.restore }

/-- RESTORE_JAM (R232). -/
def execRestoreJam (s : State) : Answer :=
  .next { s.begin with fcu := { s.fcu with jam := true, jammed := s.fcu.jammed + 1, jamRest := 0 } }

/-- DEGRADE_LIMIT_FCU (R233, R234): a running limit expires; a DEGRADED group latches, one in SUPPLY-LOW latches on its
recovery. -/
def execDegradeLimitFcu (g : Fin 4) (s : State) : Answer :=
  let s := s.begin
  let f := s.fcu
  if f.groups[g].degLeft.isNone then .next s
  else
    let f := f.modGrp g fun x => { x with degExp := true, degLeft := some 0, degUs := 0 }
    .next { s with fcu := if f.groups[g].st == .degraded then f.latch g else f }

/-- DEGRADE_LIMIT_LANE (R233): the lane's count has expired and it stops toggling the group's line. -/
def execDegradeLimitLane (l : LaneId) (g : Fin 4) (s : State) : Answer :=
  let s := s.begin
  let m := s.lane l
  if m.lio.deg g.val == some 0 then
    .next (s.setLane l { m with lio := { m.lio with expired := m.lio.expired ||| (1#4 <<< g.val),
                                                    toggle := m.lio.toggle &&& ~~~(1#4 <<< g.val) } })
  else .next s

/-- FCU_FAULT (R21, R216): every local output off, every VPR de-energised, every input invalid. -/
def execFcuFault (s : State) : Answer :=
  let f : Fcu := { s.fcu with fault := true, groups := s.fcu.groups.map fun x => { x with vpr := false } }
  .next { s.begin with fcu := f.shut }

end Sys2Proof.Machine
end

