-- ==== Sys2Proof/Machine/ImageLoad.lean ====
section
/-!
DEFINITION. Reading a data key chip (spec/07_data_key.md R132, R133, R150): the key header, the image header with its
section table (R136, R138), the sections (R140 to R149) and the checks of the load in their order, each with its reason
code (R160).
-/
namespace Sys2Proof.Machine
open Config

/-- A load that stopped: reason code and ARM_REASON.INDEX (R151). -/
structure LoadStop where
  code  : Byte
  index : Nat
  deriving DecidableEq, Repr

/-- Magic of a key header, "NDK1" (R133). -/
def keyMagic : List Byte := [0x4E, 0x44, 0x4B, 0x31]

/-- Magic of an image, "NDIM" (R136). -/
def imgMagic : List Byte := [0x4E, 0x44, 0x49, 0x4D]

/-- LANE byte of a lane slot (R133). -/
def laneByte (slot : BitVec 2) : Byte := 0x41 + slot.setWidth 8

/-- CRC-32C stored at the end of a block of bytes, least significant byte first. -/
def crcAtEnd (b : List Byte) (n : Nat) : Bool := crc32c (slice b 0 n) == BitVec.ofNat 32 (leAt b n 4)

/-- All bytes are 0. -/
def allZero (b : List Byte) : Bool := b.all (· == 0)

/-- Step 1 of R150 on the key header's 256 bytes: none when it passes. An IMG_OFF or a short IMG_LEN counts as a wrong
header, the model's choice (log entry 106). -/
def keyHeaderStop (slot : BitVec 2) (h : List Byte) : Option LoadStop :=
  if h.length != 256 || slice h 0 4 != keyMagic || leAt h 4 2 != 1 || !crcAtEnd h 0xFC then some { code := 0x10, index := 0 }
  else if byteAt h 7 != laneByte slot then some { code := 0x11, index := 0 }
  else if leAt h 8 4 != 0x1000 || leAt h 0xC 4 < 1024 then some { code := 0x10, index := 0 }
  else if 62914560 < leAt h 0xC 4 then some { code := 0x18, index := 0 }
  else none

/-- Fields of the image header (R136). -/
def parseHeader (h : List Byte) : ImgHeader :=
  { slot1 := byteAt h 6, slot2 := byteAt h 7, hwIssues := BitVec.ofNat 16 (leAt h 8 2),
    fwMin := BitVec.ofNat 16 (leAt h 0xA 2), gen := BitVec.ofNat 32 (leAt h 0xC 4), tCycle := leAt h 0x10 2,
    tFreeze := leAt h 0x12 2, nodes := leAt h 0x14 4, cMax := leAt h 0x18 4, timers := leAt h 0x1C 4,
    progs := leAt h 0x20 4, readers := leAt h 0x24 4, succs := leAt h 0x28 4, stations := leAt h 0x2C 2,
    channels := leAt h 0x30 4, policies := leAt h 0x34 4, authKeyId := slice h 0x38 8, imgLen := 0 }

/-- Section table entry k: OFFSET, LENGTH, CRC (R138). -/
def sectionEntry (h : List Byte) (k : Nat) : Nat × Nat × Nat :=
  let o := 0x40 + 16 * k
  (leAt h (o + 4) 4, leAt h (o + 8) 4, leAt h (o + 12) 4)

/-- Sum of OUT_COUNT of the eight neighbour records, read from the border map (R139, R145). -/
def outCountSum (border : List Byte) : Nat :=
  ((List.range 8).map fun q => leAt border (32 * q + 6) 2).sum

/-- LENGTH that the counts of the header give for a section (R139). -/
def sectionLength (d : ImgHeader) (border : List Byte) (k : Nat) : Nat :=
  match k with
  | 0 => 512
  | 1 => 20 * d.nodes
  | 2 => 8 * d.progs
  | 3 => 32 * (d.readers + d.succs)
  | 4 => 64 + 48 * d.stations + 16 * d.channels + 260 * d.stations
  | 5 => 448
  | 6 => 256 + 12 * outCountSum border
  | 7 => 64
  | 8 => 12 * d.policies
  | 9 => 16
  | _ => 673

/-- The section table obeys R138. -/
def tableOk (h : List Byte) (d : ImgHeader) (border : List Byte) (imgLen : Nat) : Bool :=
  (List.range 11).all fun k =>
    let e := sectionEntry h k
    let o := 0x40 + 16 * k
    byteAt h o == BitVec.ofNat 8 k && allZero (slice h (o + 1) 3) && e.1 % 256 == 0 &&
      e.2.1 == sectionLength d border k &&
      (if k = 0 then e.1 == 0 && e.2.2 == 0 else (sectionEntry h (k - 1)).1 + (sectionEntry h (k - 1)).2.1 ≤ e.1) &&
      (k != 10 || e.1 + e.2.1 == imgLen)

/-- Step 2 of R150: structure of the image header. -/
def headerOk (h : List Byte) (border : List Byte) (imgLen : Nat) : Bool :=
  let d := parseHeader h
  h.length == 512 && slice h 0 4 == imgMagic && leAt h 4 2 == 1 && crcAtEnd h 0x1FC &&
    allZero (slice h 0x2E 2) && allZero (slice h 0x110 236) && d.gen != 0 && tableOk h d border imgLen

/-- A row of a table section by its index. -/
def rowsOf {α : Type} (b : List Byte) (base size count : Nat) (f : List Byte → α) : List α :=
  (List.range count).map fun k => f (slice b (base + size * k) size)

/-- Little-endian field as a bit vector. -/
def leBits (w : Nat) (b : List Byte) (o : Nat) : BitVec w := BitVec.ofNat w (leAt b o (w / 8))

/-- Directory entry (R140). -/
def parseNode (b : List Byte) : NodeEntry :=
  { tag := leBits 32 b 0, rval := leBits 16 b 4, khc := byteAt b 6, pstart := leBits 32 b 8, plen := leBits 16 b 0xC,
    aux := leBits 16 b 0xE, crc := leBits 32 b 0x10, z := byteAt b 7 }

/-- Reader block (R142). -/
def parseReader (b : List Byte) : ReaderBlk :=
  { key := leBits 32 b 0, words := rowsOf b 4 4 6 fun r => leBits 32 r 0, crc := leBits 32 b 0x1C }

/-- Successor block (R142). -/
def parseSucc (b : List Byte) : SuccBlk :=
  { src := leBits 32 b 0, words := rowsOf b 4 4 6 fun r => leBits 32 r 0, crc := leBits 32 b 0x1C }

/-- One network's part of the network record (R143); IPv4 addresses in network byte order (R135). -/
def parseNet (b : List Byte) (o : Nat) : NetRec :=
  { modIp := BitVec.ofNat 32 (beAt b o 4), pfx := byteAt b (o + 4), pcp := byteAt b (o + 5), vid := leBits 16 b (o + 6),
    mcast := BitVec.ofNat 32 (beAt b (o + 8) 4), stPort := leBits 16 b (o + 0xC), cmdPort := leBits 16 b (o + 0xE) }

/-- Station record (R143). -/
def parseStation (b : List Byte) : StationRec :=
  { stnId := leBits 32 b 0, ipA := BitVec.ofNat 32 (beAt b 4 4), ipB := BitVec.ofNat 32 (beAt b 8 4),
    udp := leBits 16 b 0xC, stLen := leBits 16 b 0xE, cmdLen := leBits 16 b 0x10, stFmt := byteAt b 0x12,
    cmdFmt := byteAt b 0x13, maxAge := byteAt b 0x14, firstCh := leBits 16 b 0x16, chCount := leBits 16 b 0x18,
    keyGen := leBits 32 b 0x1C, crc := leBits 32 b 0x2C }

/-- Channel record (R143). -/
def parseChannel (b : List Byte) : ChannelRec :=
  { stn := leBits 16 b 0, dir := byteAt b 2, bitOff := leBits 16 b 4, bitLen := leBits 16 b 6, node := leBits 32 b 8,
    crc := leBits 32 b 0xC }

/-- Restrictive payload record (R143). -/
def parseRestr (b : List Byte) : RestrRec := { bytes := slice b 0 256, crc := leBits 32 b 256 }

/-- Local input record (R144). -/
def parseLocalIn (b : List Byte) : LocalIn :=
  { ch := byteAt b 0, domain := byteAt b 1, filter := leBits 16 b 2, crc := leBits 32 b 8 }

/-- Local output group record (R144). -/
def parseLocalGrp (b : List Byte) : LocalGrp :=
  { grp := byteAt b 0, mode := byteAt b 1, pepOff := leBits 16 b 2, pepPer := leBits 16 b 4, used := byteAt b 6,
    tDeg := leBits 32 b 8, crc := leBits 32 b 0xC }

/-- Neighbour record (R145). -/
def parseNb (b : List Byte) : NbRec :=
  { q := byteAt b 0, nbSlot := byteAt b 1, maxAge := byteAt b 2, used := byteAt b 3, inCount := leBits 16 b 4,
    outCount := leBits 16 b 6, nbArea := leBits 32 b 8, keyGen := leBits 32 b 0xC, firstOut := leBits 32 b 0x10,
    crc := leBits 32 b 0x1C, z := leBits 64 b 0x14 }

/-- Out-slot record (R145). -/
def parseOut (b : List Byte) : OutSlot :=
  { q := byteAt b 0, slot := leBits 16 b 2, node := leBits 32 b 4, crc := leBits 32 b 8, z := byteAt b 1 }

/-- Partner and ring parameters (R146). -/
def parseParams (b : List Byte) : Params :=
  { areaId := leBits 32 b 0, prefSlot := byteAt b 4, standby := byteAt b 5, etherType := leBits 16 b 6,
    tUntested := byteAt b 8, minLanes := byteAt b 9, crc := leBits 32 b 0x3C }

/-- Forcing policy record (R147). -/
def parsePolicy (b : List Byte) : PolicyRec :=
  { node := leBits 32 b 0, perm := byteAt b 4, crc := leBits 32 b 8, z := leBits 24 b 5 }

/-- The image that the sections hold (R136 to R149). -/
def parseImage (slot : Byte) (imgLen : Nat) (secs : List (List Byte)) : Image :=
  let sec k := secs.getD k []
  let d := parseHeader (sec 0)
  let tm := sec 4
  let stBase := 64
  let chBase := stBase + 48 * d.stations
  let rpBase := chBase + 16 * d.channels
  { slot := slot, hdr := { d with imgLen := imgLen }, nodes := rowsOf (sec 1) 0 20 d.nodes parseNode,
    progs := rowsOf (sec 2) 0 8 d.progs fun r => leBits 64 r 0,
    readers := rowsOf (sec 3) 0 32 d.readers parseReader,
    succs := rowsOf (sec 3) (32 * d.readers) 32 d.succs parseSucc, netA := parseNet tm 0, netB := parseNet tm 0x10,
    netCrc := leBits 32 tm 0x3C, stations := rowsOf tm stBase 48 d.stations parseStation,
    channels := rowsOf tm chBase 16 d.channels parseChannel, restr := rowsOf tm rpBase 260 d.stations parseRestr,
    localIn := rowsOf (sec 5) 0 12 32 parseLocalIn, localGrp := rowsOf (sec 5) 384 16 4 parseLocalGrp,
    nbs := rowsOf (sec 6) 0 32 8 parseNb, outs := rowsOf (sec 6) 256 12 (outCountSum (sec 6)) parseOut,
    params := parseParams (sec 7), policy := rowsOf (sec 8) 0 12 d.policies parsePolicy, pexp := byteAt (sec 9) 0,
    pexpCrc := leBits 32 (sec 9) 0xC, sections := secs }

/-- The bytes of the image on a chip. -/
def imageBytes (chip : List Byte) : List Byte := slice chip 0x1000 (leAt chip 0xC 4)

/-- The sections of an image by its section table. -/
def sectionsOf (img : List Byte) : List (List Byte) :=
  (List.range 11).map fun k => slice img (sectionEntry img k).1 (sectionEntry img k).2.1

/-- The first of sections 1 to 10 whose CRC differs from the table (R138, R150 step 3). -/
def badSection (img : List Byte) (secs : List (List Byte)) : Option Nat :=
  (List.range' 1 10).find? fun k => crc32c (secs.getD k []) != BitVec.ofNat 32 (sectionEntry img k).2.2

/-- Step 4 of R150: fuse claim, signature and kept digests in that order (R149). -/
def signatureStop (claims : List (BitVec 384)) (hdr : ImgHeader) (secs : List (List Byte)) : Option LoadStop :=
  let sig := secs.getD 10 []
  let digests := slice sig 0 480
  let pub := slice sig 0x1E0 97
  let hash := sha384 pub
  match claims.getLast? with
  | none => some { code := 0x80, index := 0 }
  | some claim =>
    if hash != claim || (bytesOf hash).take 8 != hdr.authKeyId then some { code := 0x81, index := 0 }
    else if !ecdsaVerify pub digests (slice sig 0x241 96) then some { code := 0x14, index := 0 }
    else
      match (List.range 10).find? fun k => bytesOf (sha384 (secs.getD k [])) != slice digests (48 * k) 48 with
      | some k => some { code := 0x15, index := k }
      | none => none

/-- The image digest, SHA-384 over DIGESTS (R149). -/
def imageDigest (secs : List (List Byte)) : BitVec 384 := sha384 (slice (secs.getD 10 []) 0 480)

/-- What one load attempt leaves: the key header's LANE and SLOT once read, GEN once step 2 has passed, and the image
with its digest or the stop. -/
structure Loaded where
  lane : Byte
  slot : Byte
  gen  : Word
  end_ : Except LoadStop (Image × BitVec 384)

/-- One load of a chip's bytes in the order of R150. -/
def loadChip (slot : BitVec 2) (claims : List (BitVec 384)) (chip : List Byte) : Loaded :=
  let kh := slice chip 0 256
  let lane := byteAt kh 7
  let ks := byteAt kh 6
  match keyHeaderStop slot kh with
  | some e => { lane := lane, slot := ks, gen := 0, end_ := .error e }
  | none =>
    let img := imageBytes chip
    let h := slice img 0 512
    let border := slice img (sectionEntry h 6).1 256
    if !headerOk h border (leAt kh 0xC 4) then { lane := lane, slot := ks, gen := 0, end_ := .error { code := 0x12, index := 0 } }
    else
      let d := parseHeader h
      let secs := sectionsOf img
      let stop : Option LoadStop :=
        match badSection img secs with
        | some k => some { code := 0x13, index := k }
        | none => signatureStop claims d secs
      match stop with
      | some e => { lane := lane, slot := ks, gen := d.gen, end_ := .error e }
      | none =>
        { lane := lane, slot := ks, gen := d.gen,
          end_ := .ok (parseImage ks (leAt kh 0xC 4) secs, imageDigest secs) }

/-- One load that a read error ended after some bytes (R150, R151, R161): a key header or image header that was read and
does not pass keeps its own stop, and what passed names the lane, the slot and the generation. -/
def loadBroken (slot : BitVec 2) (got : List Byte) : Loaded :=
  let kh := slice got 0 256
  let stop (gen : Word) (code : Byte) : Loaded :=
    { lane := byteAt kh 7, slot := byteAt kh 6, gen := gen, end_ := .error { code := code, index := 0 } }
  if kh.length < 256 then { lane := 0, slot := 0, gen := 0, end_ := .error { code := 0x1B, index := 0 } }
  else match keyHeaderStop slot kh with
  | some e => stop 0 e.code
  | none =>
    let h := slice got 0x1000 512
    let border := slice got (0x1000 + (sectionEntry h 6).1) 256
    if h.length < 512 || border.length < 256 then stop 0 0x1B
    else if headerOk h border (leAt kh 0xC 4) then stop (parseHeader h).gen 0x1B else stop 0 0x12

/-- One attempt on what the key chip returns. -/
def loadRead (slot : BitVec 2) (claims : List (BitVec 384)) : KeyRead → Loaded
  | .absent => { lane := 0, slot := 0, gen := 0, end_ := .error { code := 0x10, index := 0 } }
  | .sfdpBad => { lane := 0, slot := 0, gen := 0, end_ := .error { code := 0x10, index := 0 } }
  | .error got => loadBroken slot got
  | .bytes chip => loadChip slot claims chip

/-- The load may be repeated once after 0x13 and 0x1B (R151). -/
def LoadStop.again (e : LoadStop) : Bool := e.code == 0x13 || e.code == 0x1B

/-- The load with its one repeat: attempts made, and what the last one left (R151). -/
def loadKey (slot : BitVec 2) (claims : List (BitVec 384)) (r : KeyReads) : Nat × Loaded :=
  let one := loadRead slot claims r.first
  match one.end_ with
  | .ok _ => (1, one)
  | .error e => if e.again then (2, loadRead slot claims r.second) else (1, one)

end Sys2Proof.Machine
end

