-- ==== Sys2Proof/Machine/Start.lean ====
section
/-!
DEFINITION. START of a lane: clock start-up (spec/15_clocks.md R325, R326), START tests (spec/17_self_test.md R362),
the recorder scan (spec/18_event_recorder.md R367), the image load with its retry, the digest exchange, the image set
and the pre-check (spec/07_data_key.md R134, R150 to R154), the agreement of the module secret
(spec/14_keys_and_trust.md R305), the start mark and the link probes (spec/02_the_cycle.md R40).
-/
namespace Sys2Proof.Machine
open Config

/-- A monitor calibration within its limits (R325 step 1, R331). -/
def calOk (c : Nat) : Bool := 11719 ≤ c && c ≤ 19531

/-- An RC count within ±10 % of 48,000,000 / CAL (R325 step 2). -/
def rcCountOk (cal c : Nat) : Bool := 9 * 48000000 ≤ 10 * (c * cal) && 10 * (c * cal) ≤ 11 * 48000000

/-- A crystal measurement within its limits (R325 step 3, R332). -/
def xtalOk (c : Nat) : Bool := 3815 ≤ c && c ≤ 4050

/-- Three consecutive passes stand in a list, after `run` passes (R325 step 3). -/
def threeInRow : Nat → List Nat → Bool
  | run, [] => 3 ≤ run
  | run, c :: r => 3 ≤ run || threeInRow (if xtalOk c then run + 1 else 0) r

/-- Steps 3 to 5 of R325, with the cause of START-HOLD. -/
def crystalSteps (e : ClockStart) (c : Clk) : Clk × BitVec 4 :=
  if !threeInRow 0 e.xtal then (c, 3)
  else if !(e.locks.take 2).any id then ({ c with xtalOk := true }, 4)
  else
    ({ c with xtalOk := true, lock := true, seatCur := 60, seatTgt := 6, supCur := 60, supTgt := 12,
              gates := BitVec.allOnes 17, op := 1 }, 0)

/-- Reloads of the RC trim before a pass, and whether one of three checks passes (R325 step 2, R326). -/
def rcSteps (cal : Nat) : List Nat → Nat → Nat × Bool
  | [], k => (k, false)
  | c :: r, k => if rcCountOk cal c then (k, true) else if 2 ≤ k then (k, false) else rcSteps cal r (k + 1)

/-- Clock start-up: clocks, cause of START-HOLD, reloads of the RC trim register from the fuse copy (R325, R326). -/
def clockSteps (e : ClockStart) (fuse : Half) (c : Clk) : Clk × BitVec 4 × Nat :=
  match (e.cals.take 3).find? calOk with
  | none => ({ c with cal := (e.cals.take 3).getLastD 0 }, 2, 0)
  | some cal =>
    let rc := rcSteps cal e.rcCounts 0
    let c := { c with cal := cal, rcOk := rc.2, trim := if rc.1 = 0 then c.trim else fuse }
    if !rc.2 then (c, 1, rc.1)
    else
      let x := crystalSteps e c
      (x.1, x.2, rc.1)

/-- Records a clock event (R338) and its summary bit (R387). The cycle number reads 0 in START. -/
def Lane.clockEvent (l : Lane) (kind : BitVec 4) (dom : Nat) : Lane :=
  { l with meter := { l.meter with evKind := kind, evDom := dom, evCnt := l.meter.evCnt + 1,
                                   evCyc := if l.mode.mode = 0 then 0 else l.cyc.num.setWidth 16 } }.mark 3

/-- Records clock events of one kind. -/
def Lane.clockEvents (l : Lane) (kind : BitVec 4) (dom : Nat) : Nat → Lane
  | 0 => l
  | n + 1 => (l.clockEvents kind dom n).clockEvent kind dom

/-- `n` bytes of the record store at an address. -/
def recBytes (m : Mem Byte) (at_ n : Nat) : List Byte := (List.range n).map fun k => Mem.get 0 m (at_ + k)

/-- SEQ of a slot whose valid mark is correct (R369). -/
def slotSeq (m : Mem Byte) (slot : Nat) : Option Nat :=
  let h := recBytes m (256 * slot) 12
  let seq := beAt h 0 6
  if beAt h 8 4 = (BitVec.ofNat 32 seq ^^^ 0xC3A55A3C#32).toNat then some seq else none

/-- Slots of which any byte is listed, each once. -/
def listedSlots : Mem Byte → List Nat
  | [] => []
  | (a, _) :: m => if (listedSlots m).head? = some (a / 256) then listedSlots m else a / 256 :: listedSlots m

/-- The recorder after the scan of R367. -/
def scanRec (m : Mem Byte) : Rec :=
  let seqs := (listedSlots m).filterMap (slotSeq m)
  { Rec.init with count := seqs.length,
                  seq := match seqs with
                    | [] => 0
                    | s :: r => BitVec.ofNat 48 (r.foldl max s + 1) }

/-- START stops in the lane with a code (R151, R154). -/
def Lane.stopStart (l : Lane) (code : Byte) (index : Nat) : Lane :=
  { l with boot := { l.boot with stopped := true, stage := 8, code := code, index := index },
           mode := { l.mode with accepted := false } }

/-- The image load of R150 with the repeat of R151. -/
def Lane.loadKey (l : Lane) (reads : KeyReads) : Lane :=
  if !l.boot.present then
    ({ l with boot := { l.boot with tries := 1 } } : Lane).stopStart 0x10 0
  else
    let r := Sys2Proof.Machine.loadKey l.slot l.nv.claims reads
    let l := { l with boot := { l.boot with tries := r.1, keyLane := r.2.lane, keySlot := r.2.slot.setWidth 6, gen := r.2.gen } }
    match r.2.end_ with
    | .error e => l.stopStart e.code e.index
    | .ok (img, dig) =>
      { l with boot := { l.boot with img := some img, digest := some dig, areaId := img.params.areaId, stage := 3 },
               rcd := { l.rcd with pexp := img.pexp.toNat } }

/-- The START status frame that a lane posts (R13). -/
def Lane.ownPost (l : Lane) : StartStatus :=
  { slot := l.slot, mid := mid, digest := if l.boot.stopped then none else l.boot.digest, gen := l.boot.gen,
    minLanes := ((l.boot.img).map (·.params.minLanes)).getD 0, testsOk := l.bist.failed == 0, stopped := l.boot.stopped,
    code := l.boot.code,
    pubs := l.sec.eph.map fun e =>
      (pubOf e,
       match l.boot.posts.a.bind (·.pubs), l.boot.posts.b.bind (·.pubs), l.boot.posts.c.bind (·.pubs) with
       | some a, some b, some c => if l.slot = 0 then bdValue e b.1 c.1 else if l.slot = 1 then bdValue e c.1 a.1
                                   else bdValue e a.1 b.1
       | _, _, _ => []),
    confirm := l.sec.confirm }

/-- A lane posts its START status frame to both peers and holds it itself (R13). -/
def State.post (s : State) (x : LaneId) : State :=
  let f := (s.lane x).ownPost
  (s.modLane x fun l => { l with boot := { l.boot with posts := l.boot.posts.put x (some f) } }).xcast x (.startStatus f)

/-- Digest that a lane's post shows, unless that lane has stopped. -/
def Lane.postedDigest (l : Lane) (x : LaneId) : Option (BitVec 384) :=
  (l.boot.posts.get x).bind fun f => if f.stopped then none else f.digest

/-- Image set of lane `y` as lane `l` sees it from the posts (R152). -/
def Lane.setOf (l : Lane) (y : LaneId) : LaneSet :=
  LaneSet.those fun z => (l.postedDigest z).isSome && l.postedDigest z == l.postedDigest y

/-- Pre-check of a lane of the image set, with what its START found (R50, R154, R362). -/
def Lane.preChecked (l : Lane) (set : LaneSet) (img : Image) : Lane :=
  let r := preCheck img l.nv.genFloor set
  let l := { l with boot := { l.boot with set := set, stage := 4 } }
  if r.1 = 0 then { l with boot := { l.boot with stage := 5 } } else l.stopStart r.1 r.2

/-- Formation of the image set (R152); a late lane forms none (R153). -/
def Lane.formSet (l : Lane) (x : LaneId) : Lane :=
  match l.boot.img with
  | none => l
  | some img =>
    if l.boot.stage != 3 || l.boot.late then l
    else
      let own := l.setOf x
      if 2 ≤ own.count then l.preChecked own img
      else if 2 ≤ (l.setOf x.next).count then l.stopStart 0x19 0
      else l.stopStart 0x1A 0

/-- A lane whose pre-check has passed gives the FCU the local I/O map of its image, and every filter counter starts; not
while a lane is armed (R144, R154, R215; log entry 19). `m` is the lane as it was. -/
def State.giveMap (s : State) (m : Lane) (x : LaneId) : State :=
  let l := s.lane x
  match l.boot.img with
  | none => s
  | some img =>
    let u := l.useTables img (((List.range 32).map fun k => (localInTable, k)) ++ (List.range 4).map fun g => (localGrpTable, g))
    if m.boot.stage != 5 && l.boot.stage == 5 && s.unarmed then
      if !u.2 then s.setLane x u.1 else { s with fcu := { s.fcu with localIn := img.localIn, localGrp := img.localGrp, inputs := s.fcu.inputs.map FcuIn.restart } }
    else s

/-- All three lanes have posted a digest. -/
def Lane.allPosted (l : Lane) : Bool :=
  laneList.all fun y => ((l.boot.posts.get y).bind (·.digest)).isSome

/-- A lane that forms its set when every lane has posted. -/
def Lane.tryForm (l : Lane) (x : LaneId) : Lane := if l.allPosted then l.formSet x else l

/-- The image digest of a set that has formed in another lane (R153). -/
def State.formedDigest (s : State) (x : LaneId) : Option (BitVec 384) :=
  ([x.next, x.prev].find? fun y => (s.lane y).boot.set.count != 0 && !(s.lane y).boot.stopped).bind fun y =>
    (s.lane y).boot.digest

/-- A lane whose load has ended posts; one that loads after the pre-check has begun is late (R153). -/
def State.loaded (s : State) (x : LaneId) : State :=
  let l := s.lane x
  if l.boot.stage = 3 then
    match s.formedDigest x with
    | some d =>
      let s := s.setLane x (if l.boot.digest = some d then { l with boot := { l.boot with late := true } }
                            else l.stopStart 0x19 0)
      s.post x
    | none => (s.post x).modLane x fun m => m.tryForm x
  else s.post x

/-- A lane at release of reset: every register at its Reset value, the stores kept, the state epoch read back (R384,
R252). -/
def Lane.released (l : Lane) (e : StartEnv) : Lane :=
  { Lane.init with
    nv := { l.nv with se := l.nv.seStored },
    boot := { Boot.init with inReset := decide (e.straps = 3), straps := e.straps,
                             kchk := decide (kOf e.straps * e.romInv = 1), present := e.keyClosed } }

/-- START tests of R362, with the zeroisation of the security block (R320), whose duration is a free value. Each seat has run
the 48 slices; a seat that fails one holds a free signature. -/
def Lane.startTests (l : Lane) (e : StartEnv) (us : Half) (sigs : BitVec 192) : Lane :=
  let l := l.mapSeats fun _ t => { t with
    engine := (SeatBist.load 47).finish (if e.testsFail.getLsbD 3 then sigs else Config.bistSignature 47) }
  { l with bist := { l.bist with done := 0xFF, failed := e.testsFail },
           sec := { (l.sec.zeroise us).reload l.nv.root with loaded := true, trngOk := !e.testsFail.getLsbD 6 },
           rcd := scanRec l.nv.recs,
           ptn := { l.ptn with epoch := 0 } }

/-- Lowest set bit of a byte. -/
def lowestBit (b : Byte) : Nat := ((List.range 8).find? fun k => b.getLsbD k).getD 0

/-- First power-up: the lane draws its master key (R303); a START without a module secret: it draws its ephemeral value (R305). -/
def Lane.drawKeys (l : Lane) (key : BitVec 256) (e : BitVec 448) : Lane :=
  if !l.sec.trngOk then l
  else
    { l with nv := { l.nv with master := some (l.nv.master.getD key) },
             sec := { l.sec with eph := if l.nv.secret.isNone then some e else none } }

/-- The load of a lane, unless its tests or constants stop START (R50, R362). -/
def Lane.testedLoad (l : Lane) (reads : KeyReads) : Lane :=
  if !l.boot.kchk then l.stopStart 0x22 0
  else if l.bist.failed != 0 then l.stopStart 0x26 (lowestBit l.bist.failed)
  else l.loadKey reads

/-- The FCU that starts with the module: afresh, with its START tests (R364). -/
def State.startFcu (s : State) : Option Bool → State
  | none => s
  | some ok => { s with fcu := { Fcu.init with testsOk := ok, fault := !ok } }

/-- Peers that have posted and are in START go on sending their START status frames, so a released lane hears them (R13). -/
def State.peersPost (s : State) (x : LaneId) : State :=
  [x.next, x.prev].foldl
    (fun s y =>
      let l := s.lane y
      match l.boot.posts.get y with
      | some f => if l.live && !l.mode.armed then s.xsend y x (.startStatus f) else s
      | none => s) s

/-- The voltages of the inputs present count from START (R339). -/
def Lane.seeInputs (l : Lane) (p : Supply) : Lane :=
  { l with sup := { l.sup with
      mainMin := if p.mainP then p.mainV else l.sup.mainMin, mainMax := if p.mainP then p.mainV else l.sup.mainMax,
      bkMin := if p.bkP then p.bkV else l.sup.bkMin, bkMax := if p.bkP then p.bkV else l.sup.bkMax } }

/-- RESET_RELEASE (R325, R326, R362, R367, R150), at a bus of 11.4 V or more after a reset of the bus, so that the warning
line is off (R341). -/
def execResetRelease (l : LaneId) (env : StartEnv) (s : State) : Answer :=
  let s := ((s.begin.dropKeys l).startFcu env.fcuTests)
  let s := { s with sup := { s.sup with inReset := false, warnNow := s.sup.warnNow && !s.sup.inReset } }
  let base := ((s.lane l).released env).seeInputs s.sup
  if env.straps = 3 then .next (s.setLane l base)
  else
    let us := s.fresh 16
    let dom := us.2.fresh 4
    let key := dom.2.fresh 256
    let e1 := key.2.fresh 448
    let sg := e1.2.fresh 192
    let s := sg.2
    let c := clockSteps env.clock base.nv.rcTrim base.clk
    let lane := ({ base with clk := c.1 }).clockEvents 6 dom.1.toNat c.2.2
    if c.2.1 != 0 then .next (s.setLane l { lane with boot := { lane.boot with hold := c.2.1 } })
    else if !env.clock.monitors then .next (s.setLane l lane)
    else
      let lane := { lane with boot := { lane.boot with alive := true, stage := 1 } }
      let lane := ((lane.startTests env us.1 sg.1).drawKeys key.1 e1.1).testedLoad env.reads
      .next (((s.setLane l lane).peersPost l).loaded l)

/-- The secret that a lane forms from its ephemeral value, once both public values of every lane are held (R305). -/
def Lane.agreedSecret (l : Lane) (e : BitVec 448) : Option (BitVec 384) :=
  match l.boot.posts.a.bind (·.pubs), l.boot.posts.b.bind (·.pubs), l.boot.posts.c.bind (·.pubs) with
  | some a, some b, some c =>
    if a.2.isEmpty || b.2.isEmpty || c.2.isEmpty then none
    else some (if l.slot = 0 then agreeSecret e c.1 a.2 b.2 else if l.slot = 1 then agreeSecret e a.1 b.2 c.2
               else agreeSecret e b.1 c.2 a.2)
  | _, _, _ => none

/-- First 8 bytes of SHA-384 over "NDKC" and the secret (R305). -/
def confirmOf (secret : BitVec 384) : BitVec 64 :=
  (sha384 ([0x4E, 0x44, 0x4B, 0x43] ++ bytesOf secret)).extractLsb' 320 64

/-- A step of the agreement of R305 in a lane that holds ephemeral values: once every public value is held it forms the
secret and its hash; once every hash is held it stores the secret if they agree, and its values are gone. -/
def Lane.agreeStep (l : Lane) : Lane :=
  match l.sec.eph with
  | none => l
  | some e =>
    match l.sec.cand with
    | none =>
      match l.agreedSecret e with
      | none => l
      | some k =>
        { l with sec := { l.sec with cand := some k, confirm := some (confirmOf k) } }
    | some k =>
      match l.boot.posts.a.bind (·.confirm), l.boot.posts.b.bind (·.confirm), l.boot.posts.c.bind (·.confirm) with
      | some a, some b, some c =>
        if a = b ∧ b = c then
          { l with nv := { l.nv with secret := some k }, sec := { l.sec with eph := none, cand := none } }
        else { l with sec := { l.sec with eph := none, cand := none } }
      | _, _, _ => l

/-- Own post of a lane changes with what it has received. -/
def State.repost (s : State) (x : LaneId) : State :=
  if (s.lane x).boot.posts.get x = some (s.lane x).ownPost then s else s.post x

/-- Two of the slots that a lane knows, its own and those its peers post, are equal (R50). -/
def Lane.slotClash (l : Lane) (x : LaneId) : Bool :=
  let of (y : LaneId) : Option (BitVec 2) := (l.boot.posts.get y).map (·.slot)
  !distinct (l.slot :: ([x.next, x.prev].filterMap of))

/-- A lane compares its peers' posts with itself and with each other: slots (R50), module identifiers (R304). -/
def Lane.comparePost (l : Lane) (x : LaneId) : Lane :=
  if l.boot.stopped then l
  else if l.slotClash x then l.stopStart 0x23 0
  else if [x.next, x.prev].all (fun y => (((l.boot.posts.get y).map fun f => f.mid != mid)).getD false) then
    l.stopStart 0x26 0
  else l

/-- START_STATUS_RX (R13, R50, R152, R304, R305): frames count from the key read to the first boundary. -/
def execStartStatusRx (l sender : LaneId) (f : StartStatus) (s : State) : Answer :=
  let s := s.begin
  let lane := s.lane l
  if !lane.live || lane.mode.armed || sender = l then .next s
  else
    let lane := { lane with boot := { lane.boot with posts := lane.boot.posts.put sender (some f) } }
    let lane := ((lane.comparePost l).agreeStep).tryForm l
    .next (((s.setLane l lane).repost l).giveMap (s.lane l) l)

/-- DIGEST_WAIT_EXPIRY (R152). -/
def execDigestWaitExpiry (l : LaneId) (s : State) : Answer :=
  let s := s.begin
  if (s.lane l).live && !(s.lane l).boot.late then .next (((s.modLane l fun m => m.formSet l).repost l).giveMap (s.lane l) l)
  else .next s

/-- Counts a change of the presence contact (R161). -/
def Lane.presence (l : Lane) (closed : Bool) : Lane :=
  { l with boot := { l.boot with present := closed, presEvt := l.boot.presEvt + 1 } }

/-- KEY_PRESENCE_OPEN (R134): in START and not armed, START stops in every lane with code 0x10. -/
def execKeyPresenceOpen (l : LaneId) (s : State) : Answer :=
  let s := s.begin.modLane l fun m => m.presence false
  if s.unarmed && laneList.all (fun x => (s.lane x).mode.mode == 0) then
    .next (s.mapLanes fun _ m => if m.live then m.stopStart 0x10 0 else m)
  else .next s

/-- KEY_PRESENCE_CLOSE (R134): after START has stopped, the 2.0 s wait begins. -/
def execKeyPresenceClose (l : LaneId) (s : State) : Answer :=
  let s := s.begin.modLane l fun m => m.presence true
  if s.unarmed && laneList.any (fun x => (s.lane x).boot.stopped) then .next { s with keyWait := true } else .next s

/-- A lane at a restart of START from the key read: registers at their Reset values (R384), standing conditions of
straps, clocks, rails, keys and contact kept (log entry 22). -/
def Lane.restart (l : Lane) : Lane :=
  { Lane.init with
    nv := l.nv, clk := { l.clk with trips := 0, tripDom := 0, monTrip := false, forced := false, gRefused := 0,
                                    gResult := 0, gReq := false, gGate := 0 },
    meter := { Meter.init with counts := l.meter.counts, devNext := l.meter.devNext, devPrev := l.meter.devPrev,
                               runNext := l.meter.runNext, runPrev := l.meter.runPrev },
    pwr := { Pwr.init with mv := l.pwr.mv, op := l.pwr.op },
    sec := { Sec.init with loaded := l.sec.loaded, trngOk := l.sec.trngOk, rootReg := l.sec.rootReg },
    seats := l.seats.map fun (t : SeatState) => { SeatState.init with engine := t.engine },
    boot := { Boot.init with inReset := false, straps := l.boot.straps, kchk := l.boot.kchk, alive := l.boot.alive,
                             hold := l.boot.hold, present := l.boot.present, stage := 1 },
    align := { Align.init with lat := l.align.lat },
    rcd := scanRec l.nv.recs }

/-- START repeated in a lane: it draws a master key it does not have (R303) and an ephemeral value for the agreement of a
START without a module secret (R305), and reads the key. -/
def State.restartLane (s : State) (reads : PerLane KeyReads) (x : LaneId) : State :=
  let key := s.fresh 256
  let e := key.2.fresh 448
  let l := (s.lane x).restart.seeInputs s.sup
  e.2.setLane x ((l.drawKeys key.1 e.1).testedLoad (reads.get x))

/-- START repeated from the key read in every unarmed lane that is out of reset (R134, R289). -/
def State.repeatStart (s : State) (reads : PerLane KeyReads) : State :=
  let ys := laneList.filter fun x => (s.lane x).live && !(s.lane x).mode.armed
  let s := { (ys.foldl (fun t x => t.restartLane reads x) s).fcuToStart with keyWait := false, tunRetx := 0 }
  ys.foldl (fun s x => s.loaded x) s

/-- START_REPEAT (R134, R289): after the 2.0 s wait, or after a mode change to START. -/
def execStartRepeat (reads : PerLane KeyReads) (s : State) : Answer :=
  let s := s.begin
  if s.keyWait then .next (s.repeatStart reads) else .next s

/-- START_MARK_RX (R40): the mark is timing only; the lane notes whose it has. -/
def execStartMarkRx (l sender : LaneId) (s : State) : Answer :=
  .next (s.begin.modLane l fun m => { m with mode := { m.mode with marks := m.mode.marks.put sender true } })

/-- LINK_PROBE (R40, R13). -/
def execLinkProbe (l peer : LaneId) (num : Word) (s : State) : Answer :=
  let s := s.begin
  if !(s.lane l).live || l = peer then .next s
  else
    .next ((s.modLane l fun m => { m with align := { m.align with probes := m.align.probes.put peer (some num) } }).xsend
      l peer (.probe num))

/-- LINK_PROBE_RX (R40): a probe is returned with this lane's turnaround; a return gives the latency, half of the round trip
less the turnaround that it carries. -/
def execLinkProbeRx (l peer : LaneId) (num : Word) (back : Bool) (roundTrip turnaround : Nat) (s : State) : Answer :=
  let s := s.begin
  let m := s.lane l
  if !m.live || l = peer then .next s
  else if !back then .next (s.xsend l peer (.probeBack num turnaround))
  else if m.align.probes.get peer = some num then
    .next (s.setLane l { m with align := { m.align with lat := m.align.lat.put peer ((roundTrip - turnaround) / 2),
                                                        probes := m.align.probes.put peer none } })
  else .next s

end Sys2Proof.Machine
end

