-- ==== Sys2Proof/Machine/Clocks.lean ====
section
/-!
DEFINITION. Clocks in service (spec/15_clocks.md R329 to R337) and operating points (spec/16_supplies_and_power.md R344,
R345, R347).
-/
namespace Sys2Proof.Machine

/-- The gate that a gate hangs from (R336). -/
def gateParent (g : Nat) : Option Nat :=
  if g = 0 || g = 13 || g = 14 then none
  else if g = 1 || g = 11 || g = 12 then some 0
  else if g = 15 || g = 16 then some 14 else some 1

/-- The gate whose clock a watched domain is, if it has one (R328, R336). -/
def domainGate (d : Nat) : Option Nat :=
  if d = 0 then some 1 else if d = 3 then some 13 else if d = 4 || d = 6 || d = 7 then some 14
  else if d = 5 then some 16 else if d = 8 then some 15 else none

/-- A domain that is gated is not watched (R331). -/
def Clk.watched (c : Clk) (d : Nat) : Bool :=
  match domainGate d with
  | none => true
  | some g => c.gates.getLsbD g

/-- A lane stopped by its clocks: the cycle drops, the lane excludes itself until START and its lane-alive line is low
(R333). -/
def Lane.clockStop (l : Lane) : Lane :=
  let m := l.dropCycle 1 l.cyc.phase
  let m := if m.mode.armed then m.excludeSelf untilStart else m
  { m with boot := { m.boot with alive := false } }

/-- Effect of a monitor trip by domain (R333). -/
def Lane.trip (l : Lane) (d : Fin 9) : Lane :=
  let m := { l with clk := { l.clk with monTrip := true, trips := l.clk.trips + 1, tripDom := d.val } }.clockEvent 2 d.val
  if d.val ≤ 4 then m.clockStop
  else { m with meter := { m.meter with portDown := m.meter.portDown ||| (1#9 <<< d.val) } }

/-- MONITOR_TRIP (R331, R333). -/
def execMonitorTrip (l : LaneId) (domain : Fin 9) (s : State) : Answer :=
  .next (s.begin.modLane l fun m => if m.clocked && m.clk.watched domain.val then m.trip domain else m)

/-- A calibration differs by more than 5 % from the one before (R331). -/
def calMoved (old new : Nat) : Bool := old < 20 * (if old ≤ new then new - old else old - new)

/-- MONITOR_CALIBRATION (R331): outside its limits, or more than 5 % off, it is a trip of domain 1. -/
def execMonitorCalibration (l : LaneId) (cal : Nat) (s : State) : Answer :=
  .next (s.begin.modLane l fun m =>
    if !m.live then m
    else
      let k := { m with clk := { m.clk with cal := cal } }
      if !calOk cal || calMoved m.clk.cal cal then k.trip 1 else k)

/-- The PLL coasts: coast dividers and operating point 5 (R327, R332). -/
def Clk.coasting (c : Clk) (lockLost : Bool) : Clk :=
  { c with coast := true, lock := c.lock && !lockLost, xtalOk := c.xtalOk && lockLost, op := 5, seatCur := 16,
           seatTgt := 16, supCur := 16, supTgt := 16 }

/-- A source switch whose old clock has stopped: forced, and recorded with its domain (R330). -/
def Lane.forceSwitch (l : Lane) (dom : Nat) : Lane :=
  ({ l with clk := { l.clk with forced := true } } : Lane).clockEvent 1 dom

/-- CRYSTAL_FAIL (R332, R333): the PLL coasts, and the timebase goes to the RC, by a forced switch where the crystal has
stopped (R330, R337). The domain code of the coast's clock event is a free value. -/
def execCrystalFail (l : LaneId) (c : CrystalFault) (s : State) : Answer :=
  let s := s.begin
  if !(s.lane l).clocked then .next s
  else
    let v := s.fresh 4
    .next (v.2.modLane l fun m =>
      let k := ({ m with clk := m.clk.coasting (c == .lockLost) } : Lane).clockEvent 3 v.1.toNat
      (if c = .stopped then k.forceSwitch 2 else k).clockStop)

/-- SOURCE_SWITCH_FORCED (R330). -/
def execSourceSwitchForced (l : LaneId) (domain : Fin 10) (s : State) : Answer :=
  .next (s.begin.modLane l fun m =>
    if m.acts then m.forceSwitch domain.val else m)

/-- One step of a divider toward its target (R329). -/
def dividerNext (cur tgt : BitVec 6) : BitVec 6 := if cur.ult tgt then cur + 1 else if tgt.ult cur then cur - 1 else cur

/-- DIVIDER_STEP (R329); in coast the hardware holds both dividers (R327). -/
def execDividerStep (l : LaneId) (seat : Bool) (s : State) : Answer :=
  .next (s.begin.modLane l fun m =>
    if !m.acts || m.clk.coast then m
    else if seat then { m with clk := { m.clk with seatCur := dividerNext m.clk.seatCur m.clk.seatTgt } }
    else { m with clk := { m.clk with supCur := dividerNext m.clk.supCur m.clk.supTgt } })

/-- Expected count of a meter channel (R334). -/
def meterExpected (ch : Nat) : Nat :=
  if ch ≤ 1 then 83886080 else if ch = 2 then 1006633 else if ch = 5 then 41943 else 83886

/-- A count lies within ±p % of the expected count (R334). -/
def meterWithin (ch p count : Nat) : Bool :=
  let e := meterExpected ch
  100 * (if e ≤ count then count - e else e - count) ≤ p * e

/-- Ten times the deviation of a link measurement in 0.1 ppm, as an exact fraction over 83,886,080 (R335). -/
def devNumerator (count : Nat) : Int := ((count : Int) - 83886080) * 10000000

/-- The deviation of R335, rounded to the nearest; `up` settles a value that lies halfway, which the spec leaves open. -/
def deviation (count : Nat) (up : Bool) : Int :=
  let q := devNumerator count / 83886080
  let r := devNumerator count % 83886080
  if 41943040 < r || (r = 41943040 && up) then q + 1 else q

/-- Smallest and largest of the deviations of a period (R370). -/
def widen (r : Option (Int × Int)) (v : Int) : Option (Int × Int) :=
  match r with
  | none => some (v, v)
  | some (a, b) => some (min a v, max b v)

/-- A neighbour's deviation, not void (R335): above 2,000 it is a cross-check event. -/
def Lane.noteDeviation (l : Lane) (next : Bool) (v : Int) : Lane :=
  let high := 2000 < v.natAbs
  let m := if next then
      { l with meter := { l.meter with devNext := some v, runNext := if high then l.meter.runNext + 1 else 0 },
               rcd := { l.rcd with b := { l.rcd.b with xchk := widen l.rcd.b.xchk v } } }
    else
      { l with meter := { l.meter with devPrev := some v, runPrev := if high then l.meter.runPrev + 1 else 0 },
               rcd := { l.rcd with b := { l.rcd.b with xchkP := widen l.rcd.b.xchkP v } } }
  if high then m.clockEvent 4 4 else m

/-- Domain of the rail that a converter channel feeds (R328, R334). -/
def converterDomain (ch : Nat) : Nat := if ch = 3 then 0 else if ch = 4 then 1 else 3

/-- A converter's count: CONV stands while the last count of any converter lies outside its window; such a count is recorded, and in two passes in a row the lane excludes itself until
START (R334, R343). -/
def Lane.noteConverter (l : Lane) (k : Fin 3) (count : Nat) : Lane :=
  let ch := k.val + 3
  if meterWithin ch 10 count then
    let runs := l.clk.convRun.set k.val 0
    { l with clk := { l.clk with conv := runs.toList.any (· != 0), convRun := runs } }
  else
    let run := l.clk.convRun[k] + 1
    let m := { l with clk := { l.clk with conv := true, convRun := l.clk.convRun.set k.val run } }.clockEvent 5
      (converterDomain ch)
    if 2 ≤ run then
      let m := { m with pwr := { m.pwr with convExcl := true } }
      if m.mode.armed then m.excludeSelf untilStart else m
    else m

/-- A channel's count at the end of its gate (R334, R335). `up` and `dom` are free values. -/
def Lane.meterGate (l : Lane) (ch : Fin 6) (count : Nat) (void up : Bool) (dom : Nat) : Lane :=
  let m := { l with meter := { l.meter with counts := l.meter.counts.set ch.val count } }
  if ch.val ≤ 1 then (if void then m else m.noteDeviation (ch.val == 0) (deviation count up))
  else if ch.val = 2 then (if meterWithin 2 2 count then m else m.clockEvent 7 dom)
  else if ch.val = 3 then m.noteConverter 0 count
  else if ch.val = 4 then m.noteConverter 1 count
  else m.noteConverter 2 count

/-- METER_GATE_END (R334, R335). The rounding of a deviation that lies halfway and the domain code of an RC meter event
are free values. -/
def execMeterGateEnd (l : LaneId) (ch : Fin 6) (count : Nat) (linkBad : Bool) (s : State) : Answer :=
  let s := s.begin
  if !(s.lane l).clocked then .next s
  else
    let up := s.fresh 1
    let dom := up.2.fresh 4
    let void := linkBad || (s.lane l).pwr.mode == 3
    .next (dom.2.modLane l fun m => m.meterGate ch count void (up.1 == 1) dom.1.toNat)

/-- Answer to a gate request: done, GATE_BUSY or GATE_OFF (R336). -/
def gateAnswer (gates : BitVec 17) (g : Nat) (enable : Bool) : BitVec 2 :=
  if enable then
    match gateParent g with
    | none => 0
    | some p => if gates.getLsbD p then 0 else 2
  else if (List.range 17).any fun k => gateParent k == some g && gates.getLsbD k then 1 else 0

/-- A gate request: a refused one changes nothing but its record (R336). -/
def Clk.gate (c : Clk) (enable : Bool) (g : Nat) : Clk :=
  let r := gateAnswer c.gates g enable
  let b := 1#17 <<< g
  { c with
    gResult := r, gReq := enable, gGate := BitVec.ofNat 5 g, gRefused := if r = 0 then c.gRefused else c.gRefused + 1,
    gates := if r != 0 then c.gates else if enable then c.gates ||| b else c.gates &&& ~~~b }

/-- GATE_REQUEST (R336). -/
def execGateRequest (l : LaneId) (gate : Fin 17) (enable : Bool) (s : State) : Answer :=
  .next (s.begin.modLane l fun m => if m.acts then { m with clk := m.clk.gate enable gate.val } else m)

/-- Minimum seat rail in millivolts for a seat divider D, whose clock is 6,000 / D MHz (R327, R344). -/
def minMv (d : Nat) : Nat := if d < 8 then 900 else if d < 15 then 800 else 700

/-- The divider with the higher frequency of a ramp (R344). -/
def Clk.fastest (c : Clk) : Nat := min c.seatCur.toNat c.seatTgt.toNat

/-- A post-divider value that exists (R327). -/
def dividerOk (d : BitVec 6) : Bool := 4 ≤ d.toNat && d.toNat ≤ 60

/-- VOLTAGE_REQUEST (R344). A divider value outside 4 to 60 does not exist and changes nothing; in coast the hardware holds both
dividers (R327). -/
def execVoltageRequest (l : LaneId) (r : RailReq) (s : State) : Answer :=
  .next (s.begin.modLane l fun m =>
    if !m.acts then m
    else match r with
      | .volt mv =>
        if mv < minMv m.clk.fastest then { m with pwr := { m.pwr with rejV := true } }
        else { m with pwr := { m.pwr with mv := mv } }
      | .seatDiv d =>
        if !dividerOk d || m.clk.coast then m
        else if m.pwr.mv < minMv d.toNat then { m with pwr := { m.pwr with rejF := true } }
        else { m with clk := { m.clk with seatTgt := d } }
      | .supDiv d => if dividerOk d && !m.clk.coast then { m with clk := { m.clk with supTgt := d } } else m)

/-- Seat divider and rail of an operating point (R327, R344). -/
def opSetting (op : BitVec 2) : BitVec 6 × Nat := if op = 0 then (6, 900) else if op = 1 then (8, 800) else (15, 700)

/-- Admissible operating points (R347): T_sweep = C_max / f within D_agree and min(2 ms, T_sweep) within W_corr. -/
def admitPoints (d : ImgHeader) : BitVec 3 :=
  let ok (mhz : Nat) : Bool := d.cMax ≤ dAgree d * 10 * mhz && (200 ≤ wCorr d || d.cMax ≤ wCorr d * 10 * mhz)
  1#3 ||| (if ok 750 then 2#3 else 0) ||| (if ok 400 then 4#3 else 0)

/-- The next lower admissible point (R347). -/
def Pwr.lowerPoint (p : Pwr) : Option (BitVec 2) :=
  if p.op = 0 && p.admitOps.getLsbD 1 then some 1
  else if (p.op = 0 || p.op = 1) && p.admitOps.getLsbD 2 then some 2 else none

/-- The lane asks for the next lower admissible point in the next guard; without one THERM_LIM sets (R347). -/
def Lane.stepDown (l : Lane) : Lane :=
  match l.pwr.lowerPoint with
  | some p => { l with pwr := { l.pwr with want := some p } }
  | none => { l with pwr := { l.pwr with thermLim := true } }

/-- THERMAL_STEP_DOWN (R347). -/
def execThermalStepDown (l : LaneId) (s : State) : Answer :=
  .next (s.begin.modLane l fun m => if m.live && m.mode.armed && m.pwr.hot && m.pwr.op != 3 then m.stepDown else m)

/-- The next higher point; every point above an admissible one is admissible (R347). -/
def Pwr.higherPoint (p : Pwr) : Option (BitVec 2) := if p.op = 1 || p.op = 2 then some (p.op - 1) else none

/-- THERMAL_STEP_UP (R347). -/
def execThermalStepUp (l : LaneId) (s : State) : Answer :=
  .next (s.begin.modLane l fun m =>
    if m.live && m.mode.armed && m.pwr.tempSeen && m.pwr.tempNow ≤ 95 then
      match m.pwr.higherPoint with
      | some p => { m with pwr := { m.pwr with want := some p } }
      | none => m
    else m)

/-- The operating point change of a guard (R345): divider, rail, OP code, and RUN or TRIM (R346); none in coast (R327). -/
def Lane.changeOp (l : Lane) : Lane :=
  match if l.clk.coast then none else l.pwr.want with
  | none => l
  | some p =>
    let c := opSetting p
    { l with pwr := { l.pwr with want := none, op := p, mv := c.2, mode := if p = 0 then 0 else 1 },
             clk := { l.clk with seatCur := c.1, seatTgt := c.1, op := p.setWidth 4 + 1 } }

/-- The die temperature read at a boundary (R347). -/
def Lane.readTemp (l : Lane) (t : Int) : Lane :=
  let p := l.pwr
  let m := { l with
    pwr := { p with tempNow := t, tempMax := if p.tempSeen then max p.tempMax t else t, tempSeen := true,
                    hot := 105 ≤ t, thermLim := p.thermLim && 105 ≤ t },
    rcd := { l.rcd with b := { l.rcd.b with temps := widen l.rcd.b.temps t } } }
  let m := if 105 ≤ t && !p.hot && m.mode.armed && p.op != 3 then m.stepDown else m
  if 125 ≤ t && m.mode.armed then m.excludeSelf untilStart else m

end Sys2Proof.Machine
end

