-- ==== Sys2Proof/Machine/Trust.lean ====
section
/-!
DEFINITION. What a lane holds of trust (spec/14_keys_and_trust.md R306 to R314, R318, R323): acceptance of certificate
chains, workstation keys, and the changes that take effect at a boundary.
-/
namespace Sys2Proof.Machine
open Config

/-- "NDT-HOST" (R311). -/
def ouHost : List Byte := [0x4E, 0x44, 0x54, 0x2D, 0x48, 0x4F, 0x53, 0x54]

/-- "NDT-MAINT" (R311). -/
def ouMaint : List Byte := [0x4E, 0x44, 0x54, 0x2D, 0x4D, 0x41, 0x49, 0x4E, 0x54]

/-- A certificate is on the revocation list (R313). -/
def Nv.revokes (v : Nv) (c : Cert) : Bool := v.revoked.any fun e => e.1 == sha256 c.issuer && e.2 == c.serial

/-- A chain passes R311 apart from the OU: at most 3 certificates, to an installed anchor, none revoked. -/
def Nv.chainOk (v : Nv) (chain : List Cert) : Bool :=
  !chain.isEmpty && chain.length ≤ 3 && !v.anchors.isEmpty && chainVerifies v.anchors chain && !chain.any v.revokes

/-- OU of the leaf, which comes first. -/
def leafOu (chain : List Cert) : List Byte := ((chain.head?).map (·.ou)).getD []

/-- A client chain is accepted (R311). -/
def Nv.clientOk (v : Nv) (chain : List Cert) : Bool :=
  v.chainOk chain && (leafOu chain == ouHost || leafOu chain == ouMaint)

/-- A commissioning client (R312): no anchor, entry on own J10, a self-signed certificate with the maintainer OU. -/
def Nv.commissionOk (v : Nv) (ownJ10 : Bool) (chain : List Cert) : Bool :=
  v.anchors.isEmpty && ownJ10 &&
    (match chain with
     | [c] => selfSigned c && c.ou == ouMaint
     | _ => false)

/-- The claim in force: the highest written slot (R308). -/
def Nv.claim (v : Nv) : Option (BitVec 384) := v.claims.getLast?

/-- A signature over some bytes by the claimed authority whose public key is given (R308, R313, R314). The lane holds the
claim as a hash and the authority's key in the loaded image (R149). -/
def Nv.claimSigned (v : Nv) (pub body sig : List Byte) : Bool :=
  v.claim == some (sha384 pub) && ecdsaVerify pub body sig

/-- The lane's boundaries run, so a change waits for the next one; in START and SAFE-HALT it takes effect at once (log
entry 31). -/
def Lane.hasBoundaries (l : Lane) : Bool := l.mode.armed && l.mode.mode != 5 && l.mode.mode != 0

/-- The key-wrapping key of a WS_REG record (R314): bytes 0 to 31 of SHA-384 over Z, "NDWS" and WS_ID. -/
def wsWrapKey (seed : BitVec 448) (r : WsReg) : BitVec 256 :=
  (sha384 (ecdh seed r.eph ++ [0x4E, 0x44, 0x57, 0x53] ++ bytesOf r.wsId)).extractLsb' 128 256

/-- The workstation key of a registration (R314); an EPH that is no point of the curve yields none. -/
def Nv.wsKeyOf (v : Nv) (r : WsReg) : Option (BitVec 256) :=
  v.secret.bind fun s => (pointOf r.eph).bind fun _ => kwUnwrap (wsWrapKey (identitySeed s) r) r.wrap

/-- Prepared commands that a test picks and that were not confirmed, nor counted before, are discarded (R286, EXPIRED). -/
def HostSt.discarded (h : HostSt) (gone : Prepared → Bool) : Nat :=
  h.expired + h.prepared.countP fun p => gone p && !p.expired && !p.confirmed

/-- A WS_REG change takes effect (R314): a revocation discards every prepared command that names the workstation. -/
def Lane.applyWs (l : Lane) (r : WsReg) : Lane :=
  let others := l.nv.ws.filter fun k => k.wsId != r.wsId
  if r.action = 1 then
    match l.nv.wsKeyOf r with
    | none => l
    | some k => { l with nv := { l.nv with ws := others ++ [{ wsId := r.wsId, key := k }] } }
  else
    { l with nv := { l.nv with ws := others },
             host := { l.host with prepared := l.host.prepared.filter fun p => p.wsId != r.wsId || p.confirmed,
                                   expired := l.host.discarded fun p => p.wsId == r.wsId } }

/-- The generation in use for a purpose and area from now on (R318). -/
def Lane.applyUse (l : Lane) (u : Byte × Word × Word) : Lane :=
  { l with nv := { l.nv with uses := (l.nv.uses.filter fun v => v.1 != u.1 || v.2.1 != u.2.1) ++ [u] } }

/-- Changes that wait for the boundary take effect (R314, R318). -/
def Lane.settleTrust (l : Lane) : Lane :=
  let m := l.sec.pendUse.foldl Lane.applyUse (l.sec.pendWs.foldl Lane.applyWs l)
  { m with sec := { m.sec with pendWs := [], pendUse := [], closeAll := false, recheck := false } }

/-- A session passes R311 in a lane as its anchors and revocation list now stand (R313). -/
def Nv.sessionOk (v : Nv) (k : Session) : Bool := k.comm || v.clientOk k.chain

/-- A prepared command was posted in a session, and in no other that is open (R275, R282). -/
def Prepared.onlyOf (p : Prepared) (id : Nat) : Bool := p.sessions.contains id && (p.sessions.filter (· != id)).isEmpty

/-- What a closed session leaves in a lane (R275): prepared commands posted by no other open session are discarded. -/
def HostSt.dropSession (h : HostSt) (id : Nat) : HostSt :=
  { h with prepared := h.prepared.filterMap fun p =>
      let r := { p with sessions := p.sessions.filter (· != id) }
      if p.confirmed || p.expired || !p.onlyOf id then some r else none,
           expired := h.discarded fun p => p.onlyOf id }

/-- Closes a session in every lane (R275): reads not yet sampled and packages not yet issued are discarded
(R389), and a tunnel that carried it closes (R278). -/
def State.closeSession (s : State) (id : Nat) : State :=
  let s := s.mapLanes fun _ m => { m with host := m.host.dropSession id }
  let s := { s with
    sessions := s.sessions.filter (fun k => k.id != id)
    reads := s.reads.filter (fun r => r.sess != id)
    pkgs := s.pkgs.filter (fun w => w.sess != id) }
  let s := s.emit (.closed id)
  match s.targetTunnel id with
  | none => s
  | some t => s.tunnelClose t

/-- A lane leaves a session; a session that no lane holds is closed. -/
def State.leaveSession (s : State) (x : LaneId) (id : Nat) : State :=
  match s.session id with
  | none => s
  | some k =>
    let j := k.leave x
    if j.lanes.count = 0 then s.closeSession id else s.setSession j

/-- A lane closes, at a boundary, the sessions that its new anchors or revocation list no longer carry (R312, R313). -/
def State.closeDue (s : State) (x : LaneId) : State :=
  let l := s.lane x
  if !l.sec.closeAll && !l.sec.recheck then s
  else
    let gone := s.sessions.filter fun k => k.lanes.has x && (l.sec.closeAll || !l.nv.sessionOk k)
    gone.foldl (fun t k => t.leaveSession x k.id) s

/-- Security changes of a lane take effect: at its boundary, or at once where it has none. -/
def State.settleSecurity (s : State) (x : LaneId) : State := (s.closeDue x).modLane x Lane.settleTrust

end Sys2Proof.Machine
end

