-- ==== Sys2Proof/Machine/RingTake.lean ====
section
/-!
DEFINITION. A ring frame as it arrives (spec/12_cluster_and_host.md R262 to R266): what is discarded, removed, forwarded and
taken, duplicate copies, and the delays added on the way.
-/
namespace Sys2Proof.Machine

/-- J6 or J7. -/
def ringPortOf : RingPort → Port
  | .east => .j6
  | .west => .j7

/-- The other ring port. -/
def ringOther : RingPort → RingPort
  | .east => .west
  | .west => .east

/-- The class is one of R263. -/
def ringClass (c : Byte) : Bool := c == 1 || c == 2 || c == 3 || c == 0x10 || c == 0x20 || c == 0x30

/-- Measured delay of a ring link, in units of 10 ns (R266). -/
def Ring.delay (r : Ring) (p : RingPort) : Nat :=
  match p with
  | .east => r.delayE
  | .west => r.delayW

/-- A lane receives a frame on a port: it is out of reset and the ring ports are not down in it (R333). -/
def Lane.onRing (l : Lane) : Bool := l.live && !l.meter.portDown.getLsbD 5

/-- Lanes that receive a frame. -/
def State.ringLanes (s : State) (r : RingRx) : List LaneId := laneList.filter fun x => r.lanes.has x && (s.lane x).onRing

/-- A frame that R262 and R263 admit. A lane that has not loaded its image knows no EtherType and does not judge it. -/
def Lane.ringAdmits (l : Lane) (r : RingRx) : Bool :=
  r.fcsOk && r.hdr.ver == 1 && ringClass r.hdr.cls &&
    (match l.boot.img with
     | none => true
     | some img => r.ether == img.params.etherType)

/-- The slot a lane goes by on the ring: that of its image. -/
def Lane.ringSlot (l : Lane) : Option Byte := l.boot.img.map (·.own)

/-- The frame is removed (R265). -/
def Lane.ringRemoves (l : Lane) (r : RingRx) : Bool := 63 ≤ r.hdr.hops.toNat || l.ringSlot == some r.hdr.src

/-- The frame is one that this module takes (R265). -/
def Lane.ringTakes (l : Lane) (r : RingRx) : Bool :=
  l.ringAdmits r && !l.ringRemoves r && l.ringSlot.isSome &&
    (r.hdr.dst == 0xFE || r.hdr.dst == 0xFD || l.ringSlot == some r.hdr.dst)

/-- The frame is one that this module forwards (R265). -/
def Lane.ringForwards (l : Lane) (r : RingRx) : Bool :=
  l.ringAdmits r && !l.ringRemoves r && r.hdr.dst != 0xFD && l.ringSlot != some r.hdr.dst

/-- Frame numbers of a source in a lane's window (R265). -/
def Ring.window (r : Ring) (src : Byte) : List Word := Mem.get [] r.windows src.toNat

/-- A number enters the window of the last 256. -/
def Ring.note (r : Ring) (src : Byte) (q : Word) : Ring :=
  let w := r.window src ++ [q]
  { r with windows := Mem.set [] r.windows src.toNat (w.drop (w.length - 256)) }

/-- One lane's part: it counts a forwarded frame, and takes a frame or counts its later copy (R265, R286). Whether it took
the frame. -/
def Lane.ringIn (l : Lane) (r : RingRx) (out : Bool) : Lane × Bool :=
  let l := if out && l.ringForwards r then l.statB fun b => { b with fwd := b.fwd + 1 } else l
  if !l.ringTakes r then (l, false)
  else if (l.ring.window r.hdr.src).contains r.hdr.seq then
    ({ l with ring := { l.ring with dDupl := l.ring.dDupl + 1 } }, false)
  else
    let m := l.statB fun b => { b with taken := b.taken + 1 }
    ({ m with ring := m.ring.note r.hdr.src r.hdr.seq }, true)

/-- Header of a forwarded frame: HOPS and RES grow (R265, R266). -/
def forwardHdr (h : RingHdr) (resid delay : Nat) : RingHdr :=
  { h with hops := h.hops + 1, res := h.res + BitVec.ofNat 32 (resid + delay) }

/-- The frame leaves on the other port, sent by its transmit lane if that lane received it (R264, R265). -/
def State.ringOut (s : State) (r : RingRx) (b : RingBody) : State :=
  match s.txLane (ringPortOf (ringOther r.port)) with
  | none => s
  | some x =>
    if (s.ringLanes r).contains x && (s.lane x).ringForwards r then
      s.emit (.ring (ringOther r.port) (forwardHdr r.hdr r.resid ((s.lane x).ring.delay r.port)) b)
    else s

/-- A frame in every lane that receives it, and the lanes that took it (R265). -/
def State.ringTake (s : State) (r : RingRx) (b : RingBody) : State × List LaneId :=
  let out := (s.txLane (ringPortOf (ringOther r.port))).isSome
  let ys := s.ringLanes r
  let took := ys.filter fun x => ((s.lane x).ringIn r out).2
  ((ys.foldl (fun t x => t.modLane x fun m => (m.ringIn r out).1) (s.ringOut r b)), took)

/-- A frame of one class (R263): one whose CLASS is another is no such frame and is not handled. -/
def State.ringFrame (s : State) (r : RingRx) (cls : Byte) (b : RingBody) (f : State → LaneId → State) : State :=
  if r.hdr.cls != cls then s
  else
    let t := s.ringTake r b
    t.2.foldl f t.1

/-- Ring delay of a frame at its receiver: RES plus the delay of its link, in units of 10 ns (R266). -/
def Lane.ringDelay (l : Lane) (r : RingRx) : Nat := r.hdr.res.toNat + l.ring.delay r.port

end Sys2Proof.Machine
end

