-- ==== Sys2Proof/Machine/Supply.lean ====
section
/-!
DEFINITION. Supplies (spec/16_supplies_and_power.md R339 to R343; spec/01_lanes_and_seats.md R21) and the scrubber
(spec/03_coded_state.md R60, spec/17_self_test.md R363).
-/
namespace Sys2Proof.Machine

/-- Whether the bus takes BACKUP (R339): MAIN alone while it is present, above 18.0 V and preferred; else the higher of
the two present inputs; with neither, or at equal voltages, the source stays (log entry 26). -/
def Supply.takesBackup (p : Supply) : Bool :=
  if p.mainP && 180 < p.mainV && p.pref then false
  else if p.mainP && p.bkP then (if p.mainV < p.bkV then true else if p.bkV < p.mainV then false else p.onBk)
  else if p.bkP then true
  else if p.mainP then false else p.onBk

/-- A change of source in a lane's figures (R339, R370). -/
def Lane.countSwitch (l : Lane) (toBackup : Bool) : Lane :=
  if l.boot.inReset then l
  else { l with
    sup := if toBackup then { l.sup with toBackup := l.sup.toBackup + 1 } else { l.sup with toMain := l.sup.toMain + 1 },
    rcd := { l.rcd with b := { l.rcd.b with switches := l.rcd.b.switches + 1 } } }

/-- The source follows the inputs (R339). -/
def State.settleSource (s : State) : State :=
  let b := s.sup.takesBackup
  if b = s.sup.onBk then s
  else ({ s with sup := { s.sup with onBk := b } } : State).mapLanes fun _ m => m.countSwitch b

/-- Figures of an input while present (R339, R370). -/
def Lane.noteInput (l : Lane) (i : SupIn) (v : Nat) : Lane :=
  if l.boot.inReset then l
  else match i with
    | .main =>
      { l with sup := { l.sup with mainMin := min l.sup.mainMin v, mainMax := max l.sup.mainMax v },
               rcd := { l.rcd with b := { l.rcd.b with
                 inputs := [min (l.rcd.b.inputs.getD 0 0xFFFF) v, max (l.rcd.b.inputs.getD 1 0) v,
                            l.rcd.b.inputs.getD 2 0xFFFF, l.rcd.b.inputs.getD 3 0] } } }
    | .backup =>
      { l with sup := { l.sup with bkMin := min l.sup.bkMin v, bkMax := max l.sup.bkMax v },
               rcd := { l.rcd with b := { l.rcd.b with
                 inputs := [l.rcd.b.inputs.getD 0 0xFFFF, l.rcd.b.inputs.getD 1 0,
                            min (l.rcd.b.inputs.getD 2 0xFFFF) v, max (l.rcd.b.inputs.getD 3 0) v] } } }

/-- An input's voltage as the supply stage sees it; MAIN at 18.0 V or below loses its preference (R339). -/
def Supply.see (p : Supply) (i : SupIn) (v : Nat) : Supply :=
  match i with
  | .main => { p with mainV := v, pref := p.pref && 180 < v }
  | .backup => { p with bkV := v }

/-- Presence of an input. -/
def Supply.setPresent (p : Supply) (i : SupIn) (b : Bool) : Supply :=
  match i with
  | .main => { p with mainP := b }
  | .backup => { p with bkP := b }

/-- An input is present. -/
def Supply.has (p : Supply) : SupIn → Bool
  | .main => p.mainP
  | .backup => p.bkP

/-- An input is disconnected by its overvoltage protection (R339). -/
def Supply.ov (p : Supply) : SupIn → Bool
  | .main => p.mainOv
  | .backup => p.bkOv

/-- The overvoltage protection of an input. -/
def Supply.setOv (p : Supply) (i : SupIn) (b : Bool) : Supply :=
  match i with
  | .main => { p with mainOv := b }
  | .backup => { p with bkOv := b }

/-- INPUT_PRESENT (R339, R340): 16.8 V or more for 10 ms, at most 160 V, and after an overvoltage at most 154 V; HOLDUP
clears. -/
def execInputPresent (i : SupIn) (v : Nat) (s : State) : Answer :=
  let s := s.begin
  if v < 168 || (if s.sup.ov i then 1540 else 1600) < v then .next s
  else
    let p := ((s.sup.see i v).setPresent i true).setOv i false
    let s := ({ s with sup := { p with holdup := false } } : State).settleSource
    .next (s.mapLanes fun _ m => m.noteInput i v)

/-- INPUT_ABSENT (R339): below 16.0 V; the other input's voltage settles the source. -/
def execInputAbsent (i : SupIn) (v other : Nat) (s : State) : Answer :=
  let s := s.begin
  if 160 ≤ v then .next s
  else
    let o : SupIn := match i with
      | .main => .backup
      | .backup => .main
    let p := ((s.sup.see i v).setPresent i false).see o other
    .next (({ s with sup := p } : State).settleSource)

/-- INPUT_OVERVOLTAGE (R339): above 160 V the input counts as absent. -/
def execInputOvervoltage (i : SupIn) (v : Nat) (s : State) : Answer :=
  let s := s.begin
  if v ≤ 1600 then .next s
  else .next (({ s with sup := ((s.sup.see i v).setPresent i false).setOv i true } : State).settleSource)

/-- MAIN_PREFERENCE_RESTORE (R339): MAIN above 18.0 V for 100 ms. -/
def execMainPreferenceRestore (s : State) : Answer :=
  let s := s.begin
  if s.sup.mainP && 180 < s.sup.mainV then .next (({ s with sup := { s.sup with pref := true } } : State).settleSource)
  else .next s

/-- A lane writes its state epoch and floors to the secure store (R340, R252); the floors stand there already. -/
def Lane.storeFloors (l : Lane) : Lane := { l with nv := { l.nv with seStored := l.nv.se } }

/-- HOLDUP_SET (R340): both inputs absent for 2 ms. -/
def execHoldupSet (s : State) : Answer :=
  let s := s.begin
  if s.sup.mainP || s.sup.bkP || s.sup.holdup then .next s
  else
    .next (({ s with sup := { s.sup with holdup := true } } : State).mapLanes fun _ m =>
      if m.boot.inReset then m
      else ({ m.storeFloors with rcd := { m.rcd with b := { m.rcd.b with holdup := m.rcd.b.holdup + 1 } } } : Lane).mark 4)

/-- A lane held in reset: its stores stay (R21, R384). -/
def Lane.held (l : Lane) : Lane := { Lane.init with nv := l.nv }

/-- BUS_RESET (R341, R21): all lanes and the FCU are reset and held until the bus is back. -/
def execBusReset (s : State) : Answer :=
  let s := s.begin.mapLanes fun _ m => m.held
  .next { s with fcu := Fcu.init, sup := { s.sup with inReset := true, warnNow := true }, sessions := [], conns := [],
                 tunnels := [], reads := [], pkgs := [], tunRetx := 0, lampCmd := PerLane.const 0, lamps := 0, keyWait := false }

/-- DIP_START (R342): the bus below 10.8 V. -/
def execDipStart (s : State) : Answer :=
  let s := s.begin
  .next (({ s with sup := { s.sup with warnNow := true } } : State).mapLanes fun _ m =>
    if m.boot.inReset then m else { m with pwr := { m.pwr with warn := true } })

/-- Duration and depth of a dip in a lane's figures (R342, R354, R370): tenths of a millisecond and units of 10 mV. -/
def Lane.countDip (l : Lane) (t v : Nat) : Lane :=
  if l.boot.inReset then l
  else
    let u := { l.sup with dips := l.sup.dips + 1, longest := max l.sup.longest t, busMin := min l.sup.busMin v }
    let u := if 1000 ≤ t then { u with d100 := u.d100 + 1 } else if 100 ≤ t then { u with d10 := u.d10 + 1 }
      else if 10 ≤ t then { u with d1 := u.d1 + 1 } else { u with d0 := u.d0 + 1 }
    let u := if 1050 ≤ v then { u with v105 := u.v105 + 1 } else if 1020 ≤ v then { u with v102 := u.v102 + 1 }
      else if 990 ≤ v then { u with v99 := u.v99 + 1 } else { u with v96 := u.v96 + 1 }
    ({ l with sup := u, rcd := { l.rcd with b := { l.rcd.b with
        dips := l.rcd.b.dips + 1, dipLong := max l.rcd.b.dipLong t, busMin := min l.rcd.b.busMin v } } } : Lane).mark 4

/-- DIP_END (R342): the bus back at 11.0 V; a held RESTORE press is acted on (R232). -/
def execDipEnd (tenthMs lowTenMv : Nat) (s : State) : Answer :=
  let s := s.begin
  if !s.sup.warnNow || s.sup.inReset then .next s
  else
    let f := if s.fcu.heldPress then ({ s.fcu with heldPress := false } : Fcu).restore else s.fcu
    .next (({ s with sup := { s.sup with warnNow := false }, fcu := f } : State).mapLanes fun _ m =>
      m.countDip tenthMs lowTenMv)

/-- Bit of a rail in SUP_STATUS.RAIL_FAIL (R354). -/
def railBit : Rail → BitVec 4
  | .seat => 1
  | .sup => 2
  | .dram => 4
  | .io => 8

/-- RAIL_FAIL (R343): resets that lane alone. -/
def execRailFail (l : LaneId) (r : Rail) (s : State) : Answer :=
  let s := s.begin.dropKeys l
  let s := s.modLane l fun m => { m.held with nv := { m.nv with railFail := m.nv.railFail ||| railBit r } }
  .next { s with lampCmd := s.lampCmd.put l 0 }

/-- What the scrubber does at one word of the state store (R60): a single-bit error is corrected and written back, a
double-bit error stays. -/
def Lane.scrubWord (l : Lane) (phys : Fin 3) (idx : Nat) (find : ScrubFind) : Lane :=
  let m := l.store.phys[phys]
  let w := Mem.get MemWord.zero m idx
  let put (e : Ecc) : Lane := { l with store := { l.store with
    phys := l.store.phys.set phys.val (Mem.set MemWord.zero m idx { w with ecc := e }) } }
  match find with
  | .clean => l
  | .single => (put .ok).noteEcc 1 0
  | .double => (put .double).noteEcc 0 1

/-- The DRAM patrol (R60, R363, R366). -/
def Lane.scrubDram (l : Lane) (progress : Half) (wrap : Bool) (find : ScrubFind) : Lane :=
  let m := { l with bist := { l.bist with scrProg := progress,
                                          scrPass := if wrap then l.bist.scrPass + 1 else l.bist.scrPass } }
  match find with
  | .clean => m
  | .single => m.noteEcc 1 0
  | .double => m.noteEcc 0 1

/-- A double-bit error in a DRAM cell that the model names: the word is poisoned from here on (R60). -/
def Lane.poisonCell (l : Lane) (c : DramCell) : Lane :=
  match c with
  | .table sec off => { l with boot := { l.boot with img := l.boot.img.map fun i => { i with bad := (sec, off) :: i.bad } } }
  | .force node => { l with force := { l.force with
      table := l.force.table.map fun f => if f.node = node then { f with bad := true } else f } }
  | c => { l with store := { l.store.heal c with poison := c :: (l.store.heal c).poison } }

/-- The DRAM patrol at a word that the model names (R60). -/
def Lane.scrubCell (l : Lane) (c : DramCell) (find : ScrubFind) : Lane :=
  match find with
  | .clean => l
  | .single => l.noteEcc 1 0
  | .double => (l.poisonCell c).noteEcc 0 1

/-- SCRUB (R60, R363). -/
def execScrub (l : LaneId) (loc : ScrubLoc) (find : ScrubFind) (s : State) : Answer :=
  .next (s.begin.modLane l fun m =>
    if !m.live then m
    else match loc with
      | .bank phys idx => m.scrubWord phys idx.toNat find
      | .cell c => m.scrubCell c find
      | .dram progress wrap => m.scrubDram progress wrap find)

end Sys2Proof.Machine
end

