-- ==== Sys2Proof/Machine/Power.lean ====
section
/-!
DEFINITION. Lane power modes (spec/16_supplies_and_power.md R346, R348 to R352) and their effect on a dormant module
(spec/11_partner_and_failover.md R238, R250).
-/
namespace Sys2Proof.Machine

/-- The requests of the power controller at AP3: gates 2 to 10 off, then 1 and 11 (R336, R348). -/
def Clk.gateOff (c : Clk) : Clk := ([2, 3, 4, 5, 6, 7, 8, 9, 10, 1, 11].foldl (Clk.gate · false) c)

/-- The requests of the power controller at a wake, from parent to child (R336, R349). -/
def Clk.gateOn (c : Clk) : Clk := ([1, 11, 2, 3, 4, 5, 6, 7, 8, 9, 10].foldl (Clk.gate · true) c)

/-- Clocks of a lane in DOZE: gates 1 to 11 off, supervisor at D = 60 (R346, R348). -/
def Clk.doze (c : Clk) : Clk := { c.gateOff with supCur := 60, supTgt := 60, op := 4 }

/-- Clocks of a lane in SLUMBER: crystal and PLL stopped, supervisor on the RC (R346). -/
def Clk.slumber (c : Clk) : Clk := { c.doze with lock := false, xtalOk := false, op := 0 }

/-- A lane in DOZE or SLUMBER: the seat rail is off and no cycle runs (R346, R348). -/
def Lane.sleep (l : Lane) (target : WaitTarget) : Lane :=
  let m := { l with cyc := { l.cyc with running := false } }
  match target with
  | .doze => { m with clk := m.clk.doze, pwr := { m.pwr with mode := 2, mv := 0, op := 3, ptnFast := false } }
  | .slumber => { m with clk := m.clk.slumber, pwr := { m.pwr with mode := 3, mv := 0, op := 3, ptnFast := false } }

/-- A lane may execute WAIT: SERVICE, CANDIDATE or DORMANT, and awake (R348). -/
def Lane.mayWait (l : Lane) : Bool :=
  l.live && l.mode.armed && (l.mode.mode == 1 || l.mode.mode == 2 || l.mode.mode == 3) && l.pwr.mode.ult 2

/-- WAIT (R348): a wake event before AP4 completes unwinds the entry; TARGET reads 7 again when the entry has ended. -/
def execWait (l : LaneId) (target : WaitTarget) (wakeAfter : Option (Fin 4)) (s : State) : Answer :=
  .next (s.begin.modLane l fun m =>
    if !m.mayWait then m
    else match wakeAfter with
      | some k =>
        { m with clk := if k.val = 3 then m.clk.gateOff.gateOn else m.clk,
                 pwr := { m.pwr with ap := BitVec.ofNat 3 k.val, unwound := m.pwr.unwound + 1, target := 7 } }
      | none =>
        let k := m.sleep target
        { k with pwr := { k.pwr with ap := 4, target := 7 } })

/-- Lower bound of the time slept, in milliseconds rounded down (R352): (N − 1) / (32,768 Hz × 1.0001). -/
def sleepMsOf (count : Nat) : Nat := (count - 1) * 10000000 / 327712768

/-- Steps 2 to 5 of the normal wake (R349). -/
def Lane.awake (l : Lane) : Lane :=
  { l with clk := { l.clk.gateOn with seatCur := 6, seatTgt := 6, supCur := 12, supTgt := 12, op := 1 },
           pwr := { l.pwr with mode := 0, mv := 900, op := 0, ptnFast := true } }

/-- A sleeping lane that a wake event wakes: a dormant one only when a mode change or three silent cycles on both paths order
it (R250), any other at once (R349). -/
def Lane.mayWake (l : Lane) : Bool := l.live && !l.pwr.mode.ult 2 && (l.ptn.role != 3 || l.pwr.wakeDue)

/-- WAKE_EVENT (R349, R352): from SLUMBER steps 3 to 5 of R325 are repeated, and a failure excludes the lane until START. A
dormant lane leaves its role at the boundary that follows (R238). -/
def execWakeEvent (l : LaneId) (env : WakeEnv) (s : State) : Answer :=
  let s := s.begin
  let m := s.lane l
  if !m.mayWake then .next s
  else
    let slept := m.pwr.mode == 3
    let k := if slept then { m with pwr := { m.pwr with sleepMs := sleepMsOf env.count } } else m
    let c := crystalSteps env.clock k.clk
    if slept && (c.2 != 0 || !env.clock.monitors) then
      .next (s.setLane l ({ k with clk := c.1 } : Lane).clockStop)
    else
      let k := if slept then { k with clk := c.1 } else k
      .next (s.setLane l k.awake)

/-- Cycles in DOZE after which a dormant module enters SLUMBER (R351). -/
def slumberAfter (img : Image) : Nat := 36000000 / img.hdr.tCycle

/-- A lane may enter SLUMBER from DOZE (R351). -/
def Lane.mayCrossToSlumber (l : Lane) : Bool :=
  match l.boot.img with
  | none => false
  | some img => l.live && l.mode.armed && l.ptn.role == 3 && l.pwr.mode == 2 && img.params.standby == 1 &&
                  slumberAfter img ≤ l.fail.dozeCyc

/-- SLUMBER_ENTRY (R351). -/
def execSlumberEntry (s : State) : Answer :=
  .next (s.begin.mapLanes fun _ m => if m.mayCrossToSlumber then m.sleep .slumber else m)

/-- The power controller works by handshake: in START, and in the steps of a return (R350). -/
def Lane.handshakes (l : Lane) (x : LaneId) : Bool :=
  !l.boot.inReset && (!l.mode.armed || l.codeOf x == 2 || l.codeOf x == 3 || l.codeOf x == 4)

/-- A refusal: blocks already stopped resume, and the refusing block is recorded (R350). -/
def Lane.handshakeRefused (l : Lane) (block : BitVec 5) : Lane :=
  { l with pwr := { l.pwr with hs := .idle, refusals := l.pwr.refusals + 1, block := block, rolled := true } }

/-- HANDSHAKE_REQUEST (R350): a retry within 1 ms of the rollback is refused with BLOCK 0x1F. -/
def execHandshakeRequest (l : LaneId) (sinceRollbackUs : Nat) (s : State) : Answer :=
  .next (s.begin.modLane l fun m =>
    if !m.handshakes l || m.pwr.hs != .idle then m
    else if m.pwr.rolled && sinceRollbackUs < 1000 then m.handshakeRefused 0x1F
    else { m with pwr := { m.pwr with hs := .asking 0 } })

/-- Number of blocks asked, S0 to S8 through links (R350). -/
def hsBlocks : Nat := 15

/-- HANDSHAKE_ANSWER (R350). -/
def execHandshakeAnswer (l : LaneId) (ans : HsAnswer) (s : State) : Answer :=
  .next (s.begin.modLane l fun m =>
    match m.pwr.hs with
    | .idle => m
    | .asking k =>
      match ans with
      | .accept => { m with pwr := { m.pwr with hs := if k + 1 < hsBlocks then .asking (k + 1) else .idle } }
      | .delay => m
      | .refuse => m.handshakeRefused (BitVec.ofNat 5 (k + 1)))

/-- HANDSHAKE_TIMEOUT (R350): no ACCEPT within 1 ms is a refusal. -/
def execHandshakeTimeout (l : LaneId) (s : State) : Answer :=
  .next (s.begin.modLane l fun m =>
    match m.pwr.hs with
    | .idle => m
    | .asking k => m.handshakeRefused (BitVec.ofNat 5 (k + 1)))

end Sys2Proof.Machine
end

