-- ==== Sys2Proof/Machine/Guard.lean ====
section
/-!
DEFINITION. The start of the guard at D_seal: what a transmit lane holds of the seal (spec/08_field_telegrams.md R184,
R185), the COMMAND frame to the FCU (spec/10_local_vital_io.md R220, R222), and the work of P9
(spec/02_the_cycle.md R33; spec/17_self_test.md R360, R361; spec/16_supplies_and_power.md R345).
-/
namespace Sys2Proof.Machine

/-- Tags of a lane of the seal set that a transmit lane holds; a failure report is none (R184). -/
def Lane.tagsOf (l : Lane) (y : LaneId) : Option (List (BitVec 64) × List (BitVec 64)) :=
  (l.vote.tags.get y).bind (·.tags)

/-- The lane transmits on a field or ring port (R18, R184). -/
def Lane.transmits (l : Lane) (x : LaneId) : Bool := l.sealTargets.contains x

/-- The pair whose tags are held at D_seal, the spare standing in for one pair lane (R184), and whether it did. -/
def Lane.settlePair (l : Lane) : Option (Pair × Bool) :=
  match l.vote.pair with
  | none => none
  | some p =>
    let y := p.lanes.1
    let z := p.lanes.2
    if (l.tagsOf y).isSome && (l.tagsOf z).isSome then some (p, false)
    else match l.vote.spare with
      | none => none
      | some w =>
        if (l.tagsOf w).isNone then none
        else if (l.tagsOf y).isSome then some (pairOf y w, true)
        else if (l.tagsOf z).isSome then some (pairOf z w, true) else none

/-- A transmit lane settles the pair, or sends a seal-failure notice to every lane (R184). -/
def State.settleSeal (s : State) (x : LaneId) : State :=
  let l := s.lane x
  if !(l.cyc.sealed && l.sealsNow && l.transmits x) then s
  else match l.settlePair with
    | some (p, spare) =>
      s.setLane x { l with vote := { l.vote with sealPair := some p },
                           field := { l.field with spareCnt := l.field.spareCnt + spare.toNat } }
    | none =>
      (s.setLane x { l with cyc := { l.cyc with notice := true }, vote := { l.vote with sealPair := none } }).xcast x
        (.notice l.cyc.num)

/-- The word of a COMMAND frame, or HOLD where the lane dropped its cycle or saw the module drop it, by the vote or by a
seal-failure notice (R37, R184, R220). -/
def Lane.commandWord (l : Lane) : Option (BitVec 32) :=
  if l.cyc.drop.isSome || !l.cyc.sealed || l.cyc.notice then none else l.localWord l.cyc.num

/-- An active lane in service sends its COMMAND frame (R220, R222). -/
def State.sendCommand (s : State) (x : LaneId) : State :=
  let l := s.lane x
  if !(l.serves x && l.active) then s
  else
    let bad := l.cyc.drop.isNone && l.cyc.sealed && !l.cyc.notice && (l.localWord l.cyc.num).isNone
    let m := if bad then l.sealFails l.cyc.num localKeys else l
    let w := l.commandWord
    let q := l.lio.seqC + 1
    let m := { m with lio := { m.lio with seqC := q, outCmd := w.getD 0 } }
    (s.setLane x m).emit (.fcuCommand x { crcOk := true, seq := q, cyc := l.cyc.num, word := w })

/-- The known-answer words of the check unit; a wrong answer is charged to the cycle that follows (R361). -/
def Lane.knownAnswer (l : Lane) (wrong : Bool) : Lane :=
  { l with bist := { l.bist with cuRuns := l.bist.cuRuns + 1, cuFails := l.bist.cuFails + wrong.toNat,
                                 cuWrong := l.bist.cuWrong || wrong } }

/-- A supervisor slice abandoned or not started (R33, R342, R366). -/
def Lane.countAbandoned (l : Lane) : Lane :=
  { l with bist := { l.bist with supAband := l.bist.supAband + 1 },
           rcd := { l.rcd with b := { l.rcd.b with supAband := l.rcd.b.supAband + 1 } } }

/-- A supervisor slice that matched: the next of 64 (R360). -/
def Lane.supMatched (l : Lane) : Lane :=
  { l with bist := { l.bist with
      supNext := (l.bist.supNext + 1) % 64, supBad := false,
      supPass := if l.bist.supNext = 63 then l.bist.supPass + 1 else l.bist.supPass } }

/-- A supervisor slice that did not match: repeated once, and a second mismatch in a row excludes the lane until START
(R360). -/
def Lane.supMismatched (l : Lane) : Lane :=
  let m := ({ l with bist := { l.bist with supMis := l.bist.supMis + 1, supBad := true },
                     rcd := { l.rcd with b := { l.rcd.b with supMis := l.rcd.b.supMis + 1 } } } : Lane).mark 2
  if l.bist.supBad then m.excludeSelf untilStart else m

/-- The supervisor slice of every sixteenth guard (R360); none starts during a dip (R342). -/
def Lane.supervisorSlice (l : Lane) (dip : Bool) (r : SliceEnd) : Lane :=
  if l.cyc.num.toNat % 16 != 0 then l
  else if dip then l.countAbandoned
  else match r with
    | .matched => l.supMatched
    | .mismatched => l.supMismatched
    | .unfinished => { l with bist := { l.bist with supOpen := true } }

/-- The instant at which a phased lane's seal work completed, with the deadlines that have passed (R24, R36, R45). -/
def Lane.sealTime (l : Lane) (img : Image) (t : Nat) : Lane :=
  let m := l.statA fun a => { a with used := t }
  if m.evaluates && !m.cyc.voted then m.dropCycle 1 7 else m.meet 8 (dSeal img.hdr) t

/-- GUARD_START (R184, R33). The operating point changes before the slice (R365). -/
def execGuardStart (l : LaneId) (t : Nat) (env : GuardEnv) (s : State) : Answer :=
  let s := s.begin
  let m := s.lane l
  match m.boot.img with
  | none => .next s
  | some img =>
    if !m.inCycle || m.cyc.guard then .next s
    else
      let m := if m.phased l then m.sealTime img t else m
      let s := s.setLane l { m with cyc := { m.cyc with guard := true, phase := 9 } }
      let s := if m.phased l then (s.settleSeal l).sendCommand l else s
      .next (s.modLane l fun m => ((m.knownAnswer env.kaWrong).changeOp).supervisorSlice s.sup.warnNow env.slice)

end Sys2Proof.Machine
end

