-- ==== Sys2Proof/Machine/Recorder.lean ====
section
/-!
DEFINITION. The event recorder at a boundary (spec/18_event_recorder.md R367 to R372): what a cycle adds to the
accumulators, the layout of a record and its write.
-/
namespace Sys2Proof.Machine

/-- Bin of USED as a share of T_cycle, both in 10 µs (R370). -/
def usedBin (used cycle : Nat) : Nat :=
  let p := 100 * used
  if p < 50 * cycle then 0 else if p < 60 * cycle then 1 else if p < 70 * cycle then 2 else if p < 80 * cycle then 3
  else if p < 85 * cycle then 4 else if p < 90 * cycle then 5 else if p < 95 * cycle then 6 else 7

/-- Bin of a count of dirty nodes (R370). -/
def dirtyBin (d : Nat) : Nat :=
  if d = 0 then 0 else if d < 1024 then 1 else if d < 16384 then 2 else if d < 131072 then 3 else if d < 524288 then 4
  else 5

/-- Bin of an age of R371. -/
def ageBin (n : Cycle) (e : Option Cycle) : Nat :=
  match e with
  | none => 4
  | some v =>
    let a := n.toNat - 1 - v.toNat
    if a ≤ 1 then 0 else if a = 2 then 1 else if a = 3 then 2 else if a ≤ 8 then 3 else 4

/-- Smallest slack of a period with its phase (R370). -/
def RecA.slackOf (a : RecA) (s : Option (Nat × BitVec 4)) : RecA :=
  match s with
  | none => a
  | some (v, p) => if v < a.slackMin then { a with slackMin := v, slackPh := p } else a

/-- The figures of a cycle in which the lane ran its phases (R370). -/
def RecA.addCycle (a : RecA) (cycle : Nat) (s : StatA) : RecA :=
  { a with
    cycles := a.cycles + 1, usedHist := bump a.usedHist (usedBin s.used cycle), usedMax := max a.usedMax s.used,
    corrMax := max a.corrMax s.corrTime, dirtyHist := bump a.dirtyHist (dirtyBin s.dirty),
    dirtyMax := max a.dirtyMax s.dirty, noMiss := if s.miss = 0 then a.noMiss + 1 else a.noMiss,
    missSum := a.missSum + s.miss, missMax := max a.missMax s.miss }

/-- Stations that are STALE or ADMITTING. -/
def Lane.notAdmitted (l : Lane) (stations : Nat) : Nat :=
  ((List.range stations).filter fun p => (l.stn p).st != .admitted).length

/-- The cycle that has ended enters the accumulators (R370). `ran`: the lane ran its phases; `drop` and `modDrop`: the
lane's and the module's drop. -/
def Lane.recordCycle (l : Lane) (img : Image) (ran drop modDrop : Bool) : Lane :=
  let n := l.cyc.num
  let a := if ran then (l.rcd.a.addCycle (cycleTime img.hdr) l.stats.a).slackOf l.stats.a.slack else l.rcd.a
  let b := l.rcd.b
  { l with rcd := { l.rcd with
      a := { a with laneDrops := a.laneDrops + drop.toNat, modDrops := a.modDrops + modDrop.toNat },
      b := { b with
        outv := laneList.foldl
          (fun (o : PerLane Nat) y => if l.stats.b.outvoted.has y then o.put y (o.get y + 1) else o) b.outv,
        forceCyc := b.forceCyc + (l.force.table.any fun f => f.activeIn n).toNat,
        permCyc := b.permCyc + (l.force.table.any fun f => f.activeIn n && f.perm).toNat } } }

/-- Station figures at the boundary that opens cycle n (R370, R371). `lost` counts stations that went from ADMITTED to
STALE. -/
def Lane.recordStations (l : Lane) (img : Image) (n : Cycle) (lost : Nat) : Lane :=
  let ps := List.range img.stations.length
  let k := l.notAdmitted img.stations.length
  let a := l.rcd.a
  { l with rcd := { l.rcd with a := { a with
      ageA := ps.foldl (fun h p => bump h (ageBin n (l.stn p).exA)) a.ageA,
      ageB := ps.foldl (fun h p => bump h (ageBin n (l.stn p).exB)) a.ageB,
      stnLoss := a.stnLoss + lost, staleCyc := a.staleCyc + k, staleMax := max a.staleMax k } } }

/-- A natural number in big-endian bytes, saturated (R370). -/
def satBe (bytes v : Nat) : List Byte := toBe bytes (sat (8 * bytes) v)

/-- A signed number in big-endian bytes, saturated (R370). -/
def satIntBe (bytes : Nat) (v : Int) : List Byte := toBe bytes (satInt (8 * bytes) v).toNat

/-- Smallest and largest of a list of measurements; 0 where there was none. -/
def spanBe (bytes : Nat) (r : Option (Int × Int)) : List Byte :=
  satIntBe bytes (((r.map (·.1)).getD 0)) ++ satIntBe bytes (((r.map (·.2)).getD 0))

/-- Bytes 0x0C to 0xA1 of a record (R370). -/
def Lane.recordBodyA (l : Lane) (flags : BitVec 8) : List Byte :=
  let a := l.rcd.a
  bytesOf a.cycFirst ++ satBe 1 l.rcd.pexp ++ [flags] ++ satBe 4 a.cycles ++ satBe 4 a.laneDrops ++ satBe 4 a.modDrops ++
    a.usedHist.flatMap (satBe 4) ++ satBe 2 a.usedMax ++ satBe 2 a.slackMin ++ [a.slackPh.setWidth 8, 0] ++
    satBe 2 a.corrMax ++ a.dirtyHist.flatMap (satBe 4) ++ satBe 4 a.dirtyMax ++ satBe 4 a.noMiss ++ satBe 6 a.missSum ++
    satBe 2 a.missMax ++ a.ageA.flatMap (satBe 4) ++ a.ageB.flatMap (satBe 4) ++ satBe 4 a.stnLoss ++
    satBe 4 a.staleCyc ++ satBe 2 a.staleMax

/-- Length of a heartbeat gap that still runs at the period boundary, or the longest that ended (R372). -/
def gapSpan (long running : Nat) : Nat := max long running

/-- Bytes 0xA2 to 0xFB of a record (R370, R372). -/
def Lane.recordBodyB (l : Lane) : List Byte :=
  let b := l.rcd.b
  b.gap1.flatMap (satBe 2) ++ b.gap2.flatMap (satBe 2) ++ satBe 1 (gapSpan b.long1 l.ptn.silent1) ++
    satBe 1 (gapSpan b.long2 l.ptn.silent2) ++ satBe 2 b.outv.a ++ satBe 2 b.outv.b ++ satBe 2 b.outv.c ++
    satBe 1 b.excl ++ satBe 1 b.returns ++ satBe 2 b.sliceLong ++ satBe 1 b.sliceMis ++ satBe 1 b.sliceInc ++
    satBe 4 b.slices ++ satBe 1 b.supMis ++ satBe 1 b.supAband ++ spanBe 2 b.xchk ++ spanBe 2 b.xchkP ++
    b.inputs.flatMap (satBe 2) ++ satBe 2 b.busMin ++ satBe 2 b.dips ++ satBe 2 b.dipLong ++ satBe 2 b.switches ++
    satBe 1 b.holdup ++ [0] ++ spanBe 1 b.temps ++ [0, 0] ++ satBe 4 b.forceCyc ++ satBe 4 b.permCyc ++ List.replicate 20 0

/-- Valid mark of a sequence number (R369). -/
def recMark (seq : Cycle) : Word := seq.setWidth 32 ^^^ 0xC3A55A3C

/-- A whole record with its CRC and MARK (R369, R370). -/
def Lane.recordBytes (l : Lane) (x : LaneId) (flags : BitVec 8) : List Byte :=
  let head := bytesOf l.rcd.seq ++ [1, x.byte]
  let body := l.recordBodyA flags ++ l.recordBodyB
  head ++ bytesOf (recMark l.rcd.seq) ++ body ++ bytesOf (crc32c (head ++ body))

/-- A slot whose write failed twice: MARK 0, the rest as the failed attempts left it, which the spec does not state
(R369). -/
def failedSlot (junk : List Byte) : List Byte := junk.take 8 ++ [0, 0, 0, 0] ++ (junk.drop 12).take 244

/-- Bytes of the store from an address. -/
def writeBytes (m : Mem Byte) (at_ : Nat) (bs : List Byte) : Mem Byte :=
  Mem.setAll 0 m ((positions bs).map fun p => (at_ + p.1, p.2))

/-- The record of the period is written and the accumulators restart with cycle `n` (R368, R369). `fails` counts failed
write attempts, `junk` is what two failed attempts leave. -/
def Lane.writeRecord (l : Lane) (x : LaneId) (n : Cycle) (halt : Bool) (fails : Nat) (junk : List Byte) : Lane :=
  if !l.rcd.enabled then l
  else
    let good := fails < 2
    let bs := if good then l.recordBytes x (l.rcd.b.flags ||| (if halt then 2 else 0)) else failedSlot junk
    { l with
      nv := { l.nv with recs := writeBytes l.nv.recs (256 * (l.rcd.seq.toNat % 65536)) bs },
      rcd := { l.rcd with
        seq := l.rcd.seq + 1, writeErr := l.rcd.writeErr + min fails 2, enabled := !halt,
        count := if good then min 65536 (l.rcd.count + 1) else l.rcd.count,
        a := RecA.init n, b := RecB.init } }

/-- A boundary that opens cycle n is a period boundary (R368). -/
def Lane.atPeriod (l : Lane) (n : Cycle) : Bool := n.toNat % 2 ^ l.rcd.pexp == 0

/-- Sets a bit of FLAGS for the running period (R370). -/
def Lane.recordFlag (l : Lane) (b : Nat) : Lane :=
  { l with rcd := { l.rcd with b := { l.rcd.b with flags := l.rcd.b.flags ||| (1#8 <<< b) } } }

/-- The recorder starts at a lane's first boundary, by the recorder record (R63): its first record is PARTIAL (R368). -/
def Lane.startRecorder (l : Lane) (img : Image) (n : Cycle) : Lane :=
  let l := (l.useTables img [(recorderTable, 0)]).1
  ({ l with rcd := { l.rcd with enabled := true, pexp := img.pexp.toNat, a := RecA.init n, b := RecB.init } } :
    Lane).recordFlag 0

end Sys2Proof.Machine
end

