-- ==== Sys2Proof/Machine/Roles.lean ====
section
/-!
DEFINITION. The roles of a pair in a lane: cold start, tracking, qualification and the role changes of a boundary
(spec/11_partner_and_failover.md R237 to R258), and heartbeats (R240, R241).
-/
namespace Sys2Proof.Machine

/-- Cycles in 1.0 s (R253, R267). -/
def cyclesPerSecond (img : Image) : Nat := 10000 / img.hdr.tCycle

/-- Echoes heard in the last 1.0 s (R253). -/
def Lane.pruneEchoes (l : Lane) (img : Image) (n : Cycle) : Lane :=
  { l with fail := { l.fail with
      echoes := l.fail.echoes.filter fun e => n.toNat ≤ e.2.2.toNat + cyclesPerSecond img } }

/-- The highest of the epoch floor, the partner's last EPOCH and the echoes heard, with the module it came from; of equal
ones an echo's source stands, then this module's (R253, R177; log entry 28). -/
def Lane.epochSource (l : Lane) (img : Image) : Byte × Word :=
  let own : Byte × Word := (img.own, l.nv.epFloor)
  let b := if own.2.toNat < l.ptn.pEpoch.toNat then (img.partnerSlot, l.ptn.pEpoch) else own
  l.fail.echoes.foldl (fun m e => if m.2.toNat ≤ e.1.toNat then (e.2.1, e.1) else m) b

/-- A change of role: the state epoch is stored (R252), and the record period is flagged (R370). -/
def Lane.setRole (l : Lane) (r : BitVec 4) : Lane :=
  if l.ptn.role = r then l
  else ({ l with ptn := { l.ptn with role := r }, nv := { l.nv with seStored := l.nv.se } } : Lane).recordFlag 3

/-- Stations STALE with run 0 (R178, R253). -/
def StnRec.goStale (r : StnRec) : StnRec := { r with st := .stale, run := 0, blank := false, seqOut := 0 }

/-- State epoch after a cold start (R252): 2^24 above the later of its own stored one and the partner's last. -/
def coldEpoch (stored partner : Cycle) : Cycle := (if stored.toNat < partner.toNat then partner else stored) + 0x1000000

/-- A cold start in cycle n (R253): both banks restrictive, stations STALE, forces gone, a new commander epoch. -/
def Lane.coldStart (l : Lane) (img : Image) (n : Cycle) : Lane :=
  let src := l.epochSource img
  let e := src.2 + 1
  let m := l.restrictBanks img n
  let m := { m with
    field := { m.field with stns := Mem.mapEntries StnRec.init (fun _ r => r.goStale) m.field.stns },
    force := { m.force with table := [] },
    ptn := { m.ptn with epoch := e },
    fail := { m.fail with curCmdr := some (img.own, e), prevCmdr := some src, standDown := false },
    nv := { m.nv with epFloor := e, se := coldEpoch m.nv.seStored m.ptn.pse } }
  m.setRole 0

/-- The commander that a heartbeat of ROLE 0 names becomes the current one (R177). -/
def Fail.hearCommander (f : Fail) (c : Byte × Word) : Fail :=
  if f.curCmdr = some c then f else { f with prevCmdr := f.curCmdr, curCmdr := some c }

/-- Tracking starts afresh and a new snapshot is wanted (R238, R242). -/
def Ptn.restartTracking (p : Ptn) : Ptn :=
  { p with adopted := false, snapReq := true, qualified := false, proven := false, early := [], matched := 0, misRun := 0, bmatch := 0, track := none,
           trackRun := 0, trackOff := false }

/-- The state epoch is older than the last one heard from the partner (R252). -/
def Lane.older (l : Lane) : Bool := l.nv.se.toNat < l.ptn.pse.toNat

/-- The partner's last heartbeat carries the lane's own image digest and GEN (R244). -/
def Lane.sameImage (l : Lane) : Bool :=
  match l.ptn.last, l.boot.digest with
  | some h, some d => h.img == d.extractLsb' 320 64 && h.gen == l.boot.gen
  | _, _ => false

/-- The conditions of R244, or readiness under R255; 256 consecutive cycles have matched since adoption, and no run of three
mismatches has come after them. -/
def Lane.qualifies (l : Lane) : Bool :=
  if l.ptn.role == 4 then l.ptn.adopted && l.ptn.proven && !l.fail.carryBad
  else (l.ptn.role == 1 || l.ptn.role == 2) && l.ptn.adopted && l.ptn.proven && l.ptn.misRun < 3 &&
    2 ≤ l.vote.service.count && !l.older && l.sameImage

/-- The results of the last 256 cycles, oldest first (R251). -/
def pushHist (h : List (Option Bool)) (r : Option Bool) : List (Option Bool) :=
  if h.length < 256 then h ++ [r] else h.drop 1 ++ [r]

/-- A standby or candidate that runs the active's cycle numbers (R238). -/
def Ptn.follows (p : Ptn) : Bool := p.adopted && (p.role == 1 || p.role == 2 || p.role == 4)

/-- The lane's own result for its running cycle: off its slew target a tracking module counts a mismatch (R238, R243). -/
def Ptn.result (p : Ptn) : Option Bool := if p.follows && p.trackOff then some false else p.track

/-- A lane's result for cycle n: that of its running cycle, or the one settled at its last boundary. -/
def Lane.resultOf (l : Lane) (n : Cycle) : Option Bool :=
  if l.cyc.num = n then l.ptn.result else if l.cyc.num = n + 1 then l.ptn.hist.getLast?.join else none

/-- The module's result for lane x's running cycle, which two of its lanes in service hold (R201, R243). -/
def State.settleResult (s : State) (x : LaneId) : Option Bool :=
  let n := (s.lane x).cyc.num
  let vs := (laneList.filter (s.lane x).serves).map fun y => (s.lane y).resultOf n
  if 2 ≤ vs.count (some true) then some true else if 2 ≤ vs.count (some false) then some false else none

/-- A match or a mismatch of the cycle that ends is counted (R243, R255); `r` is the module's result. -/
def Lane.settleTrack (l : Lane) (r : Option Bool) : Lane :=
  let p := l.ptn
  let q := { p with hist := pushHist p.hist r, track := none }
  match r with
  | none => { l with ptn := q }
  | some true =>
    { l with ptn := { q with matched := if p.follows then p.matched + 1 else p.matched, misRun := 0,
                             bmatch := if p.role == 4 || p.role == 0 then min 256 (p.bmatch + 1) else p.bmatch,
                             proven := p.proven || (p.follows && 255 ≤ (if p.role == 4 then p.bmatch else p.matched)) } }
  | some false =>
    { l with ptn := { q with matched := 0, bmatch := 0, misRun := min 3 (p.misRun + 1),
                             proven := p.proven && p.misRun < 2, snapReq := p.snapReq || (p.follows && 3 ≤ p.misRun + 1) } }

/-- Qualification at a boundary (R244, R238): an older state asks for a new snapshot. -/
def Lane.requalify (l : Lane) : Lane :=
  let k := l.qualifies
  let m := { l with ptn := { l.ptn with
    qualified := k, snapReq := l.ptn.snapReq || (l.ptn.role == 1 && l.older) } }
  if m.ptn.role == 1 && !k then m.setRole 2
  else if m.ptn.role == 2 && k then m.setRole 1 else m

/-- The module became ACTIVE by handover within the last 256 cycles (R248). -/
def Lane.recentlyByHand (l : Lane) (n : Cycle) : Bool :=
  match l.fail.byHand with
  | none => false
  | some h => n.toNat ≤ h.toNat + 256

/-- Commander of the partner's last heartbeat, if it was ROLE 0. -/
def Lane.partnerCommand (l : Lane) : Option (Byte × Word) :=
  match l.ptn.last with
  | some h => if h.role = 0 then some (h.slot, h.epoch) else none
  | none => none

/-- A module that stands down at a boundary (R248, R256): STANDBY qualifying, or CANDIDATE again. -/
def Lane.standAside (l : Lane) (n : Cycle) : Lane :=
  let hand := l.recentlyByHand n
  let fail := match l.partnerCommand with
    | none => l.fail
    | some c => l.fail.hearCommander c
  let m := { l with
    ptn := l.ptn.restartTracking, mode := { l.mode with mode := if hand then 2 else l.mode.mode },
    fail := { fail with standDown := false, ho := .idle, base := none, hoCode := if fail.ho = HoState.idle then fail.hoCode else 0 } }
  m.setRole (if hand then 4 else 2)

/-- A candidate that takes the role at the boundary of a handover (R256). -/
def Lane.takeByHand (l : Lane) (img : Image) (n : Cycle) : Lane :=
  let e := l.ptn.pEpoch + 1
  let m := l.restartSeq
  let m := { m with
    ptn := { m.ptn with epoch := e }, mode := { m.mode with mode := 1 },
    fail := { m.fail with prevCmdr := m.fail.curCmdr, curCmdr := some (img.own, e), byHand := some n, candAck := none },
    nv := { m.nv with epFloor := e } }
  m.setRole 0

/-- A force entry of a module that has no cycles any more: what was accepted for a later one takes effect (R297). -/
def Force.settleNow (f : Force) : Option Force :=
  match f.remove, f.next with
  | some c, some (v, p, k) => if c.toNat ≤ k.toNat then some { f with value := v, perm := p, start := 0, remove := none, next := none } else none
  | some _, none => none
  | none, some (v, p, _) => some { f with value := v, perm := p, start := 0, next := none }
  | none, none => some { f with start := 0 }

/-- A dormant lane that has woken is a lane of a STANDBY qualifying module in SERVICE that asks for a snapshot (R238, R250,
R288). -/
def Lane.leaveDormant (l : Lane) : Lane :=
  let m := (l.setRole 2).recordFlag 2
  { m with mode := { m.mode with mode := 1, shown := 1 }, pwr := { m.pwr with wakeDue := false },
           ptn := m.ptn.restartTracking }

/-- A lane of a module that returns to START at stage 5, unarmed (R238): its image stays loaded, its neighbours stand as at
START (R272), and its forces as a module there holds them (R297). -/
def Lane.disarm (l : Lane) : Lane :=
  let m := l.setRole 5
  { m with mode := { ModeState.init with mode := 0 }, cyc := CycState.init, vote := Vote.init, re := Reentry.init,
           boot := { m.boot with stage := 5 }, lio := { m.lio with toggle := 0 },
           ptn := { m.ptn with role := 5, adopted := false, qualified := false, proven := false, early := [] },
           ring := { m.ring with nbs := Vector.replicate 8 NbState.init }, force := { m.force with table := m.force.table.filterMap Force.settleNow } }

/-- Whether the cold start of R253 is due in ROLE 2: two lanes in service posted conditions 1 and 2 of R245. -/
def Lane.coldDue (l : Lane) (x : LaneId) : Bool := l.ptn.role == 2 && 2 ≤ l.takers x

/-- The role of the boundary that opens cycle n (R238), from the cycle that ended. -/
def Lane.stepRole (l : Lane) (x : LaneId) (img : Image) (n : Cycle) : Lane :=
  if l.ptn.role == 0 && l.fail.standDown then l.standAside n
  else if l.ptn.role == 1 && l.fail.tookAt == some (n - 1) then l.setRole 0
  else if l.coldDue x then l.coldStart img n
  else if l.ptn.role == 4 && l.fail.candAck == some n && l.qualifies then l.takeByHand img n
  else if l.ptn.role == 4 && l.bothSilent then l.disarm
  else l.requalify

/-- Handover at the active's boundary that opens cycle n (R256): announced at h + 1, taken or cancelled at h + 2.
`uncarried` says that a force in the table is not carried. -/
def Lane.stepHandover (l : Lane) (n : Cycle) (uncarried : Bool) : Lane :=
  match l.fail.ho with
  | .announced h ack =>
    if h != n then l
    else if uncarried then
      { l with fail := { l.fail with ho := .idle, hoCode := if l.fail.hoUse then 5 else 4 } }
    else if ack then { l with fail := { l.fail with ho := .taken h false } }
    else { l with fail := { l.fail with ho := .idle, hoCode := 9 } }
  | _ => l

/-- CYC_LANES[13:0] (R213). -/
def Lane.cycLanes (l : Lane) : BitVec 14 :=
  let mode : BitVec 2 := if !l.mode.armed then 3 else if l.vote.service.count = 3 then 0
    else if l.vote.service.count = 2 then 1 else 2
  mode ++ l.vote.codes.c ++ l.vote.codes.b ++ l.vote.codes.a

/-- FLAGS of a heartbeat, path bit clear (R240). -/
def Lane.hbFlags (l : Lane) : Half :=
  let ann := match l.fail.ho with
    | .announced _ _ => true
    | _ => false
  (if l.cyc.lastMod then 1 else 0) ||| (if ann then 2 else 0) ||| (if l.fail.candAck.isSome then 4 else 0) |||
    (if l.forced l.cyc.num then 8 else 0)

/-- HO_AT of a heartbeat (R240, R256). -/
def Lane.hbAt (l : Lane) : Cycle :=
  match l.fail.ho with
  | .announced h _ => h
  | _ => l.fail.candAck.getD 0

/-- A candidate is involved (R240, R255). -/
def Lane.candidateHere (l : Lane) : Bool := l.ptn.role == 4 || l.ptn.prole == 4

/-- Digest of the cycle before the running one, 0 where the module dropped it (R240). -/
def digestOf {w : Nat} (v : Option (Cycle × BitVec w)) (n : Cycle) : BitVec w :=
  match v with
  | none => 0
  | some (c, d) => if c + 1 = n then d else 0

/-- Bytes 0x00 to 0x47 of a heartbeat with FLAGS[4] and PAIR 0 (R240). At stage 5 CYC, EPOCH, HO_AT and the digests are
0 (R241). -/
def Lane.heartbeatHead (l : Lane) (img : Image) : List Byte :=
  let n := l.cyc.num
  let up := l.mode.armed
  [1, 0x48, img.own, l.ptn.role.setWidth 8] ++ bytesOf img.params.areaId ++
    (if up then bytesOf n else List.replicate 6 0) ++ bytesOf (if up then l.hbFlags else if l.forced l.cyc.num then 8 else 0) ++
    bytesOf (if !up then 0 else if l.ptn.role == 0 then l.ptn.epoch else l.ptn.pEpoch) ++
    bytesOf (if up then l.nv.se else l.nv.seStored) ++ bytesOf (l.cycLanes.setWidth 16) ++
    bytesOf (if up && !l.cyc.lastMod then digestOf l.fail.digPrev n else 0) ++
    bytesOf (if up && l.candidateHere && !l.cyc.lastMod then digestOf l.fail.bdPrev n else 0) ++
    bytesOf ((l.boot.digest.getD 0).extractLsb' 320 64) ++ bytesOf l.boot.gen ++
    bytesOf (if up then l.hbAt else 0) ++ [0, 0]

/-- FLAGS[4] of a path and PAIR set in a head (R240). -/
def headFor (p : HbPath) (pair : Byte) (b : List Byte) : List Byte :=
  let f := byteAt b 0x0F ||| (match p with
    | .link => 0
    | .ring => 0x10)
  (b.set 0x0F f).set 0x46 pair

/-- PAIR code of a heartbeat's tagging lanes (R240). -/
def Pair.byte (p : Pair) : Byte := p.code.setWidth 8

/-- A lane's tag under the partner key of the generation in use (R241, R316, R318). -/
def Lane.partnerTag (l : Lane) (x : LaneId) (img : Image) (b : List Byte) : Option (BitVec 64) :=
  (l.inUse 0x48 img.params.areaId).bind fun g =>
    (l.keyFor x labelPartner img.params.areaId g).map fun k => tagOf k b

/-- The lane has formed the heartbeat bytes of its running cycle and none with these bytes has left. -/
def Lane.hbReady (l : Lane) : Bool := l.live && l.ptn.hbHead != [] && l.ptn.hbSent != l.ptn.hbHead

/-- Two lanes that agree on a heartbeat's bytes, in the order of PAIR (R241). -/
def State.hbPair (s : State) (ok : LaneId → Bool) : Option (LaneId × LaneId) :=
  lanePairs.find? fun p => ok p.1 && ok p.2 && (s.lane p.1).ptn.hbHead == (s.lane p.2).ptn.hbHead

/-- The frame of a heartbeat on a path, tagged by two lanes (R240). -/
def State.heartbeatFrame (s : State) (img : Image) (p : LaneId × LaneId) (path : HbPath) : Option (List Byte) :=
  let h := headFor path (pairOf p.1 p.2).byte (s.lane p.1).ptn.hbHead
  match (s.lane p.1).partnerTag p.1 img h, (s.lane p.2).partnerTag p.2 img h with
  | some t, some u => some (h ++ bytesOf t ++ bytesOf u)
  | _, _ => none

/-- Sends a heartbeat that two lanes agree on, on both paths: on the partner link where a lane transmits there (R18, R239,
R241, R263). -/
def State.sendHeartbeat (s : State) (img : Image) (p : LaneId × LaneId) : State :=
  match s.heartbeatFrame img p .link, s.heartbeatFrame img p .ring with
  | some f, some g => (if (s.txLane .j8).isSome then s.emit (.heartbeat f) else s).ringCast img.own 0x10 img.partnerSlot g.length (.raw g)
  | _, _ => s

/-- A heartbeat leaves once when two lanes in service have formed the same bytes (R241). -/
def State.postHeartbeat (s : State) : State :=
  match s.hbPair fun y => (s.lane y).hbReady && (s.lane y).serves y with
  | none => s
  | some p =>
    let h := (s.lane p.1).ptn.hbHead
    match (s.lane p.1).boot.img with
    | none => s
    | some img =>
      (s.sendHeartbeat img p).mapLanes fun _ m =>
        if m.ptn.hbHead = h then { m with ptn := { m.ptn with hbSent := h } } else m

/-- A lane forms the heartbeat of its running cycle (R239): only a module with a partner (R158) and a role that sends
(R237). -/
def State.formHeartbeat (s : State) (x : LaneId) : State :=
  let l := s.lane x
  match l.boot.img with
  | none => s
  | some img =>
    if !l.hasPartner || 5 ≤ l.ptn.role.toNat then s
    else
      let h := l.heartbeatHead img
      let gone := [x.next, x.prev].any fun y => (s.lane y).ptn.hbSent == h
      (s.setLane x { l with ptn := { l.ptn with hbHead := h, hbSent := if gone then h else l.ptn.hbSent } }).postHeartbeat

end Sys2Proof.Machine
end

