-- ==== Sys2Proof/Machine/Partner.lean ====
section
/-!
DEFINITION. What a lane receives from its partner (spec/11_partner_and_failover.md R239 to R257): heartbeats, snapshots,
health records and DOZE_SNAP; and the heartbeat of an unarmed module (R241).
-/
namespace Sys2Proof.Machine

/-- The pair that a PAIR byte names (R240). -/
def pairOfByte (b : Byte) : Option Pair :=
  if b = 1 then some .ab else if b = 2 then some .bc else if b = 3 then some .ca else none

/-- Fields of a heartbeat (R240). -/
def parseHeartbeat (b : List Byte) : Option Heartbeat :=
  if b.length != 88 || byteAt b 0 != 1 || byteAt b 1 != 0x48 then none
  else
    some { slot := byteAt b 2, role := byteAt b 3, areaId := ofBytes 32 (slice b 4 4), cyc := ofBytes 48 (slice b 8 6),
           flags := ofBytes 16 (slice b 0x0E 2), epoch := ofBytes 32 (slice b 0x10 4), sepoch := ofBytes 48 (slice b 0x14 6),
           lanes := ofBytes 16 (slice b 0x1A 2), digest := ofBytes 128 (slice b 0x1C 16),
           bdig := ofBytes 64 (slice b 0x2C 8), img := ofBytes 64 (slice b 0x34 8), gen := ofBytes 32 (slice b 0x3C 4),
           hoAt := ofBytes 48 (slice b 0x40 6), pair := byteAt b 0x46 }

/-- Partner keys held from a slot, of either generation (R316, R318). -/
def Lane.partnerKeys (l : Lane) (slot : Byte) : List PeerKey :=
  l.nv.peers.filter fun k => k.slot == slot && k.purpose == 0x48

/-- Two tags of a pair over some bytes under one set of keys (R241). -/
def tagsHold (k : PeerKey) (p : Pair) (body : List Byte) (t1 t2 : BitVec 64) : Bool :=
  tagOf (k.keys.get p.lanes.1) body == t1 && tagOf (k.keys.get p.lanes.2) body == t2

/-- Both tags of a heartbeat verify (R241). -/
def Lane.heartbeatTrue (l : Lane) (img : Image) (h : Heartbeat) (b : List Byte) : Bool :=
  match pairOfByte h.pair with
  | none => false
  | some p =>
    h.slot == img.partnerSlot &&
      (l.partnerKeys h.slot).any fun k =>
        tagsHold k p (slice b 0 0x48) (ofBytes 64 (slice b 0x48 8)) (ofBytes 64 (slice b 0x50 8))

/-- The heartbeat stands for the lane's running cycle (R241): it carries its number, or the lane has not adopted the
active's numbers yet. -/
def Lane.ofThisCycle (l : Lane) (h : Heartbeat) : Bool :=
  h.cyc == l.cyc.num || (!l.ptn.adopted && (l.ptn.role == 1 || l.ptn.role == 2 || l.ptn.role == 4)) || l.ptn.role == 3 ||
    !l.mode.armed

/-- The heartbeat arrived by the lane's D_agree (R241). -/
def Lane.byAgree (l : Lane) (img : Image) (arrival : Int) : Bool := !l.cyc.judged && arrival ≤ (dAgree img.hdr : Nat) * 100

/-- Path bookkeeping of a heartbeat (R241): only one of the running cycle by D_agree ends a silence, in a dormant or unarmed
module, which has no D_agree, any one. One that carries CYC 0 at ROLE 5 never does. -/
def Lane.hearPath (l : Lane) (img : Image) (p : HbPath) (arrival : Int) (h : Heartbeat) : Lane :=
  let inTime := l.ofThisCycle h && (l.ptn.role == 3 || !l.mode.armed || l.byAgree img arrival)
  if h.cyc = 0 then
    { l with ptn := match p with
        | .link => { l.ptn with path1 := true, got1 := l.ptn.got1 || !l.mode.armed }
        | .ring => { l.ptn with path2 := true, got2 := l.ptn.got2 || !l.mode.armed } }
  else
    { l with ptn := match p with
        | .link => { l.ptn with path1 := true, got1 := l.ptn.got1 || inTime, rx1 := h.cyc }
        | .ring => { l.ptn with path2 := true, got2 := l.ptn.got2 || inTime, rx2 := h.cyc } }

/-- What the lane keeps of its partner (R177, R252, R253, R260). A heartbeat of ROLE 5 names no epoch. -/
def Lane.hearPartner (l : Lane) (h : Heartbeat) : Lane :=
  let m := { l with ptn := { l.ptn with prole := h.role.setWidth 4, pse := h.sepoch, last := some h,
                                        pEpoch := if h.role = 5 then l.ptn.pEpoch else h.epoch } }
  if h.role = 0 && m.ptn.role != 0 then { m with fail := m.fail.hearCommander (h.slot, h.epoch) } else m

/-- Own epoch as R248 compares it: an active that settles a handover after its D_agree seals with epoch + 2 (R256). -/
def Lane.epochHere (l : Lane) : Word :=
  match l.fail.ho with
  | .taken _ false => if l.cyc.judged && !l.cyc.voted then l.ptn.epoch + 2 else l.ptn.epoch
  | _ => l.ptn.epoch

/-- A module in ACTIVE that hears another of a higher epoch, or at PREF_SLOT of an equal one, stands down (R248). -/
def Lane.yields (l : Lane) (img : Image) (h : Heartbeat) : Bool :=
  l.active && h.role == 0 &&
    (l.epochHere.toNat < h.epoch.toNat ||
      (h.epoch == l.epochHere && h.slot == img.params.prefSlot && img.own != img.params.prefSlot))

/-- The active's part of a handover (R256): HO_ACK during h + 1, the candidate's ROLE 0 heartbeat by D_agree of h + 2. -/
def Lane.hearHandover (l : Lane) (img : Image) (arrival : Int) (h : Heartbeat) : Lane :=
  match l.fail.ho with
  | .announced n _ =>
    if h.role == 4 && h.flags.getLsbD 2 && l.cyc.num + 1 == n then { l with fail := { l.fail with ho := .announced n true } }
    else l
  | .taken n _ =>
    if h.role == 0 && h.cyc == n && l.cyc.num == n && l.byAgree img arrival then
      { l with fail := { l.fail with ho := .taken n true, standDown := true } }
    else l
  | .idle => l

/-- Tracking or bridge digest of the cycle before the heartbeat's, once for each cycle (R243, R255). -/
def Lane.hearTrack (l : Lane) (h : Heartbeat) : Lane :=
  if h.cyc != l.cyc.num || l.ptn.track.isSome || h.flags.getLsbD 0 then l
  else
    let bridge := l.candidateHere
    let r : Option Bool :=
      if bridge then
        match l.fail.bdPrev with
        | some (c, d) => if c + 1 = l.cyc.num then some (d == h.bdig) else none
        | none => none
      else
        match l.fail.digPrev with
        | some (c, d) => if c + 1 = l.cyc.num then some (d == h.digest) else none
        | none => none
    let counts := (h.role == 0 && l.ptn.adopted && l.ptn.role != 0) || (l.ptn.role == 0 && h.role == 4)
    if counts then { l with ptn := { l.ptn with track := r } } else l

/-- The slew target of an adopted standby or candidate (R238), in 0.1 µs from its own boundary: on the partner link the
arrival less 2 µs, on the ring the arrival less the ring delay (log entry 29). -/
def hbTarget (p : HbPath) (arrival : Int) : Int :=
  match p with
  | .link => arrival - 20
  | .ring => arrival

/-- The median boundary against the target, at the first heartbeat of a cycle (R238). -/
def Lane.hearTarget (l : Lane) (img : Image) (p : HbPath) (arrival : Int) (h : Heartbeat) (first : Bool) : Lane :=
  if !(l.ptn.follows && h.role == 0 && h.cyc == l.cyc.num && first) then l
  else
    let v := hbTarget p arrival
    let off := 2000 < (2 * v - l.align.med2).natAbs
    let run := if off then l.ptn.trackRun + 1 else 0
    { l with align := { l.align with slew := slewOf img.hdr.tCycle (2 * v) },
             ptn := { l.ptn with trackRun := run, trackOff := off && (l.ptn.trackOff || 3 ≤ run) } }

/-- A ready candidate acknowledges an announced handover (R256). -/
def Lane.hearAnnounce (l : Lane) (h : Heartbeat) : Lane :=
  if h.role == 0 && h.flags.getLsbD 1 && l.ptn.role == 4 && h.cyc == l.cyc.num && h.hoAt == h.cyc + 1 && l.qualifies then
    { l with fail := { l.fail with candAck := some h.hoAt } }
  else l

/-- The active says that its module dropped the cycle before (R240, R242). -/
def Lane.hearDrop (l : Lane) (h : Heartbeat) : Lane :=
  if h.role == 0 && h.flags.getLsbD 0 then { l with re := { l.re with noticed := l.re.noticed ++ [h.cyc - 1] } } else l

/-- What a heartbeat does in the cycle that it carries; `first`: the first one of the cycle. -/
def Lane.hearNow (l : Lane) (img : Image) (p : HbPath) (arrival : Int) (h : Heartbeat) (first : Bool) : Lane :=
  let m := (l.hearTarget img p arrival h first).hearTrack h
  let m := (m.hearDrop h).hearHandover img arrival h
  let m := if m.yields img h then { m with fail := { m.fail with standDown := true } } else m
  let m := (m.hearPartner h).hearAnnounce h
  if m.ptn.role == 3 && h.cyc != 0 then { m with cyc := { m.cyc with num := h.cyc } } else m

/-- The heartbeat belongs to the cycle that the lane's next boundary opens: it takes effect there (R241, R243, R256; log
entry 115). -/
def Lane.tooEarly (l : Lane) (h : Heartbeat) : Bool :=
  l.mode.armed && l.cyc.running && h.cyc == l.cyc.num + 1 && (l.ptn.adopted || l.ptn.role == 0)

/-- A verified heartbeat at a lane. -/
def Lane.hear (l : Lane) (img : Image) (p : HbPath) (arrival : Int) (h : Heartbeat) : Lane :=
  let m := l.hearPath img p arrival h
  if l.tooEarly h then { m with ptn := { m.ptn with early := m.ptn.early ++ [(p, arrival, h)] } }
  else m.hearNow img p arrival h (!l.ptn.got1 && !l.ptn.got2)

/-- The heartbeats of the cycle just opened that arrived before the boundary; `len` is the length of the cycle that ended, in
0.1 µs. -/
def Lane.hearEarly (l : Lane) (img : Image) (len : Int) : Lane :=
  let es := l.ptn.early.filter fun e => e.2.2.cyc == l.cyc.num
  (positions es).foldl (fun m e => m.hearNow img e.2.1 (e.2.2.1 - len) e.2.2.2 (e.1 == 0))
    { l with ptn := { l.ptn with early := [] } }

/-- A heartbeat received in a lane: one that fails either tag is treated as not received (R241). A candidate that
acknowledges sends a heartbeat with HO_ACK at once (R256). -/
def State.hearHeartbeat (s : State) (l : LaneId) (p : HbPath) (arrival : Int) (bytes : List Byte) : State :=
  let m := s.lane l
  match m.boot.img, parseHeartbeat bytes with
  | some img, some h =>
    if !(m.live && m.hasPartner && m.heartbeatTrue img h bytes) then s
    else
      let k := m.hear img p arrival h
      let s := s.setLane l k
      if k.fail.candAck.isSome && m.fail.candAck.isNone then s.formHeartbeat l else s
  | _, _ => s

/-- HEARTBEAT_RX (R239, R241, R265): on the partner link, a frame that fails its CRC is discarded; on the ring, it is a ring
frame of class HEARTBEAT whose arrival counts less its ring delay (R238, R266). -/
def execHeartbeatRx (l : LaneId) (ring : Option RingRx) (crcOk : Bool) (arrival : Int) (bytes : List Byte) (s : State) :
    Answer :=
  let s := s.begin
  match ring with
  | none => .next (if crcOk && !(s.lane l).meter.portDown.getLsbD 8 then s.hearHeartbeat l .link arrival bytes else s)
  | some r =>
    let r : RingRx := { r with lanes := noLanes.put l true, fcsOk := r.fcsOk && crcOk }
    .next (s.ringFrame r 0x10 (.raw bytes) fun t x =>
      t.hearHeartbeat x .ring (arrival - ((t.lane x).ringDelay r / 10 : Nat)) bytes)

/-- A module waiting in START at stage 5 with a loaded image (R154). -/
def Lane.waits (l : Lane) : Bool := l.live && !l.mode.armed && !l.boot.stopped && l.boot.stage == 5

/-- A stage-5 lane has heard nothing for 3 of its own heartbeat intervals: no partner is seen (R158; log entry 30). -/
def Lane.stage5Silence (l : Lane) : Lane :=
  let m := l.judgeSilence
  let m := { m with ptn := { m.ptn with got1 := false, got2 := false } }
  if m.bothSilent then { m with ptn := { m.ptn with prole := 5, last := none } } else m

/-- STAGE5_HEARTBEAT (R241): two waiting lanes that agree on the bytes send them on both paths, with ROLE 5. -/
def execStage5Heartbeat (s : State) : Answer :=
  let s := s.begin.mapLanes fun _ m =>
    match m.boot.img with
    | none => m
    | some img =>
      if m.waits && m.hasPartner then
        let k := m.stage5Silence
        { k with ptn := { k.ptn with hbHead := k.heartbeatHead img } }
      else m
  match s.hbPair fun y => (s.lane y).waits && (s.lane y).hasPartner with
  | none => .next s
  | some p => match (s.lane p.1).boot.img with
    | none => .next s
    | some img => .next (s.sendHeartbeat img p)

/-- The partner link is not down in the lane (R333). -/
def Lane.linkUp (l : Lane) : Bool := !l.meter.portDown.getLsbD 8

/-- A lane takes part in a transfer from the active: a standby or candidate in service that wants a snapshot (R242). -/
def Lane.wantsBase (l : Lane) (x : LaneId) : Bool :=
  l.live && l.mode.armed && l.codeOf x == 1 && l.ptn.snapReq && (l.ptn.role == 1 || l.ptn.role == 2 || l.ptn.role == 4)

/-- A base segment joined to those held of the same base (R242). -/
def joinBase (b seg : SnapBase) : SnapBase :=
  { b with nodes := b.nodes ++ seg.nodes, timers := b.timers ++ seg.timers, owners := b.owners ++ seg.owners,
           stns := b.stns ++ seg.stns, borders := b.borders ++ seg.borders, forces := b.forces ++ seg.forces }

/-- A segment of a base: the first of a new base starts it afresh. -/
def Reentry.takeSegment (r : Reentry) (last : Bool) (seg : SnapBase) : Reentry :=
  let r := match r.base with
    | some b => if b.cyc = seg.cyc && r.since.isNone then { r with base := some (joinBase b seg) }
                else { r with base := some seg, baseOk := false, deltas := [], since := none }
    | none => { r with base := some seg, baseOk := false, deltas := [], since := none }
  { r with since := if last then some seg.cyc else none }

/-- SNAP_BASE_RX (R239, R242). -/
def execSnapBaseRx (l : LaneId) (crcOk : Bool) (last : Bool) (seg : SnapBase) (s : State) : Answer :=
  .next (s.begin.modLane l fun m =>
    if crcOk && m.linkUp && m.wantsBase l then { m with re := m.re.takeSegment last seg } else m)

/-- SNAP_DELTA_RX (R239, R242). -/
def execSnapDeltaRx (l : LaneId) (crcOk : Bool) (d : SnapDelta) (s : State) : Answer :=
  .next (s.begin.modLane l fun m =>
    if crcOk && m.linkUp && m.wantsBase l && m.re.base.isSome then { m with re := { m.re with deltas := m.re.deltas ++ [d] } } else m)

/-- The tags of SNAP_END verify (R242). -/
def Lane.endTrue (l : Lane) (img : Image) (e : SnapEnd) : Bool :=
  match pairOfByte e.pair with
  | none => false
  | some p => (l.partnerKeys img.partnerSlot).any fun k => k.gen == e.gen && tagsHold k p (bytesOf e.digest) e.tag1 e.tag2

/-- SNAP_END_RX (R242): the base is verified when the lane's own digest equals the one that two lanes of the active
tagged. -/
def execSnapEndRx (l : LaneId) (crcOk : Bool) (e : SnapEnd) (s : State) : Answer :=
  .next (s.begin.modLane l fun m =>
    match m.boot.img, m.re.base with
    | some img, some b =>
      if crcOk && m.linkUp && m.wantsBase l && m.re.since == some b.cyc && m.endTrue img e && Config.baseDigest b == e.digest then
        { m with re := { m.re with baseOk := true }, fail := { m.fail with snapAge := 0 } }
      else m
    | _, _ => m)

/-- HEALTH_RX (R251): the active holds the last record received. -/
def execHealthRx (l : LaneId) (crcOk : Bool) (bytes : List Byte) (s : State) : Answer :=
  .next (s.begin.modLane l fun m =>
    if crcOk && m.linkUp && m.live && m.active && bytes.length == 80 then { m with fail := { m.fail with hlt := bytes } } else m)

/-- DOZE_SNAP_RX (R250, R259): a lane in DOZE keeps a DOZE_SNAP whose digest verifies; one in transfer when a wake is ordered
is abandoned. -/
def execDozeSnapRx (l : LaneId) (crcOk : Bool) (b : SnapBase) (digest : BitVec 256) (s : State) : Answer :=
  .next (s.begin.modLane l fun m =>
    if crcOk && m.linkUp && m.live && m.mode.armed && m.ptn.role == 3 && m.pwr.mode == 2 && !m.pwr.wakeDue && Config.baseDigest b == digest then
      { m with fail := { m.fail with doze := some b, snapAge := 0 } }
    else m)

/-- Value of the node with a tag and kind in a base, current and previous (R254). -/
def baseNode (b : SnapBase) (e : NodeEntry) : Half × Half :=
  match b.nodes.find? fun k => k.tag == e.tag && k.khc.extractLsb' 0 4 == e.kind with
  | some k => (k.cur, k.prev)
  | none => (e.rval, e.rval)

/-- Timer words of a candidate, matched by the tag of the owning TIMER node; an unmatched timer is idle (R254). -/
def baseTimer (img : Image) (b : SnapBase) (h : Nat) : Half :=
  match (timerOwners img).find? fun o => o.1 == h with
  | none => 0
  | some o => match b.owners.find? fun q => q.2 == o.2 with
    | none => 0
    | some q => (pairAt b.timers q.1).getD 0

/-- A base in a candidate's own indexes (R254), with the forces that it mirrors (R257): node tag and kind exist in its
image, and its policy permits the force. -/
def mapBase (img : Image) (b : SnapBase) : SnapBase :=
  { b with
    nodes := (positions img.nodes).map fun p =>
      let v := baseNode b p.2
      { idx := p.1, tag := p.2.tag, khc := p.2.khc, cur := v.1, prev := v.2 },
    timers := (List.range img.hdr.timers).map fun h => (h, baseTimer img b h),
    owners := timerOwners img,
    forces := b.forces.filterMap fun f =>
      match (positions img.nodes).find? fun p => p.2.tag == f.tag && p.2.kind == f.kind with
      | none => none
      | some p =>
        match img.policy.find? fun r => r.node.toNat == p.1 with
        | none => none
        | some r =>
          let may (v : Half) : Bool := if forceRestrictive img p.1 v then r.perm.getLsbD 0 else r.perm.getLsbD 1
          if may f.value then some { f with node := p.1, next := f.next.filter fun k => may k.1 } else none }

/-- Tags and kinds of the CARRY nodes of a base (R255). -/
def baseCarries (b : SnapBase) : List (Word × BitVec 4) :=
  (b.nodes.filter fun k => k.khc.getLsbD 7).map fun k => (k.tag, k.khc.extractLsb' 0 4)

/-- The CARRY sets of an image and of a base are equal (R255). -/
def carriesEqual (img : Image) (b : SnapBase) : Bool :=
  let mine := (bridgeNodes img).map fun p => (p.2.tag, p.2.kind)
  mine.all (baseCarries b).contains && (baseCarries b).all mine.contains

/-- A lane adopts a partner's base with its deltas at a boundary (R242, R254): the force table and inbound ages come with
it; its own generations stay (R315), and its own commander epoch. -/
def Lane.adoptPartner (l : Lane) (img : Image) (b : SnapBase) : Lane :=
  let cand := l.ptn.role == 4
  let v := if cand then mapBase img b else b
  let bad := cand && !carriesEqual img b
  let m := l.adoptBase img v
  { m with
    nv := { m.nv with gens := l.nv.gens },
    ptn := { m.ptn with epoch := l.ptn.epoch, adopted := true, snapReq := false, matched := 0, misRun := 0, bmatch := 0, proven := false },
    fail := { m.fail with carryBad := bad, hoCode := if bad then 3 else m.fail.hoCode },
    re := { m.re with base := none, baseOk := false, deltas := [], since := none, noticed := [] } }

/-- The base that a lane adopts at its boundary of the partner's cycle after the last delta (R242): verified, with every
delta up to the last. -/
def Lane.partnerBase (l : Lane) (x : LaneId) (img : Image) : Option SnapBase :=
  if !(l.wantsBase x && l.re.baseOk) then none
  else match l.re.base with
    | none => none
    | some b =>
      let ds := l.re.deltas.filter fun d => b.cyc.toNat ≤ d.cyc.toNat
      if consecutive b.cyc ds then some (snapApply b img.hdr.tCycle l.re.noticed ds) else none

end Sys2Proof.Machine
end

