-- ==== Sys2Proof/Machine/Sendout.lean ====
section
/-!
DEFINITION. What a boundary does at the ports: the choice of transmit lanes and the bars of R18 and R19
(spec/01_lanes_and_seats.md), the command telegrams and BORDER frames of the sealed cycle (spec/02_the_cycle.md R34, R35;
spec/08_field_telegrams.md R168, R184, R186; spec/12_cluster_and_host.md R264, R269), and the lamps
(spec/20_ratings_and_connectors.md R399).
-/
namespace Sys2Proof.Machine

/-- Clock domain of a port (R333). -/
def portDomain : Port → Nat
  | .j4 | .j5 => 6
  | .j6 | .j7 => 5
  | .j8 => 8
  | .j9 | .j10 => 7

/-- A port is down in a lane (R333). -/
def State.portDown (s : State) (p : Port) (y : LaneId) : Bool := (s.lane y).meter.portDown.getLsbD (portDomain p)

/-- A lane may transmit on a port, bars apart (R18). -/
def Lane.ableOn (l : Lane) (down : Port → LaneId → Bool) (p : Port) (y : LaneId) : Bool := l.serves y && !down p y

/-- A lane is eligible for a port (R18). -/
def Lane.eligible (l : Lane) (down : Port → LaneId → Bool) (p : Port) (y : LaneId) : Bool :=
  l.ableOn down p y && !l.bars.contains (p, y)

/-- The bars of a port leave it without an eligible lane (R19). -/
def Lane.barsBlock (l : Lane) (down : Port → LaneId → Bool) (p : Port) : Bool :=
  !(portOrder p).any (l.eligible down p) && (portOrder p).any (l.ableOn down p)

/-- Every bar of a port that leaves it without an eligible lane clears, and the clearing is recorded (R19). -/
def Lane.clearBars (l : Lane) (down : Port → LaneId → Bool) : Lane :=
  match l.bars.find? fun b => l.barsBlock down b.1 with
  | none => l
  | some b =>
    { l with bars := l.bars.filter fun b => !l.barsBlock down b.1,
             txRec := { l.txRec with clears := l.txRec.clears + 1, lastClr := some (b.1, l.cyc.num) } }

/-- First eligible lane of a port, other than one where there is another (R18). -/
def Lane.pickTx (l : Lane) (down : Port → LaneId → Bool) (p : Port) (avoid : Option LaneId) : Option LaneId :=
  let ys := (portOrder p).filter (l.eligible down p)
  match ys.find? fun y => avoid != some y with
  | some y => some y
  | none => ys.head?

/-- The transmit lane of a port with what it must differ from (R18). -/
def Lane.chooseTx (l : Lane) (down : Port → LaneId → Bool) (p : Port) : Option LaneId :=
  match p with
  | .j5 => l.pickTx down p (l.pickTx down .j4 none)
  | .j7 => l.pickTx down p (l.pickTx down .j6 none)
  | _ => l.pickTx down p none

/-- Transmit lanes of every port at a boundary (R18, R19); the faults in a row of a lane that leaves the role are gone,
unless its port is down (R333). -/
def Lane.stepTx (l : Lane) (down : Port → LaneId → Bool) : Lane :=
  let m := l.clearBars down
  let tx := portList.filterMap fun p => (m.chooseTx down p).map fun y => (p, y)
  { m with tx := tx, txRun := m.txRun.filter fun q => tx.contains (q.1, q.2.1) || down q.1 q.2.1 }

/-- Field port of a network (R162). -/
def portOf : NetId → Port
  | .a => .j4
  | .b => .j5

/-- A lane says in its status of the running cycle that it dropped the cycle before, whose telegrams it then withholds
(R13, R186). -/
def Lane.heldBack (l : Lane) (y : LaneId) : Bool :=
  match l.peers.get y with
  | none => false
  | some f => f.cyc == l.cyc.num && f.dropped

/-- Telegrams that a network should have carried in the cycle that ended, as a lane counts them, those that its transmit
lane withholds left out (R19, R186). -/
def Lane.expects (l : Lane) (net : NetId) : Nat :=
  if ((l.txOf (portOf net)).map l.heldBack).getD false then 0
  else ((l.sent.find? fun p => p.1 == net).map (·.2)).getD 0

/-- Consecutive transmit faults of a lane on a port. -/
def Lane.faultRun (l : Lane) (p : Port) (y : LaneId) : Nat :=
  ((l.txRun.find? fun q => q.1 == p && q.2.1 == y).map (·.2.2)).getD 0

/-- Whether lane `y` had a transmit fault on a port in the cycle that ended: recorded, and three in a row bar it (R19). -/
def Lane.judgeLane (l : Lane) (p : Port) (y : LaneId) (bad : Bool) : Lane :=
  let run := if bad then l.faultRun p y + 1 else 0
  let rest := l.txRun.filter fun q => !(q.1 == p && q.2.1 == y)
  let m := { l with
    txRun := rest ++ (if run = 0 ∨ 3 ≤ run then [] else [(p, y, run)]),
    txRec := if bad then { l.txRec with faults := l.txRec.faults + 1, last := some (p, y, l.cyc.num) } else l.txRec }
  if 3 ≤ run && !m.bars.contains (p, y) then { m with bars := m.bars ++ [(p, y)] } else m

/-- A port is down in the lane itself (R333). -/
def Lane.downHere (l : Lane) (p : Port) : Bool := l.meter.portDown.getLsbD (portDomain p)

/-- The transmit lane of a port is judged for the cycle that ended (R19). -/
def Lane.judgePort (l : Lane) (p : Port) (bad : Bool) : Lane :=
  if l.downHere p then l
  else match l.txOf p with
    | none => l
    | some y => l.judgeLane p y bad

/-- The read-back tap of one network for the cycle that ended (R19). -/
def Lane.judgeTap (l : Lane) (net : NetId) (seen : Option Nat) : Lane :=
  match seen with
  | none => l
  | some k => l.judgePort (portOf net) (k != l.expects net)

/-- Transmit faults counted on the ports of sessions in the cycle that ended (R310), and those of a lane's own ports that
are down (R333). -/
def Lane.judgeRecords (l : Lane) (x : LaneId) : Lane :=
  let m := [Port.j6, .j9, .j10].foldl (fun m p => m.judgePort p (l.txBad.contains p)) l
  let m := (portList.filter l.downHere).foldl (fun m p => m.judgeLane p x true) m
  { m with txBad := [] }

/-- The pair whose tags the telegrams of the cycle that ended carry; none where the lane holds that it is not sealed
(R26, R184). -/
def Lane.sendPair (l : Lane) : Option Pair :=
  if l.cyc.sealed && l.cyc.voted && !l.cyc.notice && l.sealsNow then l.settlePair.map (·.1) else none

/-- The digest that the vote of the cycle agreed (R201). -/
def Lane.agreedDigest (l : Lane) (x : LaneId) : Option DigestFrame :=
  (laneList.find? l.stats.b.agree.has).bind fun y => if y = x then l.vote.own else l.vote.digs.get y

/-- Per-station digests of lane `y` that differ from the agreed ones or are not held (R186). -/
def Lane.mismatched (l : Lane) (x y : LaneId) (p : Nat) : Bool :=
  match l.agreedDigest x, (if y = x then (if l.cyc.drop.isSome then none else l.vote.own) else l.vote.digs.get y) with
  | some f, some g => f.stn[p]? != g.stn[p]? || g.stn[p]?.isNone
  | _, _ => true

/-- A command telegram: header with SEAL_PAIR, payload, two tags (R168); none where the transmit lane lacks its payload
or a tag. -/
def Lane.telegram (l : Lane) (img : Image) (n : Cycle) (q : Pair) (p : Nat × StationRec) : Option (List Byte) :=
  match l.payload n p.1 p.2, (l.tagsOf q.lanes.1).bind (fun t => t.1[p.1]?), (l.tagsOf q.lanes.2).bind (fun t => t.1[p.1]?) with
  | some pay, some t, some u =>
    some ((l.commandHead img p.1 p.2 n).set 0x13 q.byte ++ pay ++ bytesOf t ++ bytesOf u)
  | _, _, _ => none

/-- Telegrams that a transmit lane withholds (R186). -/
def Lane.withholds (l : Lane) (x : LaneId) (img : Image) : List Nat :=
  (List.range img.stations.length).filter (l.mismatched x x)

/-- Command telegrams of the cycle that ended, on one network, in ascending station position (R34), each in its frame (R162). A
network record that fails its check names no address (R63). -/
def Lane.telegrams (l : Lane) (x : LaneId) (img : Image) (net : NetId) : List Out :=
  match l.sendPair with
  | none => []
  | some q => if !img.tableSound netTable 0 then [] else (positions img.stations).filterMap fun p =>
      if l.mismatched x x p.1 then none
      else (l.telegram img l.cyc.num q p).map fun b => Out.command net x p.1 (l.fieldFrame x img net p b) b

/-- BORDER bodies of the cycle that ended, with their tags (R269). -/
def Lane.borderBodies (l : Lane) (img : Image) : List (List Byte) :=
  match l.sendPair, l.borderSegments img l.cyc.num with
  | some q, some bs =>
    (positions bs).filterMap fun b =>
      match (l.tagsOf q.lanes.1).bind (fun t => t.2[b.1]?), (l.tagsOf q.lanes.2).bind (fun t => t.2[b.1]?) with
      | some t, some u => some (b.2.2.2.set 0x0F q.byte ++ bytesOf t ++ bytesOf u)
      | _, _ => none
  | _, _ => []

/-- Number of BORDER frames of a sealed cycle. -/
def Lane.borderCount (l : Lane) (img : Image) : Nat :=
  (img.outNbs.flatMap fun p => if (l.inUse 0x42 p.2.nbArea).isSome then segmentsOf p.2 else []).length

/-- The frame number before those of the BORDER frames of the cycle that ended: the first lane at its boundary takes the
numbers for the module (R264). -/
def State.borderBase (s : State) (img : Image) (l : Lane) : Word × State :=
  if l.ring.base.1 = l.cyc.num then (l.ring.base.2, s)
  else
    let q := s.ringSeq
    let t := s.putRingSeq (q + BitVec.ofNat 32 (l.borderCount img))
    (q, t.mapLanes fun _ m => if m.live then { m with ring := { m.ring with base := (l.cyc.num, q) } } else m)

/-- BORDER frames in one direction (R262, R264). -/
def borderFrames (own dir : Byte) (p : RingPort) (q : Word) (bs : List (List Byte)) : List Out :=
  (positions bs).map fun b =>
    Out.ring p (ringHdr own 0x20 0xFE dir b.2.length (q + BitVec.ofNat 32 (b.1 + 1))) (.raw b.2)

/-- The telegrams of a network that a lane starts to send, those it has not begun when its next boundary arrives left out
(R34, R35). -/
def Lane.leaving (l : Lane) (x : LaneId) (img : Image) (net : NetId) (unsent : Nat) : List Out :=
  let ts := l.telegrams x img net
  ts.take (ts.length - unsent)

/-- Telegrams that the lane has to send on a network: `l` is the lane before the boundary, `tx` the network's transmit lane
after it. -/
def Lane.dueOn (l : Lane) (x : LaneId) (img : Image) (net : NetId) (tx : Option LaneId) : Nat :=
  if tx == some x && l.cyc.drop.isNone then (l.telegrams x img net).length else 0

/-- Figures of the dispatch that a boundary starts, in a lane that has `na` and `nb` telegrams to send: the first one on
the wire by T_dispatch, or the lane drops the cycle (R24, R34, R35, R36, R45). -/
def Lane.openDispatch (m : Lane) (na nb : Nat) (env : BoundaryEnv) : Lane :=
  if na + nb = 0 then m
  else
    let k := m.statA fun a => { a with
      dispStart := env.dispStart, dispEnd := env.dispEnd, discard := min env.unsentA na + min env.unsentB nb }
    if env.dispStart ≤ 200 then k.noteSlack 0 ((200 - env.dispStart) / 10) else k.dropCycle 1 0

/-- What the lane sends of the cycle that ended (R26 step 6, R34, R35, R269): `l` is the lane before the boundary, `tx` its
transmit lanes after it. The border frames leave first. -/
def State.dispatch (s : State) (x : LaneId) (img : Image) (l : Lane) (tx : Port → Option LaneId) (env : BoundaryEnv) :
    State :=
  if l.sendPair.isNone || l.cyc.drop.isSome then s
  else
    let bs := l.borderBodies img
    let b := s.borderBase img l
    let t := if bs.isEmpty then s else b.2
    let t := if tx .j6 == some x then t.emits (borderFrames img.own 0 .east b.1 bs) else t
    let t := if tx .j7 == some x then t.emits (borderFrames img.own 1 .west b.1 bs) else t
    let t := if tx .j4 == some x then t.emits (l.leaving x img .a env.unsentA) else t
    if tx .j5 == some x then t.emits (l.leaving x img .b env.unsentB) else t

/-- Telegrams of the sealed cycle that a network should carry, those its transmit lane withholds left out (R19, R186). -/
def Lane.sealedFor (l : Lane) (x : LaneId) (img : Image) (tx : Option LaneId) : Nat :=
  match tx with
  | none => 0
  | some y =>
    if !(l.cyc.sealed && !l.cyc.notice && l.sealsNow) then 0
    else ((List.range img.stations.length).filter fun p => !l.mismatched x y p).length

/-- Lamp codes: 0 off, 1 steady, 2 flashing (R387). -/
abbrev Lamp := BitVec 2

/-- LANE lamp of lane `y` as lane `x` commands it (R399); in START a peer shows once it has posted. -/
def Lane.laneLamp (l : Lane) (x y : LaneId) : Lamp :=
  let c := l.codeOf y
  if !l.mode.armed && l.mode.mode != 5 then (if y = x ∨ (l.boot.posts.get y).isSome then 2 else 0)
  else if c = 1 then 1 else if 2 ≤ c.toNat ∧ c.toNat ≤ 5 then 2 else 0

/-- ROLE lamp (R399). -/
def Lane.roleLamp (l : Lane) : Lamp :=
  if l.ptn.role = 0 then 1 else if l.ptn.role = 1 ∨ l.ptn.role = 2 ∨ l.ptn.role = 4 then 2 else 0

/-- START has stopped in a lane: in this one, or in a peer whose post says so (R13, R399; log entry 94). -/
def Lane.seesStop (l : Lane) : Bool :=
  l.boot.stopped || laneList.any fun y => ((l.boot.posts.get y).map (·.stopped)).getD false

/-- SAFE lamp (R399). -/
def Lane.safeLamp (l : Lane) : Lamp := if l.mode.mode = 5 then 1 else if !l.mode.armed && l.seesStop then 2 else 0

/-- FORCE lamp, FRC_STATUS.LAMP (R298, R300). -/
def Lane.forceLamp (l : Lane) : Lamp :=
  let act := l.force.table.filter fun f => f.activeIn l.cyc.num
  if act.isEmpty then 0 else if act.any (·.perm) then 2 else 1

/-- A supply lamp (R399). -/
def supplyLamp (present carrying : Bool) : Lamp := if !present then 0 else if carrying then 1 else 2

/-- A field lamp (R399). -/
def fieldLamp (up : Bool) (valid : Nat) : Lamp := if !up then 0 else if valid = 0 then 2 else 1

/-- RING lamp (R399). -/
def ringLamp (east west dup : Bool) : Lamp :=
  if !east && !west then 0 else if east && west && !dup then 1 else 2

/-- Every lamp as a lane commands it, in the layout of STS_LAMPS (R387, R399). -/
def State.lampsOf (s : State) (x : LaneId) : BitVec 22 :=
  let l := s.lane x
  ringLamp (s.ports.getLsbD 2) (s.ports.getLsbD 3) l.ring.dup ++ fieldLamp (s.ports.getLsbD 1) l.stats.lastB.validB ++
    fieldLamp (s.ports.getLsbD 0) l.stats.lastB.validA ++ supplyLamp s.sup.bkP s.sup.onBk ++
    supplyLamp s.sup.mainP (!s.sup.onBk) ++ l.forceLamp ++ l.safeLamp ++ l.roleLamp ++ l.laneLamp x .c ++ l.laneLamp x .b ++
    l.laneLamp x .a

/-- The state that a lamp shows: what two lanes command, else off, and SAFE steady (R399). -/
def lampVote (safe : Bool) (a b c : Lamp) : Lamp := if a = b ∨ a = c then a else if b = c then b else if safe then 1 else 0

/-- Lamp `k` of a word of lamps. -/
def lampAt (w : BitVec 22) (k : Nat) : Lamp := w.extractLsb' (2 * k) 2

/-- The lamps shown for three commanded words (R399); SAFE is lamp 4. -/
def shownLamps (a b c : BitVec 22) : BitVec 22 :=
  (List.range 11).foldl
    (fun w k => w ||| ((lampVote (k == 4) (lampAt a k) (lampAt b k) (lampAt c k)).setWidth 22 <<< (2 * k))) 0

/-- A lane commands its lamps at its boundary; a lane in START or SAFE-HALT commands them at once. -/
def State.setLamps (s : State) (x : LaneId) : State :=
  let now (y : LaneId) : BitVec 22 :=
    if !(s.lane y).live then 0
    else if y = x || !(s.lane y).mode.armed || (s.lane y).mode.mode == 5 then s.lampsOf y else s.lampCmd.get y
  let c : PerLane (BitVec 22) := { a := now .a, b := now .b, c := now .c }
  { s with lampCmd := c, lamps := shownLamps c.a c.b c.c }

end Sys2Proof.Machine
end

