-- ==== Sys2Proof/Machine/Boundary.lean ====
section
/-!
DEFINITION. What one lane does at a boundary (spec/02_the_cycle.md R26, R36 to R39, R44, R45;
spec/03_coded_state.md R55, R59, R63; spec/08_field_telegrams.md R170, R179; spec/09_agreement_and_vote.md R202 to R211;
spec/11_partner_and_failover.md R238, R242, R252; spec/13_modes_and_forcing.md R290, R293; spec/18_event_recorder.md
R368).
-/
namespace Sys2Proof.Machine

/-- How a cycle ended in a lane's view: sealed by the module, committed by the lane, dropped by the module (R26, R37). -/
structure Ending where
  sealed  : Bool
  commit  : Bool
  modDrop : Bool
  deriving DecidableEq, Repr

/-- Values that a boundary leaves open: the cause code of a cycle dropped by a seal-failure notice (R44), the duration of a
zeroisation (R320), the index of a wrong known answer (R68), what two failed MRAM writes leave (R369), whether an
acknowledging candidate mirrors every force (R257), and the rounding of CLK_DEV (R251). -/
structure OpenVals where
  cause  : BitVec 4
  zeroUs : BitVec 16
  index  : BitVec 20
  junk   : List Byte
  carry  : Bool
  round  : Bool
  deriving DecidableEq, Repr

/-- The open values of a boundary (log entry 4). -/
def State.openVals (s : State) : OpenVals × State :=
  let a := s.fresh 4
  let b := a.2.fresh 16
  let c := b.2.fresh 20
  let d := c.2.fresh 2048
  let e := d.2.fresh 1
  let f := e.2.fresh 1
  ({ cause := a.1, zeroUs := b.1, index := c.1, junk := bytesOf d.1, carry := e.1 = 1, round := f.1 = 1 }, f.2)

/-- The module sealed the cycle in the lane's view (R26): the settled vote, or for a lane that takes no part the vote of
the digests it holds, and no seal-failure notice. -/
def Lane.ballotSeal (l : Lane) (x : LaneId) : Bool :=
  (if l.cyc.voted then l.cyc.sealed else (settleVote l.vote.service (l.ballots x)).sealed) && !l.cyc.notice

/-- How the running cycle ends (R26, R36, R37). -/
def Lane.ending (l : Lane) (x : LaneId) : Ending :=
  let logic := l.evaluates && logicRuns l.mode.mode && l.cyc.running
  let sealed := logic && l.ballotSeal x
  { sealed := sealed, commit := sealed && l.cyc.voted && l.phased x && l.cyc.drop.isNone, modDrop := logic && !sealed }

/-- A lane that dropped the cycle after a vote in which all three agreed counts itself as outvoted (R201). -/
def Lane.countLateDrop (l : Lane) (x : LaneId) : Lane :=
  if l.serves x && l.vote.service.count == 3 && l.cyc.voted && l.cyc.sealed && l.cyc.drop.isSome &&
      l.stats.b.outvoted.count == 0 then
    let m := l.statB fun b => { b with outvoted := LaneSet.those fun y => y == x }
    { m with vote := { m.vote with wins := m.vote.wins.put x (m.vote.wins.get x ++ [l.cyc.num.toNat]),
                                   total := m.vote.total + 1 } }
  else l

/-- The lane closes the cycle that ends, before it settles how it ended. -/
def Lane.closeCycle (l : Lane) (x : LaneId) (img : Image) : Lane :=
  let l := (l.countLateDrop x).statB fun b => { b with
    applied := (l.host.pulses.filter fun p => p.1 == l.cyc.num).length, late := l.host.late, conflict := l.host.conflict }
  let l := l.passAgree img
  let l := if l.phased x && l.evaluates then l else (l.settleTakeover x img).settleHandover img
  let l := l.settleTrack l.ptn.track
  if l.cyc.agreed && !l.cyc.p5 then l.takeSlots (l.p5Slots img) else l

/-- A cycle that a seal-failure notice dropped is counted and recorded (R44, R192); R44 gives it no cause code,
so the code is a free value. -/
def Lane.noteNotice (l : Lane) (cause : BitVec 4) : Lane :=
  let m := if l.cyc.notice && l.cyc.sealed && l.cyc.drop.isNone then l.noteCause cause 8 else l
  { m with field := { m.field with sealFail := m.field.sealFail + l.cyc.notice.toNat } }

/-- The bank pointers move on (R26 step 1, R55). -/
def Store.rotate (t : Store) (n : Cycle) : Store := { t with cur := t.cur + 1, bcnPrev := t.bcnCur, bcnCur := n }

/-- The lane counts committing boundaries in its state epoch (R252). -/
def Lane.countsEpoch (l : Lane) : Bool :=
  l.ptn.role == 0 || (l.ptn.adopted && (l.ptn.role == 1 || l.ptn.role == 2 || l.ptn.role == 4))

/-- SUBST marks of the local inputs of the cycle (R218, R219). -/
def Lane.localSubst (l : Lane) : BitVec 32 := wordOf fun k => Mem.get false l.store.subP5 (ctxKey 2 0 k.val)

/-- What a lane commits (R26, R55, R219, R252). -/
def Lane.commitCycle (l : Lane) (e : Ending) : Lane :=
  if !e.commit then l
  else { l with
    store := l.store.rotate l.cyc.num,
    lio := { l.lio with subCommit := l.localSubst, blanks := 0 },
    nv := { l.nv with se := if l.countsEpoch then l.nv.se + 1 else l.nv.se } }

/-- Every station's command SEQ counts the telegrams sealed for it (R170). -/
def Lane.countSeq (l : Lane) (img : Image) (e : Ending) : Lane :=
  if !(e.sealed && l.sealsNow) then l
  else { l with field := { l.field with
    stns := (positions img.stations).foldl
      (fun m p => Mem.set StnRec.init m p.1 { l.stn p.1 with seqOut := (l.stn p.1).seqOut + 1 }) l.field.stns } }

/-- State epoch stored every 2^16 cycles (R252). -/
def Lane.storeEpoch (l : Lane) (n : Cycle) : Lane :=
  if n.toNat % 65536 = 0 then { l with nv := { l.nv with seStored := l.nv.se } } else l

/-- Outvotes of a lane among the 16 cycles that end with cycle c (R202). -/
def Lane.outvotes (l : Lane) (y : LaneId) (c : Cycle) : Nat :=
  ((l.vote.wins.get y).filter fun k => c.toNat < k + 16).length

/-- Lane y was outvoted for the third time among 16 cycles in the cycle that ended (R202, R206). -/
def Lane.thirdOutvote (l : Lane) (y : LaneId) : Bool :=
  l.serves y && l.vote.service.count == 3 && l.stats.b.outvoted.has y && 3 ≤ l.outvotes y l.cyc.num

/-- Lanes excluded at the boundary that follows the running cycle, as this lane holds it (R14, R40, R202, R203, R335). -/
def Lane.excluded (l : Lane) (x : LaneId) : LaneSet :=
  LaneSet.those fun y => l.serves y &&
    (l.vote.excl.has y || (y == x && l.vote.selfExcl.isSome) || l.thirdOutvote y || (l.setExcluded x).has y ||
      (l.xchkExcluded x).has y)

/-- A peer in shadow matched the agreed digest of the cycle that ends (R209; log entry 23). -/
def Lane.countPeer (l : Lane) (x y : LaneId) (e : Ending) : Nat :=
  let k := l.re.peerMatch.get y
  if l.codeOf y != 5 then 0
  else if !e.sealed then k
  else match l.vote.digs.get y, l.agreedDigest x with
    | some f, some g => if f.whole == g.whole then k + 1 else 0
    | _, _ => 0

/-- A lane in shadow compares its digest with the agreed one; a cycle that the module dropped, by the vote or by a
seal-failure notice, counts as nothing (R184, R209). -/
def Lane.matchShadow (l : Lane) (x : LaneId) (e : Ending) : Lane :=
  if l.codeOf x != 5 then l
  else if l.cyc.drop.isSome then { l with re := { l.re with matched := 0, wantStep2 := true } }
  else if !e.sealed || !l.cyc.voted then l
  else if ((l.agreedDigest x).map (·.whole)) == (l.vote.own.map (·.whole)) then
    { l with re := { l.re with matched := l.re.matched + 1 } }
  else { l with re := { l.re with matched := 0, wantStep2 := true } }

/-- Match counts of the peers after the cycle that ends. -/
def Lane.countPeers (l : Lane) (x : LaneId) (e : Ending) : Lane :=
  { l with re := { l.re with peerMatch := (l.re.peerMatch.put x.next (l.countPeer x x.next e)).put x.prev
                                            (l.countPeer x x.prev e) } }

/-- Lanes that enter the vote at the boundary (R207 step 5, R209). -/
def Lane.joiners (l : Lane) (x : LaneId) : LaneSet :=
  LaneSet.those fun y => l.codeOf y == 5 &&
    (if y = x then 256 ≤ l.re.matched && !l.cyc.lastLane && !l.re.wantStep2 && l.vote.selfExcl.isNone &&
       l.retired = 0
     else 256 ≤ l.re.peerMatch.get y)

/-- State code of a lane that excludes itself (R207, R335): until START, until the next record period, or under test. -/
def Lane.ownExclusion (l : Lane) (x : LaneId) : BitVec 4 :=
  if l.vote.selfExcl == some 6 || l.retired != 0 || (l.xchkExcluded x).has x then 6
  else if 4 ≤ l.re.periodCnt then 7 else 2

/-- A scan of the security block ends by the next boundary (DESIGN CHOICE, log entry 109). -/
def Lane.endScan (l : Lane) : Lane := if l.sec.zeroed then { l with sec := l.sec.reload l.nv.root } else l

/-- The lane starts step 1 of a return with the zeroisation of its security block (R207, R320). -/
def Lane.startTest (l : Lane) (us : BitVec 16) : Lane :=
  { l with re := { l.re with slices := 0, sliceBad := false, sliceSeats := [], source := none, base := none, baseOk := false,
                             dig := none, deltas := [], since := none, matched := 0, wantStep2 := false },
           sec := l.sec.zeroise us }

/-- Service set and state codes after exclusions and returns (R202, R203, R207). -/
def Lane.setService (l : Lane) (x : LaneId) (ex jo : LaneSet) : Lane :=
  let code (y : LaneId) : BitVec 4 :=
    if jo.has y then 1
    else if ex.has y then (if y = x then l.ownExclusion x else if (l.xchkExcluded x).has y then 6 else 2)
    else if y = x && !l.serves x && l.vote.selfExcl == some 6 then 6
    else l.codeOf y
  let pm (y : LaneId) : Nat := if jo.has y then 0 else l.re.peerMatch.get y
  let v : Vote := { l.vote with
    service := LaneSet.those fun y => (l.serves y && !ex.has y) || jo.has y,
    codes := { a := code .a, b := code .b, c := code .c } }
  { l with
    vote := v, bars := l.bars.filter fun b => !jo.has b.2,
    re := { l.re with peerMatch := { a := pm .a, b := pm .b, c := pm .c } } }

/-- What the lane's own exclusion and return leave in its counts (R207, R213, R370). -/
def Lane.countOwn (l : Lane) (x : LaneId) (ex jo : LaneSet) (us : BitVec 16) : Lane :=
  let l := if ex.has x then
      ({ l with rcd := { l.rcd with b := { l.rcd.b with excl := l.rcd.b.excl + 1 } } } : Lane).recordFlag 4 else l
  let l := if ex.has x && l.codeOf x == 2 then l.startTest us else l
  if jo.has x then
    { l with boot := { l.boot with late := false },
             re := { l.re with total := l.re.total + 1, periodCnt := l.re.periodCnt + 1, source := none, base := none,
                               baseOk := false, dig := none, deltas := [], since := none },
             rcd := { l.rcd with b := { l.rcd.b with returns := l.rcd.b.returns + 1 } } }
  else l

/-- A period boundary (R207, R368): the record is written, returns count afresh, a lane barred until now begins its
return. -/
def Lane.periodEnd (l : Lane) (x : LaneId) (n : Cycle) (fails : Nat) (o : OpenVals) : Lane :=
  let l := if l.codeOf x == 1 then l else l.recordFlag 4
  if !l.atPeriod n then l
  else
    let m := l.writeRecord x n false fails o.junk
    let m := { m with re := { m.re with periodCnt := 0 } }
    let m := if m.codeOf x == 1 then m else m.recordFlag 4
    if m.codeOf x != 7 then m
    else if m.boot.late then m.awaitSnapshot x
    else ({ m with vote := { m.vote with codes := m.vote.codes.put x 2 } } : Lane).startTest o.zeroUs

/-- Statistics of the cycle that ended are latched and the counters restart (R26 step 3, R45). -/
def Lane.latchStats (l : Lane) : Lane :=
  { l with stats := { seq := l.cyc.num.setWidth 32, a := StatA.init, b := StatB.init, lastA := l.stats.a, lastB := l.stats.b } }

/-- The running cycle is n (R26 step 2, R37, R39, R43). -/
def Lane.startCycle (l : Lane) (n : Cycle) (e : Ending) : Lane :=
  { l with
    cyc := { CycState.init with
      num := n, running := true, phase := 1, lastLane := l.cyc.drop.isSome, lastMod := e.modDrop,
      dropRun := if e.modDrop then min 2 (l.cyc.dropRun + 1) else 0, dropCnt := l.cyc.dropCnt + e.modDrop.toNat },
    align := { l.align with noted := false } }

/-- Stations that the boundary took from ADMITTED to STALE (R371). -/
def Lane.lostStations (l m : Lane) (img : Image) : Nat :=
  ((List.range img.stations.length).filter fun p => (l.stn p).st == .admitted && (m.stn p).st == .stale).length

/-- The value that an input force gives a node in a cycle (R293). -/
def forceAt (t : List Force) (i : Nat) (n : Cycle) : Option Half :=
  (t.find? fun f => f.node == i && !f.out && f.activeIn n).map (·.value)

/-- The force table at the boundary that opens n, with the input nodes to be passed as changed (R291, R293). -/
def Lane.stepForces (l : Lane) (n : Cycle) : Lane :=
  let t := l.force.table
  let u := t.filterMap fun f => f.stepTo n
  let fresh (i : Nat) : Bool := u.any fun f => f.node == i && !f.out && f.start == n
  { l with force := { l.force with
      table := u, changed := ((t ++ u).map (·.node)).eraseDups.filter fun i => fresh i || forceAt t i (n - 1) != forceAt u i n } }

/-- The inbound buffers of the cycle that ended become the prediction of the next, under D of the next (R27, R63, R92). -/
def Lane.turnBuffers (l : Lane) (img : Image) (p5 : Bool) : Lane :=
  let q := Config.qOf l.slot
  let src := if p5 then l.store.inP5 else l.store.inP1
  let next := if src.length = (inSlots img).length then Mem.mapEntries 0 (fun _ c => c + q) src
    else Mem.setAll 0 [] ((inSlots img).map fun k => (k.1, Mem.get 0 src k.1 + q))
  { l with store := { l.store with
      inP1 := next, subP1 := if p5 then l.store.subP5 else l.store.subP1,
      poison := if p5 then (l.store.healAll fun c => cellP1 c || cellP5 c).poison ++ l.store.poison.filterMap cellTurned
                else (l.store.healAll cellP5).poison } }

/-- Outbound buffers stand restrictive and every mark of the sweep is clear (R59, R84, R93, R118). -/
def Lane.clearSweep (l : Lane) (img : Image) (n : Cycle) : Lane :=
  { l with store := { l.store.healAll cellOut with
      bitmap := [], plain := [], blank := [], dirty := [], redone := [], ops := [],
      out := Mem.setAll 0 [] ((outRestrictive img).map fun p => (p.1, encode l.slot p.2 (sigKey outByte p.1) n)) } }

/-- Code of the last sealed pair (R192). -/
def Lane.keepPair (l : Lane) (e : Ending) : Lane :=
  if !e.sealed then l
  else { l with field := { l.field with lastPair := ((l.vote.sealPair.map Pair.code).getD l.field.lastPair) } }

/-- Votes, alignment and partner figures are clear for the cycle n (R40, R201, R241, R245); a workstation's lock ends after its
cycles (R283, R314). -/
def Lane.clearCycle (l : Lane) (n : Cycle) : Lane :=
  let v := l.vote
  { l with
    vote := { v with own := none, digs := PerLane.const none, pair := none, spare := none, tags := PerLane.const none,
                     sets := PerLane.const none, overs := PerLane.const noLanes, sealPair := none,
                     excl := noLanes, selfExcl := none,
                     wins := PerLane.mapAll (fun (w : List Nat) => w.filter fun k => n.toNat ≤ k + 16) v.wins },
    align := { l.align with skew := PerLane.const none, judged := false },
    lio := { l.lio with gotSet := false },
    ptn := { l.ptn with got1 := l.ptn.rx1 == n, got2 := l.ptn.rx2 == n, trackOff := l.ptn.trackOff },
    fail := { l.fail with witLast := l.fail.witness, witness := 0, takeMine := false,
                          takePeer := noLanes, digPrev := l.fail.digNow, bdPrev := l.fail.bdNow, digNow := none,
                          bdNow := none, snapAge := l.fail.snapAge + 1 },
    host := { l.host with pulses := l.host.pulses.filter (fun p => n.toNat ≤ p.1.toNat),
                          posts := l.host.posts.filter fun p => n.toNat < p.cyc.toNat,
                          locks := l.host.locks.filter fun k => n.toNat < k.2.toNat },
    ring := { l.ring with nbs := l.ring.nbs.map NbState.openIntake },
    bist := { l.bist with mis256 := l.bist.mis256.filter fun c => n.toNat < c + 256 } }

/-- A lane's count of a degrade limit falls by one cycle (R233). -/
def Lio.stepDegree (o : Lio) (g : Nat) : Lio :=
  match o.deg g with
  | none => o
  | some k =>
    let p := o.putDeg g (some (k - 1))
    if k ≤ 1 then { p with expired := p.expired ||| (1#4 <<< g) } else p

/-- Degrade counts of the four groups (R233). -/
def Lio.stepDegrees (o : Lio) : Lio := [0, 1, 2, 3].foldl Lio.stepDegree o

/-- A group shows LATCHED in the last cycle set (R225). -/
def Lio.latched (o : Lio) (g : Nat) : Bool :=
  match o.set with
  | none => false
  | some f => ((f.groups[g]?).map fun b => stateOf b == 4).getD false

/-- The lines that a lane toggles (R16, R225, R233). The check unit's word re-arms the generators only if the lane completed
its checks of the cycle just ended; a generator that stopped runs again with the next right word (log entry 111). -/
def Lane.setToggles (l : Lane) (x : LaneId) (checked : Bool) : Lane :=
  let on (g : Nat) : Bool := checked && l.serves x && l.active && logicRuns l.mode.mode && !l.lio.latched g && !l.lio.expired.getLsbD g
  { l with lio := { l.lio with toggle := [0, 1, 2, 3].foldl (fun (w : BitVec 4) g => if on g then w ||| (1#4 <<< g) else w) 0 } }

/-- Seats at a boundary (R210, R211, R342): the deal, the untested count and the drop of a lane with two retired seats. -/
def Lane.stepSeats (l : Lane) (x : LaneId) (dip : Bool) : Lane :=
  let m := if l.phased x || l.underTest x then l.stepDeal x dip else l.putSlice false
  let m := if m.phased x && m.retired = 1 then { m with re := { m.re with untested := m.re.untested + 1 } } else m
  if 2 ≤ m.retired && m.phased x then (m.dropCycle 4 0).excludeSelf untilStart else m

/-- What the guard left for the cycle that follows (R33, R361). -/
def Lane.chargeGuard (l : Lane) (index : BitVec 20) : Lane :=
  let m := if l.bist.cuWrong then ({ l with bist := { l.bist with cuWrong := false } } : Lane).codeFail 3 index.toNat else l
  if m.bist.supOpen then ({ m with bist := { m.bist with supOpen := false } } : Lane).countAbandoned else m

/-- Bus voltage at a boundary (R341, R354, R370). -/
def Lane.noteBus (l : Lane) (v : Nat) : Lane :=
  { l with sup := { l.sup with busNow := v, busMin := min l.sup.busMin v },
           rcd := { l.rcd with b := { l.rcd.b with busMin := min l.rcd.b.busMin v } } }

/-- Steps of a return at a boundary (R207 to R209). -/
def Lane.stepReturn (l : Lane) (x : LaneId) (img : Image) (n : Cycle) : Lane :=
  let c := l.codeOf x
  if l.retired != 0 && 2 ≤ c.toNat && c.toNat ≤ 5 then { l with vote := { l.vote with codes := l.vote.codes.put x 6 } }
  else if c = 2 then
    if l.re.sliceBad then { l with vote := { l.vote with codes := l.vote.codes.put x 6 } }
    else if 48 ≤ l.re.slices then l.awaitSnapshot x else l
  else if c = 5 then (if l.re.wantStep2 || l.cyc.lastLane then l.awaitSnapshot x else l)
  else if c = 3 || c = 4 then
    match l.re.source with
    | none => l
    | some y =>
      if !l.serves y then l.awaitSnapshot x
      else match l.re.base with
        | none => l
        | some b =>
          let ds := l.re.deltas.filter fun d => b.cyc.toNat ≤ d.cyc.toNat
          if !l.re.baseOk then l
          else if !consecutive b.cyc ds then l.awaitSnapshot x
          else if b.cyc.toNat + ds.length != n.toNat then l
          else
            let m := l.adoptBase img (snapApply b img.hdr.tCycle l.re.noticed ds)
            { m with vote := { m.vote with codes := m.vote.codes.put x 5 }, align := { m.align with outStep := false },
                     re := { m.re with base := none, baseOk := false, dig := none, deltas := [], since := none, matched := 0,
                                       wantStep2 := false, noticed := [] } }
  else l

/-- A lane out of step drops every cycle until its return has brought it back into step (R40). -/
def Lane.stepOut (l : Lane) : Lane := if l.align.outStep then l.dropCycle 7 0 else l

/-- A lane of a standby or candidate adopts its partner's snapshot (R242): one already in step with the active only at
the boundary of the base's cycle. -/
def Lane.stepAdopt (l : Lane) (x : LaneId) (img : Image) (n : Cycle) : Lane :=
  match l.partnerBase x img with
  | none => l
  | some b => if !l.ptn.adopted || b.cyc == n then l.adoptPartner img b else l

/-- Base captured for the partner at the active's boundary (R242): on a heartbeat of ROLE 2 or 4, and for 64 cycles. -/
def Lane.stepTransfer (l : Lane) (x : LaneId) (img : Image) (n : Cycle) : Lane :=
  if !(l.active && l.serves x) then { l with fail := { l.fail with base := none, baseSent := false } }
  else
    let held := match l.fail.base with
      | none => false
      | some b => n.toNat < b.cyc.toNat + 64
    if held then l
    else if l.ptn.prole == 2 || l.ptn.prole == 4 then
      ({ l with fail := { l.fail with base := l.captureBase img, baseSent := false } } : Lane).captureEcc img
    else { l with fail := { l.fail with base := none, baseSent := false } }

/-- The lane enters SAFE-HALT at the boundary that would open n (R39, R205, R368). -/
def Lane.enterHalt (l : Lane) (x : LaneId) (n : Cycle) (fails : Nat) (o : OpenVals) : Lane :=
  let m := ((l.setRole 5).recordFlag 2).writeRecord x n true fails o.junk
  { m with mode := { m.mode with mode := 5 }, cyc := { m.cyc with num := n, running := false, phase := 0 },
           lio := { m.lio with toggle := 0 }, fail := { m.fail with base := none, baseSent := false, ho := .idle },
           vote := { m.vote with excl := noLanes, selfExcl := none } }

/-- The module halts at the boundary (R39, R205). -/
def Lane.halts (l : Lane) : Bool := l.vote.service.count < 2 || 2 ≤ l.cyc.dropRun

/-- Handover and roles at the boundary that opens n (R238, R256, R288). -/
def Lane.stepRoles (l : Lane) (x : LaneId) (img : Image) (n : Cycle) (o : OpenVals) : Lane :=
  let carried := ((l.ptn.last.map fun h => h.flags.getLsbD 3).getD false) && o.carry
  let uncarried := l.forced n && !(l.fail.hoUse && carried)
  let m := (l.stepHandover n uncarried).stepRole x img n
  let m := { m with fail := { m.fail with
    candAck := match m.fail.candAck with
      | none => none
      | some h => if h.toNat ≤ n.toNat then none else some h } }
  let m := m.pruneEchoes img n
  if m.mode.mode == 3 && m.ptn.role != 3 then (m.setRole 3).sleep .doze else m

/-- The lane's stores and records move from the cycle that ended to cycle n (R26 steps 1 to 4, R38). -/
def Lane.moveOn (l : Lane) (x : LaneId) (img : Image) (env : BoundaryEnv) (e : Ending) (n : Cycle) (o : OpenVals) : Lane :=
  let ran := l.phased x && l.evaluates && l.cyc.running
  let p5 := l.cyc.p5 || l.cyc.agreed
  let m := ((l.endScan.noteNotice o.cause).recordCycle img ran l.cyc.drop.isSome e.modDrop).countPeers x e
  let m := m.matchShadow x e
  let m := ((((m.judgeTap .a env.tapA).judgeTap .b env.tapB).judgeRecords x).keepPair e).countSeq img e
  let m := ((m.commitCycle e).stepTimers img n e.commit).stepStations img n e.commit
  let m := m.stepNeighbours img n e.commit
  let m := if e.commit then m.stepGens else m
  (((m.latchStats.startCycle n e).storeEpoch n).stepForces n).turnBuffers img p5

/-- Exclusions, returns and the record period (R202 to R207, R368). -/
def Lane.moveService (l : Lane) (x : LaneId) (n : Cycle) (ex : LaneSet) (fails : Nat) (o : OpenVals) : Lane :=
  let jo := l.joiners x
  let m := l.setService x ex jo
  let m := m.countOwn x ex noLanes o.zeroUs
  (m.periodEnd x n fails o).countOwn x noLanes jo o.zeroUs

/-- Everything that opens cycle n once roles stand (R26 steps 4 and 5, R27, R28). -/
def Lane.openCycle (l : Lane) (x : LaneId) (img : Image) (env : BoundaryEnv) (n : Cycle) (o : OpenVals) (dip : Bool)
    (down : Port → LaneId → Bool) (checked : Bool) : Lane :=
  let m := (((l.clearCycle n).openIntake n).clearSweep img n).stepAdopt x img n
  let m := m.hearEarly img (1000 * img.hdr.tCycle + l.align.slew)
  let m := (((m.stepReturn x img n).stepOut).stepSeats x dip).chargeGuard o.index
  let m := ((m.readTemp env.temp).noteBus env.busTenMv).stepTx down
  let m := { m with lio := m.lio.stepDegrees }
  let m := (m.setToggles x checked).stepTransfer x img n
  if m.phased x && m.evaluates && logicRuns m.mode.mode && m.cyc.running then m.startPhase img else m

/-- A boundary of a lane whose module runs the logic (R26). -/
def Lane.boundary (l : Lane) (x : LaneId) (img : Image) (env : BoundaryEnv) (o : OpenVals) (dip : Bool)
    (down : Port → LaneId → Bool) : Lane :=
  let l := l.closeCycle x img
  let e := l.ending x
  let ex := l.excluded x
  let n := l.cyc.num + 1
  let m := (l.moveOn x img env e n o).moveService x n ex env.mramFails o
  if m.halts then m.enterHalt x n env.mramFails o
  else
    let k := (m.recordStations img n (l.lostStations m img)).stepRoles x img n o
    if k.mode.armed then k.openCycle x img env n o dip down l.cyc.checked else k

/-- A boundary of a dormant lane (R237, R238, R250, R351): it keeps the cycle number and judges silence; three silent cycles on
both paths order its wake. -/
def Lane.dormantBoundary (l : Lane) (x : LaneId) (img : Image) (env : BoundaryEnv) (o : OpenVals)
    (down : Port → LaneId → Bool) : Lane :=
  let l := (((l.endScan).judgeSilence).settleTrack none).statB fun b => { b with late := l.host.late, conflict := l.host.conflict }
  let ex := l.excluded x
  let n := l.cyc.num + 1
  let m := ((l.recordCycle img false false false).moveService x n ex env.mramFails o)
  if m.vote.service.count < 2 then m.enterHalt x n env.mramFails o
  else
    let m := m.latchStats
    let m := { m with cyc := { m.cyc with num := n }, fail := { m.fail with dozeCyc := m.fail.dozeCyc + 1 },
                      pwr := { m.pwr with wakeDue := m.pwr.wakeDue || l.bothSilent } }
    ((((m.clearCycle n).readTemp env.temp).noteBus env.busTenMv).pruneEchoes img n).stepTx down

/-- Mode that an arming leads to (R288). -/
def modeOfRole (r : BitVec 4) : BitVec 3 := if r = 3 then 3 else if r = 4 then 2 else 1

/-- The first boundary of a lane whose arming was accepted (R26, R56, R109, R155, R158, R253): cycle 1. -/
def Lane.firstBoundary (l : Lane) (x : LaneId) (img : Image) (env : BoundaryEnv) (down : Port → LaneId → Bool) : Lane :=
  let r := l.mode.takes
  let m := (l.restrictBanks img 0).clearBuffers img 0
  let m := if r = 0 then m.coldStart img 0 else m.setRole r
  let m := { m with mode := { m.mode with accepted := false, armed := true, cand := decide (r = 4), mode := modeOfRole r },
                    boot := { m.boot with stage := 7 } }
  let m := ((m.firstDeal.startRecorder img 1).stepTimers img 1 false).turnBuffers img false
  let m := m.startCycle 1 { sealed := false, commit := false, modDrop := false }
  let m := { m with stats := Stats.init }
  let m := { m with ptn := { m.ptn with snapReq := r = 2 || r = 4 } }
  if r = 3 then ((m.sleep .doze).stepTx down)
  else
    let m := ((m.stepStations img 1 false).clearCycle 1).clearSweep img 1
    let m := (((m.readTemp env.temp).noteBus env.busTenMv).stepTx down).setToggles x true
    let m := m.startSlice x false
    if m.evaluates then m.startPhase img else m

/-- A lane that joins a module already armed (R153, R206, R207): it takes the module's state from lane `y`, the command SEQ
among it (R170), raises its generation floor to the armed image's (R157), and starts awaiting a snapshot. -/
def Lane.joinLate (l : Lane) (x : LaneId) (img : Image) (y : Lane) (down : Port → LaneId → Bool) : Lane :=
  let n := y.cyc.num
  let m := (l.restrictBanks img 0).clearBuffers img n
  let m := (m.firstDeal.startRecorder img n).startCycle n { sealed := false, commit := false, modDrop := false }
  let m := { m with
    mode := { y.mode with accepted := false, marks := l.mode.marks }, boot := { m.boot with stage := 7 },
    ptn := { y.ptn with hbHead := [], hbSent := [], track := none, early := [] }, fail := { y.fail with base := none, baseSent := false },
    vote := { Vote.init with service := y.vote.service.put x false, codes := y.vote.codes.put x 3, wins := y.vote.wins },
    bars := y.bars, nv := { (m.raiseFloor img.hdr.gen).nv with epFloor := y.nv.epFloor }, pwr := { m.pwr with admitOps := admitPoints img.hdr } }
  let m := (List.range img.stations.length).foldl
    (fun (k : Lane) p => k.modStn p fun r => { r with seqOut := (y.stn p).seqOut }) m
  (m.stepTx down).setToggles x false

end Sys2Proof.Machine
end

