-- ==== Sys2Proof/Machine/Cycle.lean ====
section
/-!
DEFINITION. CYCLE_BOUNDARY: the boundary of a lane with what it sends there (spec/02_the_cycle.md R26;
spec/01_lanes_and_seats.md R16, R18; spec/08_field_telegrams.md R164; spec/09_agreement_and_vote.md R203, R207, R208;
spec/11_partner_and_failover.md R239 to R242, R250, R251; spec/12_cluster_and_host.md R277).
-/
namespace Sys2Proof.Machine

/-- SEAT_ROT bits 15 to 0 (R121, R251). -/
def Lane.rotWord (l : Lane) : Half :=
  let next : BitVec 4 := match l.rot.dummy with
    | none => 0xF
    | some d => BitVec.ofNat 4 (l.nextDummy d).val
  let dummy : BitVec 4 := match l.rot.dummy with
    | none => 0xF
    | some d => BitVec.ofNat 4 d.val
  next ++ dummy ++ (0 : BitVec 2) ++ BitVec.ofNat 6 l.rot.phase

/-- Bit k: seat Sk is retired (R251). -/
def Lane.retiredBits (l : Lane) : Half :=
  seatList.foldl (fun (w : Half) x => if (l.seat x).code = 5 then w ||| (1#16 <<< x.val) else w) 0

/-- Largest deviation that a lane measured, in ppm; `up` settles the rounding, which the spec leaves open (R251, R335). -/
def Lane.clkDev (l : Lane) (up : Bool) : Int :=
  let a := l.meter.devNext.getD 0
  let b := l.meter.devPrev.getD 0
  let v := if a.natAbs < b.natAbs then b else a
  if v % 10 != 0 && up then v / 10 + 1 else v / 10

/-- HIST of a health record: bit j for cycle CYC − 256 + j (R251). The last result settled at the boundary that opens CYC is
that of CYC − 2, whose digest the heartbeat of CYC − 1 carried. -/
def histWord (h : List (Option Bool)) : BitVec 256 :=
  let r := h.drop (h.length - 255)
  (positions r).foldl
    (fun (w : BitVec 256) p => if p.2 == some true then w ||| (1#256 <<< (255 - r.length + p.1)) else w) 0

/-- The health record of a module, as lane x sends it (R251). -/
def State.healthRecord (s : State) (x : LaneId) (img : Image) (env : BoundaryEnv) (up : Bool) : List Byte :=
  let l := s.lane x
  let per {w : Nat} (f : Lane → BitVec w) : List Byte := [s.la, s.lb, s.lc].flatMap fun m => bytesOf (f m)
  let b := [1, 0x51, img.own, l.ptn.role.setWidth 8] ++ bytesOf l.cyc.num ++
    [if l.ptn.role = 1 && l.ptn.qualified then 1 else 0, l.vote.service.bits.setWidth 8] ++ per Lane.rotWord ++
    per Lane.retiredBits ++ per (fun m => BitVec.ofNat 8 (sat 8 m.bist.mis256.length)) ++ [0] ++
    per (fun m => (satInt 16 (m.clkDev up)).setWidth 16) ++ satBe 2 l.sup.busMin ++ satBe 2 (max l.sup.mainMax l.sup.bkMax) ++
    satIntBe 1 env.boardLow ++ satIntBe 1 env.boardHigh ++ satBe 2 l.fail.snapAge ++
    satBe 2 (l.ptn.hist.filter (· == some false)).length ++ bytesOf (histWord l.ptn.hist)
  b ++ bytesOf (crc32c b)

/-- A module in ROLE 1 to 4 sends its health record every 256 cycles (R251). -/
def State.sendHealth (s : State) (x : LaneId) (img : Image) (env : BoundaryEnv) (up : Bool) : State :=
  let l := s.lane x
  let r := l.ptn.role.toNat
  if 1 ≤ r && r ≤ 4 && l.hasPartner && l.cyc.num.toNat % 256 == 0 && l.txOf .j8 == some x then
    s.emit (.health (s.healthRecord x img env up))
  else s

/-- DOZE_SNAP to a dormant partner every 256 cycles, or when the previous one has left (R250). -/
def State.sendDoze (s : State) (x : LaneId) (img : Image) (busy : Bool) : State :=
  let due := (s.lane x).fail.dozeDue || (s.lane x).cyc.num.toNat % 256 == 0
  let s := s.modLane x fun m => { m with fail := { m.fail with dozeDue := due && busy && m.active && m.ptn.prole == 3 } }
  let l := s.lane x
  if l.active && l.serves x && l.ptn.prole == 3 && due && !busy && l.txOf .j8 == some x then
    let t := s.setLane x (l.captureEcc img)
    match l.captureBase img with
    | none => t
    | some b => t.emit (.dozeSnap b (Config.baseDigest b))
  else s

/-- SNAP_BASE from the partner link transmit lane at the boundary of capture (R239, R242). -/
def State.sendBase (s : State) (x : LaneId) : State :=
  let l := s.lane x
  match l.fail.base with
  | none => s
  | some b => if b.cyc = l.cyc.num && l.txOf .j8 == some x then s.emit (.snapBase b) else s

/-- Two lanes in service hold a base of the same content that has not been closed (R242). -/
def State.basePair (s : State) : Option ((LaneId × LaneId) × SnapBase) :=
  lanePairs.findSome? fun p =>
    match (s.lane p.1).fail.base, (s.lane p.2).fail.base with
    | some b, some c =>
      if (s.lane p.1).serves p.1 && (s.lane p.2).serves p.2 && !(s.lane p.1).fail.baseSent && b.cyc == c.cyc &&
          Config.baseDigest b == Config.baseDigest c then some (p, b) else none
    | _, _ => none

/-- SNAP_END once two lanes agree on the digest, with their tags (R242). -/
def State.endBase (s : State) : State :=
  match s.basePair with
  | none => s
  | some (p, b) =>
    let d := Config.baseDigest b
    match (s.lane p.1).boot.img with
    | none => s
    | some img =>
      match (s.lane p.1).partnerTag p.1 img (bytesOf d), (s.lane p.2).partnerTag p.2 img (bytesOf d),
          (s.lane p.1).inUse 0x48 img.params.areaId with
      | some t, some u, some g =>
        ((if (s.txLane .j8).isSome then s.emit (.snapEnd { digest := d, pair := (pairOf p.1 p.2).byte, gen := g, tag1 := t, tag2 := u }) else s)).mapLanes fun _ m =>
          if (m.fail.base.map (·.cyc)) = some b.cyc then { m with fail := { m.fail with baseSent := true } } else m
      | _, _, _ => s

/-- A source accepts requests at its boundary: it captures a base and sends it with its digest (R207, R208). -/
def State.serveSnapshots (s : State) (x : LaneId) (img : Image) : State :=
  let l := s.lane x
  let keep := LaneSet.those fun y => l.serves x && l.re.serving.has y && (l.codeOf y == 3 || l.codeOf y == 4)
  if !l.serves x || l.re.asked.count = 0 then
    s.setLane x { l with re := { l.re with serving := keep, asked := noLanes } }
  else
    let l := l.captureEcc img
    match l.captureBase img with
    | none => s.setLane x { l with re := { l.re with serving := keep } }
    | some b =>
      let t := s.setLane x { l with re := { l.re with serving := keep.union l.re.asked, asked := noLanes } }
      (laneList.filter l.re.asked.has).foldl
        (fun t y => (t.xsend x y (.snap (.base b))).xsend x y (.snap (.digest (Config.baseDigest b)))) t

/-- Lane status frames of cycle n that arrived before the own boundary (R40; log entry 24). -/
def State.takeEarly (s : State) (x : LaneId) (img : Image) : State :=
  [x.next, x.prev].foldl
    (fun t y =>
      let l := t.lane x
      match l.vote.early.get y with
      | none => t
      | some f =>
        let l := { l with vote := { l.vote with early := l.vote.early.put y none } }
        if f.cyc = l.cyc.num then
          t.setLane x (((l.takeStatus y (t.latency x y f.relayed) f).noteSkews x).alignStep x img.hdr.tCycle)
        else t.setLane x l) s

/-- The BOUNDARY frame to the FCU (R220, R222). -/
def State.sendFcu (s : State) (x : LaneId) : State :=
  let l := s.lane x
  let q := l.lio.seqB + 1
  (s.setLane x { l with lio := { l.lio with seqB := q } }).emit
    (.boundary x q l.cyc.num (!l.serves x) l.active l.lio.toggle)

/-- A gratuitous ARP on each network at the first boundary after the module becomes ACTIVE (R164). -/
def State.sendArp (s : State) (x : LaneId) (img : Image) (was : Bool) : State :=
  let l := s.lane x
  let u := l.useTables img [(netTable, 0)]
  if was || !l.active then s
  else if !u.2 then s.setLane x u.1
  else
    let s := if l.txOf .j4 == some x then s.emit (.gratuitousArp .a img.netA.modIp) else s
    if l.txOf .j5 == some x then s.emit (.gratuitousArp .b img.netB.modIp) else s

/-- Events that the boundary of a lane raises (R277), and the mode that STS_MODE shows from it (R387); `l` is the lane
before it. -/
def State.tellChanges (s : State) (x : LaneId) (img : Image) (l : Lane) : State :=
  let m := s.lane x
  let evs : List (Nat × Bool) :=
    [(0, l.ptn.role != m.ptn.role), (1, l.vote.codes != m.vote.codes), (2, l.mode.shown != m.mode.mode),
     (5, l.admissionMoved m img), (6, l.nbMoved m), (7, l.fail.hoCode != m.fail.hoCode),
     (8, l.mode.mode != 5 && m.mode.mode == 5)]
  (evs.filter (·.2)).foldl (fun t e => t.notify x e.1) (s.setLane x { m with mode := { m.mode with shown := m.mode.mode } })

/-- Voltages of the inputs at a boundary (R339, R354). -/
def State.supplyAt (s : State) (x : LaneId) (env : BoundaryEnv) : State :=
  let p := (s.sup.see .main env.mainV).see .backup env.backupV
  let t := ({ s with sup := p } : State).settleSource
  t.modLane x fun m =>
    let m := if p.mainP then m.noteInput .main env.mainV else m
    if p.bkP then m.noteInput .backup env.backupV else m

/-- What a lane sends at a boundary that opens a cycle of the logic, apart from the dispatch. -/
def State.afterBoundary (s : State) (x : LaneId) (img : Image) (env : BoundaryEnv) (was up : Bool) : State :=
  let s := (s.settleSecurity x).takeEarly x img
  let s := (s.requestSnapshot x).serveSnapshots x img
  let s := (s.xcast x (.status (s.statusOf x))).sendFcu x
  let s := ((s.formHeartbeat x).sendHealth x img env up).sendDoze x img env.dozeBusy
  ((s.sendBase x).endBase).sendArp x img was

/-- Boundary of a lane whose module runs the logic (R26). The lane that enters SAFE-HALT there tells the FCU that it is
not ACTIVE (R39, R220, R222). -/
def State.runBoundary (s : State) (x : LaneId) (img : Image) (env : BoundaryEnv) : State :=
  let s := (s.closeLinks x env.discNext env.discPrev).isolateAt x
  let o := s.openVals
  let l := s.lane x
  let l := { l with ptn := { l.ptn with track := s.settleResult x } }
  let m := l.boundary x img env o.1 s.sup.warnNow s.portDown
  let go := m.mode.mode != 5 && m.live && m.mode.armed
  let sends := go && l.sendPair.isSome && (m.txOf .j4 == some x || m.txOf .j5 == some x)
  let m := if sends then (m.useTables img [(netTable, 0)]).1 else m
  let m := if go then m.openDispatch (l.dueOn x img .a (m.txOf .j4)) (l.dueOn x img .b (m.txOf .j5)) env else m
  let t := (o.2.setLane x { m with sent := [(.a, l.sealedFor x img (m.txOf .j4)), (.b, l.sealedFor x img (m.txOf .j5))] })
  let t := if m.mode.mode == 5 then (if m.live then t.sendFcu x else t)
    else if !m.live || !m.mode.armed then t
    else
      let held := (if m.txOf .j4 == some x then (l.withholds x img).length else 0) +
        (if m.txOf .j5 == some x then (l.withholds x img).length else 0)
      let t := if l.cyc.sealed && !l.cyc.notice && l.sealsNow then
        t.modLane x fun k => k.statB fun b => { b with withheld := held } else t
      ((t.dispatch x img l m.txOf env).afterBoundary x img env l.active o.1.round)
  (t.tellChanges x img l).setLamps x

/-- Boundary of a dormant lane: heartbeat and health record (R237, R251). -/
def State.dormantBoundary (s : State) (x : LaneId) (img : Image) (env : BoundaryEnv) : State :=
  let s := (s.closeLinks x env.discNext env.discPrev).isolateAt x
  let o := s.openVals
  let l := s.lane x
  let t := o.2.setLane x (l.dormantBoundary x img env o.1 s.portDown)
  let t := if (t.lane x).mode.mode == 5 || !(t.lane x).live then t
    else ((t.settleSecurity x).formHeartbeat x).sendHealth x img env o.1.round
  (t.tellChanges x img l).setLamps x

/-- First boundary after arming (R155, R26): event 4 tells the arming outcome when the arming is settled. -/
def State.armedBoundary (s : State) (x : LaneId) (img : Image) (env : BoundaryEnv) : State :=
  let l := s.lane x
  let t := s.setLane x (l.firstBoundary x img env s.portDown)
  let t := if (t.lane x).ptn.role == 3 then (t.settleSecurity x).formHeartbeat x
    else t.afterBoundary x img env false false
  (t.tellChanges x img l).setLamps x

/-- A lane in service of an armed module whose logic runs, for a lane that joins late (R153). -/
def State.armedPeer (s : State) (x : LaneId) : Option LaneId :=
  laneList.find? fun y => y != x && (s.lane y).mode.armed && logicRuns (s.lane y).mode.mode && (s.lane y).serves y

/-- A late lane joins the armed module (R153, R207). -/
def State.lateBoundary (s : State) (x : LaneId) (img : Image) (env : BoundaryEnv) : State :=
  match s.armedPeer x with
  | none => s
  | some y =>
    let l := s.lane x
    let t := s.setLane x (l.joinLate x img (s.lane y) s.portDown)
    (((t.requestSnapshot x).xcast x (.status (t.statusOf x))).sendFcu x |>.supplyAt x env).setLamps x

/-- CYCLE_BOUNDARY (R26): the boundary of an armed lane, the first one after arming, or the one at which a late lane
joins. A lane that is asleep in SERVICE or CANDIDATE, in START or in SAFE-HALT has none. A dormant lane that a wake has woken
leaves its role there (R238, R250). -/
def execCycleBoundary (l : LaneId) (env : BoundaryEnv) (s : State) : Answer :=
  let s := s.begin
  let m := s.lane l
  match m.boot.img with
  | none => .next s
  | some img =>
    if m.boot.inReset then .next s
    else if m.mode.armed then
      if logicRuns m.mode.mode && m.ptn.role != 3 && m.pwr.mode.ult 2 then .next ((s.supplyAt l env).runBoundary l img env)
      else if m.mode.mode == 3 && m.ptn.role == 3 && m.pwr.wakeDue && m.pwr.mode.ult 2 then
        .next (((((s.modLane l Lane.leaveDormant).notify l 0).notify l 2).supplyAt l env).runBoundary l img env)
      else if m.mode.mode == 3 && m.ptn.role == 3 then .next ((s.supplyAt l env).dormantBoundary l img env)
      else if m.mode.mode == 3 then .next ((s.supplyAt l env).runBoundary l img env)
      else .next s
    else if m.mode.accepted && m.live then .next ((s.supplyAt l env).armedBoundary l img env)
    else if m.boot.late && m.live && !m.boot.stopped then .next (s.lateBoundary l img env)
    else .next s

end Sys2Proof.Machine
end

