-- ==== Sys2Proof/Machine/Host.lean ====
section
/-!
DEFINITION. What a lane settles of host commands at its freeze (spec/12_cluster_and_host.md R279 to R283;
spec/13_modes_and_forcing.md R288 to R297): posts for the next cycle, force commands, module-scope commands.
-/
namespace Sys2Proof.Machine

/-- Outcome of a command: its status and the home rule's code (R280, R277). -/
structure Verdict where
  status : Byte
  code   : Option Byte
  deriving DecidableEq, Repr

/-- Accepted. -/
def Verdict.ok : Verdict := { status := 0, code := none }

/-- Refused by the home rule (R280, 0x0D). -/
def Verdict.home (c : Byte) : Verdict := { status := 0x0D, code := some c }

/-- Refused with a status. -/
def Verdict.no (s : Byte) : Verdict := { status := s, code := none }

/-- Body of a response that carries a verdict (R277). -/
def Verdict.body (v : Verdict) : List Byte :=
  match v.code with
  | none => []
  | some c => [c]

/-- A lane answers; the response leaves as the session's response lane settles it (R279, R381). -/
def State.answer (s : State) (x : LaneId) (sess : Nat) (req : Word) (obj : Byte) (v : Verdict) : State :=
  match s.session sess with
  | none => s
  | some k => if s.respLane k == some x then s.reply sess req obj v.status v.body else s

/-- The lane is in START at stage 5, waiting unarmed (R154, R297). -/
def Lane.atStage5 (l : Lane) : Bool := l.live && !l.mode.armed && !l.boot.stopped && l.boot.stage == 5

/-- The lane runs the logic. -/
def Lane.runsLogic (l : Lane) : Bool := l.live && l.mode.armed && logicRuns l.mode.mode

/-- The window of a FIELD-OUT node has a VALUE that fits it, and its width is at most 16 (R294). -/
def outputFits (img : Image) (e : NodeEntry) (v : Half) : Bool :=
  match windowOf img e with
  | none => false
  | some w => w.len ≤ 16 && v.toNat < 2 ^ w.len

/-- The node's kind takes forces: an input or an output kind (R293, R294). -/
def forcible (e : NodeEntry) : Bool := isInputKind e.kind || isOutputKind e.kind

/-- VALUE breaks the domain of the node, or a permissive output force the width rule (R295 code 0x03). -/
def forceOutside (img : Image) (node : Nat) (e : NodeEntry) (v : Half) : Bool :=
  !inDomain e.kind v || !forcible e ||
    (isOutputKind e.kind && !forceRestrictive img node v && e.kind == 6 && !outputFits img e v)

/-- Entries that count toward the limit (R290). -/
def Forces.has (f : Forces) (node : Nat) : Bool := f.table.any fun e => e.node == node

/-- The code with which a set or replace is refused (R295). -/
def Lane.setCode (l : Lane) (img : Image) (node : Nat) (v : Half) : Option Byte :=
  match img.policy.find? fun r => r.node.toNat == node, img.nodes[node]? with
  | some r, some e =>
    let restr := forceRestrictive img node v
    if forceOutside img node e v then some 3
    else if restr && !r.perm.getLsbD 0 then some 4
    else if !restr && !r.perm.getLsbD 1 then some 5
    else if !restr && l.mode.mode != 4 then some 6
    else if !l.force.has node && 256 ≤ l.force.table.length then some 7 else none
  | _, _ => some 2

/-- The code with which a force command is refused (R291, R295). -/
def Lane.forceCode (l : Lane) (img : Image) (action : Byte) (node : Nat) (v : Half) : Option Byte :=
  if action = 1 then (if 2 ^ 20 ≤ node then some 1 else l.setCode img node v)
  else if action = 2 then
    (if v != 0 || 2 ^ 20 ≤ node then some 1
     else if (img.policy.find? fun r => r.node.toNat == node).isNone then some 2
     else if !l.force.has node then some 8 else none)
  else if action = 3 then (if v != 0 || node != 0 then some 1 else none)
  else some 1

/-- Entries in node order (R290). -/
def insertForce (t : List Force) (f : Force) : List Force :=
  (t.filter fun e => e.node < f.node) ++ [f] ++ (t.filter fun e => f.node < e.node)

/-- A force accepted for cycle m (R290, R291). -/
def Lane.setForce (l : Lane) (img : Image) (node : Nat) (v : Half) (m : Cycle) : Lane :=
  let p := !forceRestrictive img node v
  let out := ((img.nodes[node]?).map fun e => isOutputKind e.kind).getD false
  let f : Force := match l.force.table.find? fun e => e.node == node with
    | some e => { e with next := some (v, p, m) }
    | none => { node := node, value := v, out := out, perm := p, start := m, remove := none, next := none }
  { l with force := { l.force with table := insertForce l.force.table f } }

/-- An entry due for removal at cycle m; a replacement accepted for a cycle up to m goes with it (R291). -/
def Force.due (f : Force) (m : Cycle) : Force :=
  { f with remove := some m, next := f.next.filter fun k => m.toNat < k.2.2.toNat }

/-- The effect of an accepted force command for cycle m (R291). -/
def Lane.applyForce (l : Lane) (img : Image) (action : Byte) (node : Nat) (v : Half) (m : Cycle) : Lane :=
  if action = 1 then l.setForce img node v m
  else { l with force := { l.force with table := l.force.table.map fun f =>
    if action = 3 || f.node == node then f.due m else f } }

/-- A force command settles in a lane (R291, R295); a refusal is kept for FRC_LAST (R300). -/
def Lane.settleForce (l : Lane) (img : Image) (action : Byte) (node : Nat) (v : Half) (m : Cycle) : Lane × Verdict :=
  match l.forceCode img action node v with
  | none => (l.applyForce img action node v m, Verdict.ok)
  | some c => ({ l with force := { l.force with lastCode := c, lastNode := node % 2 ^ 20 } }, Verdict.home c)

/-- Two posts for one cycle conflict: one slot named twice, one node forced twice, a set beside a remove-all (R279,
R299). -/
def PostKind.clashes : PostKind → PostKind → Bool
  | .pulse k _, .pulse j _ => k == j
  | .force a n _, .force b m _ => a == 3 || b == 3 || n == m
  | _, _ => false

/-- A post that some other post of its cycle conflicts with. -/
def conflicts (ps : List Post) (k : Nat) (p : Post) : Bool := (positions ps).any fun q => q.1 != k && q.2.kind.clashes p.kind

/-- OBJ of a post's response: CMD_POST, or CRIT_CONFIRM (R277). -/
def Post.obj (p : Post) : Byte := if p.op = 0 then 3 else 5

/-- The most recent confirm settled (R286). -/
def HostSt.noteConfirm (h : HostSt) (op : Byte) (ws : Word) (v : Verdict) : HostSt :=
  { h with lastOp := op, lastSt := v.status, lastWs := ws.setWidth 16,
           confirmed := h.confirmed + (v.status == 0).toNat, late := h.late + (v.status == 5 || v.status == 6).toNat,
           conflict := h.conflict + (v.status == 7).toNat }

/-- Counts of an ordinary post's outcome (R286). -/
def HostSt.notePost (h : HostSt) (v : Verdict) : HostSt :=
  { h with late := h.late + (v.status == 5 || v.status == 6).toNat, conflict := h.conflict + (v.status == 7).toNat }

/-- Counts of a post's outcome. -/
def HostSt.note (h : HostSt) (p : Post) (v : Verdict) : HostSt :=
  if p.op = 0 then h.notePost v else h.noteConfirm p.op p.wsId v

/-- The effect of a post that conflicts with none, in the lane (R279, R291). -/
def Lane.settlePost (l : Lane) (img : Image) (p : Post) : Lane × Verdict :=
  match p.kind with
  | .pulse k v => ({ l with host := { l.host with pulses := l.host.pulses ++ [(p.cyc, k, v)] } }, Verdict.ok)
  | .force a n v => l.settleForce img a n v p.cyc

/-- Posts for cycle m = n + 1 settle at the freeze of n (R279), in the order of receipt. -/
def State.settlePosts (s : State) (x : LaneId) (img : Image) : State :=
  let m := (s.lane x).cyc.num + 1
  let due := (s.lane x).host.posts.filter fun p => p.cyc == m
  let s := s.modLane x fun l => { l with host := { l.host with posts := l.host.posts.filter fun p => p.cyc != m } }
  (positions due).foldl
    (fun t q =>
      let l := t.lane x
      let r := if conflicts due q.1 q.2 then (l, Verdict.no 7) else l.settlePost img q.2
      let t := t.setLane x { r.1 with host := r.1.host.note q.2 r.2 }
      let t := match q.2.kind with
        | .force _ _ _ => t.notify x 3
        | .pulse _ _ => t
      t.answer x q.2.sess q.2.req q.2.obj r.2) s

/-- A permissive entry, active or accepted for a later cycle, or a permissive force that will be accepted at this freeze, in
the mode that stands (R295, R299). -/
def Lane.permissive (l : Lane) (img : Image) : Bool :=
  (l.force.table.any fun f => f.perm || (f.next.map (·.2.1)).getD false) ||
    (let due := l.host.posts.filter fun p => p.cyc == l.cyc.num + 1
     (positions due).any fun q =>
      match q.2.kind with
      | .force 1 n v => !forceRestrictive img n v && !conflicts due q.1 q.2 && (l.forceCode img 1 n v).isNone
      | _ => false)

/-- The code with which a mode change is refused (R288, R295). -/
def Lane.modeCode (l : Lane) (img : Image) (target : Byte) : Option Byte :=
  let m := l.mode.mode
  if target = 0 then (if m = 0 then some 0x11 else none)
  else if m = 1 && target = 3 then (if l.ptn.role = 1 || l.ptn.role = 2 then none else some 0x11)
  else if m = 3 && target = 1 then none
  else if m = 1 && target = 4 then none
  else if m = 4 && target = 1 then (if l.permissive img then some 0x12 else none)
  else some 0x11

/-- A lane that restarts START from the key read (R289): it waits for its key reads at stage 1, and its force table is empty
(R297). -/
def Lane.toStart (l : Lane) : Lane :=
  let m := (l.setRole 5).recordFlag 2
  { m with mode := ModeState.init, cyc := CycState.init, boot := { m.boot with stage := 1 },
           lio := { m.lio with toggle := 0 }, force := { m.force with table := [] } }

/-- A mode change takes effect in a lane (R288, R289); one that leaves DORMANT orders the wake (R250). A change to START raises
events 2 and 0 (R277). -/
def State.changeMode (s : State) (x : LaneId) (target : Byte) (atOnce : Bool) : State :=
  if target = 0 then
    { (((s.notify x 2).notify x 0).modLane x fun l => l.toStart).fcuToStart with keyWait := true, tunRetx := 0 }
  else
    let l := s.lane x
    if l.mode.mode = 3 then s.setLane x { l with pwr := { l.pwr with wakeDue := true } }
    else
      let k := target.setWidth 3
      s.setLane x (({ l with mode := { l.mode with mode := k, shown := if atOnce then k else l.mode.shown } } : Lane).recordFlag 2)

/-- LANES state codes of a partner's heartbeat, lanes in service (R213, R240). -/
def lanesOf (h : Half) : Nat :=
  [h.extractLsb' 0 4, h.extractLsb' 4 4, h.extractLsb' 8 4].countP fun c => c == (1 : BitVec 4)

/-- The code with which the active refuses HANDOVER (R257, R258), the lowest first. `mirrored` and `enough` settle what
the active cannot see: whether an acknowledging candidate mirrors every force, and the candidate's MIN_LANES where two
of its lanes are in service. -/
def Lane.handoverCode (l : Lane) (carry mirrored enough : Bool) : Option Byte :=
  let n := l.cyc.num
  let forced := l.forced n
  let shows := (l.ptn.last.map fun h => h.flags.getLsbD 3).getD false
  let lanes := (l.ptn.last.map fun h => lanesOf h.lanes).getD 0
  if l.ptn.prole != 4 || l.ptn.last.isNone then some 1
  else if l.ptn.bmatch < 256 then some 2
  else if forced && !carry then some 4
  else if forced && carry && !(shows && mirrored) then some 5
  else if lanes < 2 || (lanes = 2 && !enough) then some 6
  else if !(l.ptn.path1 && l.ptn.path2) then some 7
  else if l.fail.ho != .idle || (match l.fail.tookAt with
      | none => false
      | some t => n.toNat ≤ t.toNat + 256) then some 8
  else none

/-- A handover confirmed in cycle h is announced at h + 1 for h + 2 (R256). -/
def Lane.announce (l : Lane) (carry : Bool) : Lane :=
  { l with fail := { l.fail with ho := .announced (l.cyc.num + 2) false, hoCarry := carry, hoUse := carry, hoCode := 0 } }

/-- The last refusal of the security rules (R319, R323). -/
def Lane.noteSec (l : Lane) (code sub : Byte) : Lane := { l with sec := { l.sec with lastCode := code, lastSub := sub } }

/-- The code with which a re-key is refused (R315, R319). -/
def Lane.rekeyCode (l : Lane) (img : Image) (p : Nat) : Option Byte :=
  if img.stations.length ≤ p then some 0x31
  else match l.gen p with
    | none => some 0x33
    | some g => if g.pend.isSome || g.cur = 0xFFFFFFFF#32 then some 0x32 else none

/-- A re-key sets the pending generation to current + 1 (R172). -/
def Lane.rekey (l : Lane) (p : Nat) : Lane :=
  match l.gen p with
  | none => l
  | some g => { l with nv := { l.nv with gens := Mem.set none l.nv.gens p (some { g with pend := some (g.cur + 1) }) } }

/-- A module-scope command takes effect at the freeze of a cycle (R282 step 3), with its home rule as it stands then. -/
def State.applyModule (s : State) (x : LaneId) (img : Image) (c : ModCmd) : State × Verdict :=
  let l := s.lane x
  if c.op = 7 then
    match l.modeCode img (byteAt c.params 0) with
    | some k => (s.modLane x fun m => { m with force := { m.force with lastCode := k, lastNode := 0 } }, Verdict.home k)
    | none => (s.changeMode x (byteAt c.params 0) false, Verdict.ok)
  else if c.op = 5 then
    let a := s.fresh 1
    let b := a.2.fresh 1
    let carry := byteAt c.params 0 = 1
    match l.handoverCode carry (a.1 = 1) (b.1 = 1) with
    | some k => (b.2.setLane x { l with fail := { l.fail with hoCode := k, hoCarry := carry } }, Verdict.home k)
    | none => (b.2.setLane x (l.announce carry), Verdict.ok)
  else if c.op = 6 then
    let p := beAt c.params 0 2
    match l.rekeyCode img p with
    | some k => (s.setLane x (l.noteSec k 0), Verdict.home k)
    | none => (s.setLane x (l.rekey p), Verdict.ok)
  else (s, Verdict.home 0x91)

/-- A module-scope command settles in a lane and is answered. -/
def State.settleModule (s : State) (x : LaneId) (img : Image) (c : ModCmd) : State :=
  let r := s.applyModule x img c
  let t := r.1.modLane x fun l => { l with host := l.host.noteConfirm c.op c.wsId r.2 }
  (if c.op = 5 && r.2.status == 0x0D then t.notify x 7 else t).answer x c.sess c.req 5 r.2

/-- Module-scope commands verified before the freeze settle first (R288, R291, R299). -/
def State.settleModules (s : State) (x : LaneId) (img : Image) : State :=
  let cs := (s.lane x).host.modCmds
  let s := s.modLane x fun l => { l with host := { l.host with modCmds := [] } }
  cs.foldl (fun t c => t.settleModule x img c) s

end Sys2Proof.Machine
end

