-- ==== Sys2Proof/Machine/RegsA.lean ====
section
/-!
DEFINITION. Values of the ID_, STS_, ARM_, CYC_, SEAT_, BIST_ and CVU_ registers (spec/19_register_space.md R386, R387;
spec/07_data_key.md R161; spec/02_the_cycle.md R42 to R45; spec/09_agreement_and_vote.md R213;
spec/05_seats_at_work.md R121; spec/17_self_test.md R366; spec/03_coded_state.md R68; spec/04_node_programs.md R101;
spec/06_check_value_units.md R130), each at its byte address.
-/
namespace Sys2Proof.Machine

/-- What a read sees: the module, the lane read, the selectors and latches of the session there (R43, R383). -/
structure View where
  s       : State
  x       : LaneId
  sels    : Sels
  latches : Mem Word

/-- The lane read. -/
def View.l (v : View) : Lane := v.s.lane v.x

/-- A saturated field of `w` bits at bit `lo` (R45). -/
def fld (w lo v : Nat) : Word := satW w v <<< lo

/-- A bit field at bit `lo`. -/
def bits {w : Nat} (lo : Nat) (v : BitVec w) : Word := v.setWidth 32 <<< lo

/-- A flag at bit `lo`. -/
def onBit (lo : Nat) (b : Bool) : Word := bit b <<< lo

/-- A signed field of `w` bits at bit `lo`. -/
def sfld (w lo : Nat) (v : Int) : Word := satInt w v <<< lo

/-- Registers that hold consecutive bytes, byte 4j of a run in bits 31 to 24 of register j. -/
def byteRegs (base n : Nat) (b : List Byte) : List (Nat × Word) :=
  (List.range n).map fun j => (base + 4 * j, BitVec.ofNat 32 (beAt b (4 * j) 4))

/-- The value that a _HI register shows: what the session's last read of its _LO register latched (R43, R383). -/
def View.hi (v : View) (addr : Nat) : Nat × Word := (addr, Mem.get 0 v.latches addr)

/-- Identity registers (R386). -/
def View.idRegs (v : View) : List (Nat × Word) :=
  [(0x00, 0x33644300), (0x04, 0x00000302), (0x08, bits 0 v.x.byte), (0x0C, v.l.boot.areaId)]

/-- ARM_CTRL.EN: the module has had its first armed boundary (R161). -/
def Lane.en (l : Lane) : Bool := l.mode.armed

/-- STS_MODE (R387). -/
def View.stsMode (v : View) : Word :=
  bits 16 v.l.mode.shown ||| bits 12 v.l.ptn.role ||| bits 8 v.l.boot.stage ||| onBit 1 (v.l.boot.hold != 0) |||
    onBit 0 v.l.en

/-- STS_LAMPS (R387): as read back at the last boundary, or at the time of the read in START and SAFE-HALT. -/
def View.stsLamps (v : View) : Word :=
  bits 0 (if !v.l.mode.armed || v.l.mode.mode == 5 then (v.s.setLamps v.x).lamps else v.s.lamps)

/-- STS_XL (R387). -/
def View.stsXl (v : View) : Word :=
  fld 8 24 v.l.xlDisc.1 ||| fld 8 16 v.l.xlDisc.2 ||| onBit 5 (v.s.isolated v.x) ||| onBit 4 (v.s.relays v.x) |||
    onBit 2 (!v.s.linkUp v.x v.x.next) ||| onBit 0 (!v.s.linkUp v.x v.x.prev)

/-- Status registers (R387). -/
def View.stsRegs (v : View) : List (Nat × Word) :=
  [(0x40, v.stsMode), (0x44, v.stsLamps), (0x48, v.stsXl), (0x4C, bits 0 v.l.codes.stsFault)]

/-- ARM_STATUS (R161). -/
def View.armStatus (v : View) : Word :=
  let b := v.l.boot
  bits 9 b.set.bits ||| onBit 8 v.l.mode.cand ||| bits 4 b.stage ||| fld 2 2 b.tries ||| onBit 1 b.stopped |||
    onBit 0 v.l.en

/-- ARM_REASON (R151, R156, R161). -/
def View.armReason (v : View) : Word := fld 20 12 v.l.boot.index ||| bits 0 v.l.boot.code

/-- Arming registers (R161). A value of the secure store reads 0 until it is taken (R384). -/
def View.armRegs (v : View) : List (Nat × Word) :=
  let b := v.l.boot
  let d := bytesOf (b.digest.getD 0)
  [(0x400, onBit 0 v.l.en), (0x404, v.armStatus), (0x408, v.armReason), (0x40C, b.gen)] ++ byteRegs 0x410 2 d ++
    [(0x418, fld 8 24 b.presEvt ||| bits 16 b.keyLane ||| onBit 6 b.present ||| bits 0 b.keySlot),
     (0x41C, if v.l.sec.loaded then v.l.nv.genFloor else 0)]

/-- CYC_CFG and CYC_DL0 to CYC_DL2 (R42): 0 until the image is loaded. -/
def View.cfgRegs (v : View) : List (Nat × Word) :=
  match v.l.boot.img with
  | none => [(0x800, 0), (0x804, 0), (0x808, 0), (0x80C, 0)]
  | some img =>
    let d := img.hdr
    [(0x800, fld 10 16 d.tFreeze ||| fld 10 0 d.tCycle), (0x804, fld 16 16 (dCorr d) ||| fld 16 0 (dAgree d)),
     (0x808, fld 16 16 (dSeal d) ||| fld 16 0 (dVote d)), (0x80C, fld 16 16 (wCorr d) ||| fld 16 0 (dCheck d))]

/-- CYC_STATUS (R43). -/
def View.cycStatus (v : View) : Word :=
  let c := v.l.cyc
  bits 16 c.phase ||| fld 2 8 c.dropRun ||| onBit 2 v.l.align.skewWarn ||| onBit 1 c.lastLane ||| onBit 0 c.lastMod

/-- CYC_DROP_CAUSE (R44). -/
def View.dropCause (v : View) : Word :=
  let a := v.l.align
  bits 16 a.dcCyc ||| bits 12 a.dcPhase ||| bits 8 a.dcCause ||| onBit 0 a.dcHeld

/-- Cycle number and drop registers (R43, R44). -/
def View.numRegs (v : View) : List (Nat × Word) :=
  [(0x810, v.l.cyc.num.setWidth 32), v.hi 0x814, (0x818, v.cycStatus), (0x81C, fld 32 0 v.l.cyc.dropCnt),
   (0x820, v.dropCause)]

/-- Statistics of the cycle in CYC_ST_SEQ (R45). -/
def View.statRegs (v : View) : List (Nat × Word) :=
  let a := v.l.stats.lastA
  [(0x830, v.l.stats.seq), (0x834, fld 16 16 a.sweep ||| fld 16 0 a.used), (0x838, fld 11 21 a.corrTime ||| fld 21 0 a.dirty),
   (0x83C, fld 16 16 a.hit ||| fld 16 0 a.miss), (0x840, fld 16 16 a.agreed ||| fld 16 0 a.fetched),
   (0x844, match a.slack with
     | none => 0
     | some (k, p) => bits 16 p ||| fld 16 0 k),
   (0x848, sfld 16 16 a.skewNext ||| sfld 16 0 a.skewPrev),
   (0x84C, fld 14 18 a.dispEnd ||| fld 10 8 a.dispStart ||| fld 8 0 a.discard)]

/-- Outvotes of a lane in the 16 cycles that end at the last boundary (R202, R213). -/
def Lane.window16 (l : Lane) (y : LaneId) : Nat :=
  ((l.vote.wins.get y).filter fun k => k < l.cyc.num.toNat && l.cyc.num.toNat ≤ k + 16).length

/-- CYC_VOTE and CYC_AGR (R213). -/
def View.voteRegs (v : View) : List (Nat × Word) :=
  let b := v.l.stats.lastB
  [(0x864, bits 9 b.agree.bits ||| bits 6 b.nodig.bits ||| bits 3 b.outvoted.bits ||| bits 0 b.outcome),
   (0x868, fld 16 16 v.l.vote.total ||| fld 5 10 (v.l.window16 .c) ||| fld 5 5 (v.l.window16 .b) |||
     fld 5 0 (v.l.window16 .a)),
   (0x86C, fld 16 16 b.short ||| fld 8 8 b.fetchBad ||| bits 0 b.heard.bits)]

/-- CYC_REENTRY.SOURCE: 3 none (R213). -/
def sourceCode : Option LaneId → BitVec 2
  | none => 3
  | some y => BitVec.ofNat 2 y.num

/-- Minutes run untested, rounded down; T_cycle is in units of 0.1 ms (R210, R213). -/
def Lane.untestedMinutes (l : Lane) : Nat :=
  match l.boot.img with
  | none => 0
  | some img => l.re.untested * img.hdr.tCycle / 600000

/-- CYC_LANES, CYC_REENTRY and CYC_UNTESTED (R213). -/
def View.laneRegs (v : View) : List (Nat × Word) :=
  let r := v.l.re
  [(0x860, if v.l.boot.stage = 0 then 0 else bits 0 v.l.cycLanes),
   (0x870, fld 4 28 r.periodCnt ||| fld 8 20 r.total ||| bits 16 (sourceCode r.source) ||| fld 9 0 (min 256 r.matched)),
   (0x874, fld 13 8 v.l.untestedMinutes ||| fld 4 4 v.l.retired)]

/-- A seat has been dealt since START (R121). -/
def Lane.dealt (l : Lane) : Bool := l.mode.armed || l.mode.mode == 5

/-- SEAT_STATE (R121). -/
def Lane.seatStates (l : Lane) : Word := seatList.foldl (fun w x => w ||| bits (3 * x.val) (l.seat x).code) 0

/-- Hand of a seat as SEAT_DEAL codes it (R121). -/
def SeatState.handCode (t : SeatState) : Nat :=
  match t.hand with
  | some h => h.val
  | none => 15

/-- SEAT_DEAL: hands of S0 to S7 (R121). -/
def Lane.seatDeal (l : Lane) : Word :=
  (seatList.take 8).foldl (fun w x => w ||| fld 4 (4 * x.val) (l.seat x).handCode) 0

/-- SEAT_STATE, SEAT_DEAL, SEAT_DEAL_HI, SEAT_ROT and SEAT_SETTLE (R121); all 0 until the first cycle after START. -/
def View.seatRegs (v : View) : List (Nat × Word) :=
  let l := v.l
  if !l.dealt then [(0xC00, 0), (0xC04, 0), (0xC08, 0), (0xC0C, 0), (0xC10, 0)]
  else
    [(0xC00, l.seatStates), (0xC04, l.seatDeal), (0xC08, fld 4 0 (l.seat 8).handCode),
     (0xC0C, fld 16 16 l.rot.rotations ||| bits 0 l.rotWord),
     (0xC10, fld 8 24 l.rot.failCnt ||| fld 4 20 l.rot.failSeat ||| fld 20 0 l.rot.failIdx)]

/-- SEAT_FAULT, SEAT_WAIT and SEAT_CONE (R121). -/
def View.seatStatRegs (v : View) : List (Nat × Word) :=
  let c := v.l.codes
  let a := v.l.stats.lastA
  [(0xC14, bits 28 c.sfCause ||| fld 4 24 c.sfSeat ||| fld 8 16 c.sfCnt ||| onBit 0 (c.sfCause != 0)),
   (0xC18, fld 16 16 (a.p5Wait / 64) ||| fld 16 0 (a.p1Wait / 64)), (0xC1C, fld 11 21 a.walk ||| fld 21 0 a.succ)]

/-- BIST_ registers (R366). -/
def View.bistRegs (v : View) : List (Nat × Word) :=
  let b := v.l.bist
  [(0xC40, fld 8 24 b.mismatch ||| fld 8 16 b.incompl ||| fld 4 12 b.seat ||| fld 6 6 b.slice),
   (0xC44, fld 16 16 b.longest ||| fld 16 0 b.last),
   (0xC48, fld 8 24 b.supMis ||| fld 8 16 b.supAband ||| fld 8 8 b.supPass ||| fld 6 0 b.supNext),
   (0xC4C, bits 8 b.done ||| bits 0 b.failed), (0xC50, fld 16 16 b.scrPass ||| bits 0 b.scrProg),
   (0xC54, fld 16 16 b.cuRuns ||| fld 16 0 b.cuFails)]

/-- SEAT_CODE_, SEAT_ECC_CNT and SEAT_BCN_DELTA (R68). -/
def View.codeRegs (v : View) : List (Nat × Word) :=
  let c := v.l.codes
  let n := v.l.cyc.num.toNat
  [(0xFC0, onBit 2 v.l.boot.kchk ||| bits 0 v.l.slot), (0xFC4, fld 16 16 c.cuFail ||| fld 16 0 c.seatFail),
   (0xFC8, bits 28 c.site ||| fld 20 0 c.siteIdx), (0xFCC, fld 16 16 c.corr ||| fld 16 0 c.uncorr),
   (0xFD0, fld 16 16 (n - v.l.store.bcnCur.toNat) ||| fld 16 0 (n - v.l.store.bcnPrev.toNat))]

/-- SEAT_NF_LAST, SEAT_NF_LOC and SEAT_NF_CNT (R101). -/
def View.nfRegs (v : View) : List (Nat × Word) :=
  let c := v.l.codes
  [(0xFE0, bits 28 c.nfCode ||| fld 4 24 c.nfSeat ||| bits 20 c.nfPhase ||| fld 20 0 c.nfIdx),
   (0xFE4, bits 26 c.nfOp ||| bits 16 c.nfCyc ||| fld 12 1 c.nfOff ||| onBit 0 c.nfHeld), (0xFE8, fld 16 0 c.nfCnt)]

/-- CVU_ registers (R130). -/
def View.cvuRegs (v : View) : List (Nat × Word) :=
  let a := v.l.stats.lastA
  let c := v.l.codes
  [(0x3000, fld 16 16 a.cvuFalse ||| fld 16 0 a.cvuCmp), (0x3004, fld 32 0 a.cvuBytes),
   (0x3008, bits 28 c.cfKind ||| fld 4 24 c.cfSeat ||| fld 8 16 c.cfCnt ||| onBit 0 (c.cfKind != 0))]

/-- Registers of the blocks 0x0000 to 0x0FFF and 0x3000. -/
def View.regsA (v : View) : List (Nat × Word) :=
  v.idRegs ++ v.stsRegs ++ v.armRegs ++ v.cfgRegs ++ v.numRegs ++ v.statRegs ++ v.voteRegs ++ v.laneRegs ++ v.seatRegs ++
    v.seatStatRegs ++ v.bistRegs ++ v.codeRegs ++ v.nfRegs ++ v.cvuRegs

end Sys2Proof.Machine
end

