-- ==== Sys2Proof/Machine/RegsB.lean ====
section
/-!
DEFINITION. Values of the FLD_, LIO_, PTN_ and RING_ registers (spec/08_field_telegrams.md R192;
spec/10_local_vital_io.md R236; spec/11_partner_and_failover.md, registers; spec/12_cluster_and_host.md R286), each at its
byte address.
-/
namespace Sys2Proof.Machine

/-- Lane code of a transmit lane, 3 for none (R192, R286). -/
def txCode : Option LaneId → BitVec 2
  | none => 3
  | some y => BitVec.ofNat 2 y.num

/-- The module sends on the field networks (R164, R192). -/
def Lane.sending (l : Lane) : Bool := l.active && (l.mode.mode == 1 || l.mode.mode == 4)

/-- FLD_NET (R192). -/
def View.fldNet (v : View) : Word :=
  onBit 9 (v.s.ports.getLsbD 1) ||| onBit 8 (v.s.ports.getLsbD 0) ||| bits 6 (txCode (v.l.txOf .j5)) |||
    bits 4 (txCode (v.l.txOf .j4)) ||| onBit 0 v.l.sending

/-- Number of stations of the loaded image. -/
def Lane.stationCount (l : Lane) : Nat := ((l.boot.img).map fun i => i.stations.length).getD 0

/-- FLD_STN_CNT (R192): 0 until the image is loaded. -/
def View.stnCnt (v : View) : Word :=
  let ps := List.range v.l.stationCount
  fld 13 16 (ps.filter fun p => (v.l.stn p).st == .stale).length |||
    fld 13 0 (ps.filter fun p => (v.l.stn p).st == .admitting).length

/-- Codes of FLD_STN_INFO and RING_NB_INFO, STATE to BLANK (R192, R286). -/
def admWord (age : Nat) (st : BitVec 2) (run : Nat) (blank : Bool) : Word :=
  fld 8 24 age ||| bits 22 st ||| fld 2 20 run ||| onBit 19 blank

/-- FLD_STN_INFO of the selected station; a position that is not below STATIONS reads the Reset value. -/
def View.stnInfo (v : View) : Word :=
  let p := v.sels.stn.toNat
  if v.l.stationCount ≤ p then admWord 255 0 0 false
  else
    let r := v.l.stn p
    admWord r.age r.st.code r.run r.blank ||| onBit 18 ((v.l.gen p).bind (·.pend)).isSome

/-- FLD_STN_KEY of the selected station (R192). -/
def View.stnKey (v : View) : Word :=
  let p := v.sels.stn.toNat
  if v.l.stationCount ≤ p then 0 else ((v.l.gen p).map (·.cur)).getD 0

/-- FLD_STN_ECHO of the selected station (R192). -/
def View.stnEcho (v : View) : Word := (((v.l.stn v.sels.stn.toNat).e).map (·.setWidth 32)).getD 0

/-- FLD_STN_STALE register j (R192): all 1 until the image is loaded. -/
def View.stnStale (v : View) (j : Nat) : Word :=
  if v.l.boot.img.isNone then 0xFFFFFFFF
  else wordOf fun k =>
    let p := 32 * j + k.val
    p < v.l.stationCount && (v.l.stn p).st != .admitted

/-- FLD_ registers (R192). -/
def View.fldRegs (v : View) : List (Nat × Word) :=
  let b := v.l.stats.lastB
  [(0x1000, v.fldNet), (0x1004, fld 16 16 b.rxA ||| fld 16 0 b.validA), (0x1008, fld 16 16 b.rxB ||| fld 16 0 b.validB),
   (0x100C, fld 8 24 b.dFormat ||| fld 8 16 b.dTag ||| fld 8 8 b.dEcho ||| fld 8 0 b.dOld), (0x1010, v.stnCnt),
   (0x1014, fld 8 16 v.l.field.spareCnt ||| fld 8 8 v.l.field.sealFail ||| bits 0 v.l.field.lastPair),
   (0x1018, ((v.l.fail.curCmdr).map (·.2)).getD 0), (0x101C, fld 16 0 b.withheld), (0x1020, bits 0 v.sels.stn),
   (0x1024, v.stnInfo), (0x1028, v.stnKey), (0x102C, v.stnEcho), (0x1030, fld 16 16 b.ptnB ||| fld 16 0 b.ptnA)] ++
    (List.range 128).map fun j => (0x1200 + 4 * j, v.stnStale j)

/-- A field of the last cycle set received; 0 while none was (R236). -/
def View.fromSet (v : View) (f : CycleSet → Word) : Word :=
  match v.l.lio.set with
  | none => 0
  | some c => f c

/-- LIO_GRP, with the groups whose line this lane toggles (R225, R236). -/
def View.lioGrp (v : View) : Word :=
  v.fromSet fun c => (List.range 4).foldl
    (fun w g => w ||| bits (8 * g) ((c.groups.getD g 0) &&& 0xFD) ||| onBit (8 * g + 1) (v.l.lio.toggle.getLsbD g)) 0

/-- LIO_CH_FAULT register j (R236). -/
def View.chFault (v : View) (j : Nat) : Word :=
  v.fromSet fun c => (List.range 8).foldl (fun w k => w ||| bits (4 * k) (c.faults.getD (8 * j + k) 0)) 0

/-- LIO_DEG_LEFT of group g: seconds by the earlier of the FCU's and the lane's count (R233, R236). -/
def View.degLeft (v : View) (g : Nat) : Word :=
  v.fromSet fun c =>
    let f := c.degLeft.getD g 0
    match v.l.lio.deg g, v.l.boot.img with
    | some k, some img => fld 18 0 (min f (k * img.hdr.tCycle / 10000))
    | _, _ => fld 18 0 f

/-- LIO_ registers (R236). -/
def View.lioRegs (v : View) : List (Nat × Word) :=
  let o := v.l.lio
  [(0x1400, v.fromSet (·.values)), (0x1404, v.fromSet (·.valid)), (0x1408, o.outCmd), (0x140C, v.fromSet (·.readback)),
   (0x1410, v.lioGrp)] ++ ((List.range 4).map fun j => (0x1420 + 4 * j, v.chFault j)) ++
    [(0x1430, v.fromSet fun c => (List.range 4).foldl (fun w g => w ||| fld 8 (8 * g) (c.lplus.getD g 0)) 0),
     (0x1434, v.fromSet fun c => fld 8 24 c.accCnt ||| fld 8 16 c.jamCnt ||| fld 8 8 c.refCnt ||| onBit 1 c.jam |||
       onBit 0 c.restore)] ++ ((List.range 4).map fun g => (0x1440 + 4 * g, v.degLeft g)) ++
    [(0x1450, fld 8 24 o.late ||| fld 8 16 o.missed ||| fld 8 8 o.linkErr |||
       v.fromSet fun c => bits 0 c.present.bits)]

/-- PTN_STATUS (R237 to R244, R255). -/
def View.ptnStatus (v : View) : Word :=
  let p := v.l.ptn
  fld 16 16 (if v.l.candidateHere then p.bmatch else p.matched) ||| fld 2 11 p.misRun ||| onBit 10 p.qualified |||
    onBit 9 p.path2 ||| onBit 8 p.path1 ||| bits 4 p.prole ||| bits 0 p.role

/-- PTN_WITNESS (R245): stations of the last cycle and the threshold, 0 until the image is loaded. -/
def View.ptnWitness (v : View) : Word :=
  fld 13 16 v.l.fail.witLast ||| (if v.l.boot.img.isNone then 0 else fld 13 0 (witnessNeed v.l.stationCount))

/-- PTN_ registers (R237 to R258). Values of the secure store read 0 until they are taken (R384). -/
def View.ptnRegs (v : View) : List (Nat × Word) :=
  let p := v.l.ptn
  let got {w : Nat} (b : BitVec w) : Word := if v.l.sec.loaded then b.setWidth 32 else 0
  [(0x1800, v.ptnStatus), (0x1804, p.epoch), (0x1808, got v.l.nv.epFloor), (0x180C, got v.l.nv.se), v.hi 0x1810,
   (0x1814, p.pse.setWidth 32), v.hi 0x1818, (0x181C, fld 8 8 p.silent2 ||| fld 8 0 p.silent1), (0x1820, v.ptnWitness),
   (0x1824, bits 24 v.l.fail.hoCode ||| onBit 16 v.l.fail.hoCarry ||| fld 9 0 p.bmatch)] ++
    byteRegs 0x1840 20 v.l.fail.hlt

/-- RING_STATUS (R286). -/
def View.ringStatus (v : View) : Word :=
  bits 8 v.l.boot.keySlot ||| onBit 7 v.l.ring.dup ||| bits 4 (txCode (v.l.txOf .j7)) ||| bits 2 (txCode (v.l.txOf .j6)) |||
    onBit 1 (v.s.ports.getLsbD 3) ||| onBit 0 (v.s.ports.getLsbD 2)

/-- RING_NB_INFO of the selected neighbour (R286); the Reset value until the image is loaded. -/
def View.nbInfo (v : View) : Word :=
  match v.l.boot.img with
  | none => admWord 255 0 0 false
  | some img =>
    let used := ((img.nbs[v.sels.nb.toNat]?).map fun r => r.used == 1).getD false
    let b := v.l.ring.nbs[v.sels.nb.toFin]
    if !used then admWord 255 3 0 false
    else admWord b.age b.st.code b.run b.blank ||| bits 0 (b.sender.setWidth 6)

/-- RING_ registers (R286). -/
def View.ringRegs (v : View) : List (Nat × Word) :=
  let r := v.l.ring
  let b := v.l.stats.lastB
  [(0x1900, v.ringStatus), (0x1904, fld 16 16 r.delayW ||| fld 16 0 r.delayE), (0x1908, fld 16 16 b.taken ||| fld 16 0 b.fwd),
   (0x190C, fld 8 24 r.dFormat ||| fld 8 16 r.dTag ||| fld 8 8 r.dOld ||| fld 8 0 r.dDupl), (0x1910, bits 0 v.sels.nb),
   (0x1914, v.nbInfo), (0x1918, (r.nbs[v.sels.nb.toFin]).epoch)]

/-- Registers of the blocks 0x1000 to 0x1BFF. -/
def View.regsB (v : View) : List (Nat × Word) := v.fldRegs ++ v.lioRegs ++ v.ptnRegs ++ v.ringRegs

end Sys2Proof.Machine
end

