-- ==== Sys2Proof/Machine/RegsC.lean ====
section
/-!
DEFINITION. Values of the HST_, FRC_, CLK_, PWR_, SUP_, SEC_ and REC_ registers (spec/12_cluster_and_host.md R286;
spec/13_modes_and_forcing.md R300; spec/15_clocks.md R338; spec/16_supplies_and_power.md R354;
spec/14_keys_and_trust.md R323; spec/18_event_recorder.md R377), and the register space as a whole: what a read returns
and what it latches (spec/19_register_space.md R378, R383).
-/
namespace Sys2Proof.Machine

/-- A prepared command that waits for its confirm (R282, R286). -/
def Prepared.waits (p : Prepared) : Bool := !p.expired && !p.confirmed

/-- HST_ registers (R286). -/
def View.hstRegs (v : View) : List (Nat × Word) :=
  let ks := v.s.sessions.filter fun k => k.lanes.has v.x
  let h := v.l.host
  let b := v.l.stats.lastB
  [(0x1C00, fld 16 16 v.s.tunRetx ||| fld 4 8 (v.s.tunnels.filter (·.gateway)).length |||
     fld 4 4 (ks.filter (·.maint)).length ||| fld 4 0 (ks.filter fun k => !k.maint).length),
   (0x1C04, fld 16 16 b.applied ||| fld 8 8 b.late ||| fld 8 0 b.conflict),
   (0x1C08, fld 8 24 (h.prepared.filter (·.waits)).length ||| fld 8 16 h.confirmed ||| fld 8 8 h.cmacFail |||
     fld 8 0 h.expired),
   (0x1C0C, bits 24 h.lastOp ||| bits 16 h.lastSt ||| bits 0 h.lastWs)]

/-- Entries of the force table that are active in the running cycle (R290, R300). -/
def Lane.activeForces (l : Lane) : List Force := l.force.table.filter fun f => f.activeIn l.cyc.num

/-- FRC_ENTRY (R300). -/
def View.frcEntry (v : View) (f : Force) : Word :=
  onBit 31 true ||| onBit 30 f.perm ||| onBit 29 f.out ||| onBit 28 (!f.activeIn v.l.cyc.num) ||| fld 20 0 f.node

/-- FRC_ registers (R300). -/
def View.frcRegs (v : View) : List (Nat × Word) :=
  let f := v.l.force
  let act := v.l.activeForces
  [(0x1C40, fld 9 16 (act.filter (·.perm)).length ||| bits 14 v.l.forceLamp ||| onBit 13 (v.l.mode.mode == 4) |||
     fld 9 0 act.length),
   (0x1C44, bits 0 v.sels.frc),
   (0x1C48, match f.table[v.sels.frc.toNat]? with
     | none => 0
     | some e => v.frcEntry e),
   (0x1C4C, match f.table[v.sels.frc.toNat]? with
     | none => 0
     | some e => bits 16 (e.start.setWidth 16) ||| bits 0 e.value),
   (0x1C50, bits 24 f.lastCode ||| fld 20 0 f.lastNode)]

/-- The last measurement of a neighbour stands above 2,000 (R335, R338). -/
def Lane.crossed (l : Lane) : Bool := 2000 < (l.meter.devNext.getD 0).natAbs || 2000 < (l.meter.devPrev.getD 0).natAbs

/-- CLK_STATUS (R338). -/
def View.clkStatus (v : View) : Word :=
  let k := v.l.clk
  bits 28 v.l.boot.hold ||| bits 16 k.op ||| onBit 8 k.conv ||| onBit 7 v.l.crossed ||| onBit 6 k.monTrip |||
    onBit 5 k.forced ||| onBit 4 k.coast ||| onBit 3 k.lock ||| onBit 2 k.xtalOk ||| onBit 1 k.rcOk |||
    onBit 0 v.l.boot.alive

/-- CLK_ registers (R338). -/
def View.clkRegs (v : View) : List (Nat × Word) :=
  let k := v.l.clk
  let m := v.l.meter
  [(0x2000, v.clkStatus), (0x2004, bits 24 k.seatCur ||| bits 16 k.seatTgt ||| bits 8 k.supCur ||| bits 0 k.supTgt),
   (0x2008, bits 0 k.gates), (0x200C, fld 8 24 k.gRefused ||| bits 16 k.gResult ||| onBit 15 k.gReq ||| bits 0 k.gGate),
   (0x2010, fld 16 16 k.cal ||| fld 8 8 k.trips ||| fld 4 0 k.tripDom),
   (0x2014, sfld 16 16 (m.devNext.getD 0) ||| sfld 16 0 (m.devPrev.getD 0)), (0x2018, bits 0 v.sels.meter),
   (0x201C, fld 32 0 (m.counts.toList.getD v.sels.meter.toNat 0)),
   (0x2020, bits 28 m.evKind ||| fld 4 24 m.evDom ||| fld 8 16 m.evCnt ||| bits 0 m.evCyc)]

/-- PWR_ registers (R354). -/
def View.pwrRegs (v : View) : List (Nat × Word) :=
  let p := v.l.pwr
  [(0x2400, bits 16 p.admitOps ||| bits 8 p.target ||| bits 4 p.op ||| bits 0 p.mode),
   (0x2404, fld 8 24 p.refusals ||| fld 8 16 p.unwound ||| bits 11 p.block ||| bits 8 p.ap ||| onBit 2 p.rejF |||
     onBit 1 p.rejV ||| onBit 0 (p.block != 0 || p.rejF || p.rejV)),
   (0x2408, sfld 8 24 p.tempMax ||| sfld 8 16 p.tempNow ||| onBit 1 p.thermLim ||| onBit 0 p.hot), (0x240C, fld 32 0 p.sleepMs)]

/-- SUP_STATUS (R354). -/
def View.supStatus (v : View) : Word :=
  let u := v.s.sup
  bits 8 v.l.nv.railFail ||| onBit 7 v.l.pwr.convExcl ||| onBit 6 u.holdup ||| onBit 5 u.warnNow ||| onBit 4 v.l.pwr.warn |||
    onBit 3 u.onBk ||| onBit 2 u.bkP ||| onBit 1 u.mainP

/-- SUP_ registers (R354). -/
def View.supRegs (v : View) : List (Nat × Word) :=
  let r := v.l.sup
  [(0x2420, v.supStatus), (0x2424, fld 16 16 r.mainMax ||| fld 16 0 r.mainMin), (0x2428, fld 16 16 r.bkMax ||| fld 16 0 r.bkMin),
   (0x242C, fld 16 16 r.busMin ||| fld 16 0 r.busNow), (0x2430, fld 16 16 r.dips ||| fld 16 0 r.longest),
   (0x2434, fld 8 24 r.d100 ||| fld 8 16 r.d10 ||| fld 8 8 r.d1 ||| fld 8 0 r.d0),
   (0x2438, fld 8 24 r.v96 ||| fld 8 16 r.v99 ||| fld 8 8 r.v102 ||| fld 8 0 r.v105),
   (0x243C, fld 16 16 r.toBackup ||| fld 16 0 r.toMain)]

/-- SEC_STATUS (R323). Values of the fuses and the secure store read 0 until they are taken (R384). -/
def View.secStatus (v : View) : Word :=
  let n := v.l.nv
  let c := v.l.sec
  (if c.loaded then fld 3 11 n.claims.length ||| fld 3 8 n.anchors.length ||| onBit 7 n.revSeq.isSome |||
      onBit 6 (!n.chain.isEmpty) ||| onBit 5 n.secret.isSome ||| onBit 4 n.master.isSome else 0) |||
    onBit 3 c.trngOk ||| onBit 2 c.zeroed ||| onBit 1 c.permit

/-- SEC_ registers (R323, R384). -/
def View.secRegs (v : View) : List (Nat × Word) :=
  let c := v.l.sec
  let auth := if c.loaded then v.l.nv.claim.getD 0 else 0
  [(0x2800, v.secStatus)] ++ byteRegs 0x2804 4 (if c.loaded then midBytes else []) ++ byteRegs 0x2814 2 (bytesOf auth) ++
    [(0x281C, bits 16 c.wsFail ||| fld 8 8 v.l.host.locks.length ||| fld 7 0 v.l.nv.ws.length),
     (0x2820, fld 16 16 c.zeroCnt ||| fld 16 0 c.zeroUs), (0x2824, onBit 0 c.tap),
     (0x2828, bits 24 c.lastCode ||| bits 16 c.lastSub)]

/-- REC_ registers (R377); a record is written within one step, so WRITING reads 0. -/
def View.recRegs (v : View) : List (Nat × Word) :=
  let r := v.l.rcd
  [(0x2C00, fld 8 24 r.writeErr ||| fld 5 16 r.pexp ||| onBit 0 r.enabled), (0x2C04, r.seq.setWidth 32), v.hi 0x2C08,
   (0x2C0C, fld 17 0 r.count), (0x2C10, bits 0 v.sels.slot)] ++
    byteRegs 0x2C40 64 (recBytes v.l.nv.recs (256 * v.sels.slot.toNat) 256)

/-- Registers of the blocks 0x1C00 to 0x2FFF. -/
def View.regsC (v : View) : List (Nat × Word) :=
  v.hstRegs ++ v.frcRegs ++ v.clkRegs ++ v.pwrRegs ++ v.supRegs ++ v.secRegs ++ v.recRegs

/-- Every register of the module with its value (R388). -/
def View.regs (v : View) : List (Nat × Word) := v.regsA ++ v.regsB ++ v.regsC

/-- The value at an address; none where no register is (R378). -/
def View.at (v : View) (addr : Nat) : Option Word := (v.regs.find? fun r => r.1 == addr).map (·.2)

/-- What the read of a _LO register latches for its _HI register: its address and value (R43, R377). -/
def View.latched (v : View) (addr : Nat) : Option (Nat × Word) :=
  let high (c : Cycle) : Word := (c.extractLsb' 32 16).setWidth 32
  if addr = 0x810 then some (0x814, high v.l.cyc.num)
  else if addr = 0x180C then some (0x1810, if v.l.sec.loaded then high v.l.nv.se else 0)
  else if addr = 0x1814 then some (0x1818, high v.l.ptn.pse)
  else if addr = 0x2C04 then some (0x2C08, high v.l.rcd.seq) else none

/-- Latches after the read of an address. -/
def View.latch (v : View) (addr : Nat) : View :=
  match v.latched addr with
  | none => v
  | some p => { v with latches := Mem.set 0 v.latches p.1 p.2 }

/-- Reads `n` consecutive registers in ascending order, with the latches that this leaves (R382). -/
def View.readBlock : Nat → View → Nat → List (Option Word) × View
  | 0, v, _ => ([], v)
  | n + 1, v, addr =>
    let r := View.readBlock n (v.latch addr) (addr + 4)
    (v.at addr :: r.1, r.2)

/-- The addresses at which registers are (R388). -/
def mapped : List Nat :=
  (View.regs { s := State.reset, x := .a, sels := Sels.init, latches := [] }).map (·.1)

/-- A lane as a session sees it (R383). -/
def State.view (s : State) (x : LaneId) (k : Session) : View :=
  { s := s, x := x, sels := k.sels.get x, latches := k.latches.get x }

/-- A lane samples `n` registers for a session; what the read latches stays with the session in that lane (R382, R383). -/
def State.sample (s : State) (x : LaneId) (sess addr n : Nat) : List (Option Word) × State :=
  match s.session sess with
  | none => ([], s)
  | some k =>
    let r := View.readBlock n (s.view x k) addr
    (r.1, s.setSession { k with latches := k.latches.put x r.2.latches })

end Sys2Proof.Machine
end

