-- ==== Sys2Proof/Machine/Reads.lean ====
section
/-!
DEFINITION. Reads of the register space through an SHP session (spec/19_register_space.md R378 to R385, R389;
spec/07_data_key.md R156): REG_READ, LO_READ_LATCH, VOTED_VIEW_RX, REG_SAMPLE_TIMEOUT and what a freeze samples.
-/
namespace Sys2Proof.Machine

/-- A lane out of reset answers reads of its registers, in START-HOLD as well (R326, R385). -/
def Lane.answersReads (l : Lane) : Bool := !l.boot.inReset

/-- The lane can answer a session: it is out of reset, holds the session's keys (R310), and the port by which the session's
frames arrive is not down in it (R333). -/
def State.hears (s : State) (k : Session) (x : LaneId) : Bool :=
  (s.lane x).answersReads && k.lanes.has x && !(s.lane x).meter.portDown.getLsbD (if k.tunnel.isSome then 5 else 7)

/-- The lane samples at its freeze; every other lane samples on arrival (R381). -/
def Lane.samplesAtFreeze (l : Lane) (x : LaneId) : Bool := l.inCycle && l.phased x

/-- The session's role permits an object that every role but commissioning may use (R277, R312). -/
def Session.general (k : Session) : Bool := !k.comm

/-- Sends a response through the response lane of a session (R274, R381). -/
def State.respond (s : State) (k : Session) (req : Word) (obj status : Byte) (body : List Byte) : State :=
  if (s.respLane k).isSome then s.reply k.id req obj status body else s

/-- A command of a session that is open; none has any effect otherwise. -/
def State.serve (s : State) (sess : Nat) (f : Session → State) : State :=
  match s.session sess with
  | none => s
  | some k => f k

/-- The status with which a REG_READ is refused (R277, R378, R379). -/
def readRefusal (sel : LaneSel) (addr : Word) (count : Nat) : Option Byte :=
  let a := addr.toNat
  if sel.z != 0 || (sel.lanes.count = 0 && !sel.voted) || a % 4 != 0 || count = 0 || 64 < count then some 1
  else if (List.range count).all fun i => mapped.contains (a + 4 * i) then none else some 3

/-- Replaces a read that waits. -/
def State.putRead (s : State) (r : VRead) : State :=
  { s with reads := s.reads.map fun q => if q.sess = r.sess ∧ q.req = r.req then r else q }

/-- Takes a read out. -/
def State.dropRead (s : State) (r : VRead) : State :=
  { s with reads := s.reads.filter fun q => !(q.sess = r.sess ∧ q.req = r.req) }

/-- The read of a session with a request number. -/
def State.readOf (s : State) (sess : Nat) (req : Word) : Option VRead :=
  s.reads.find? fun r => r.sess == sess && r.req == req

/-- Lanes that count toward the voted view as a lane knows them (R380): those in service, or those alive where no lane runs
boundaries. -/
def State.counts (s : State) (x : LaneId) : LaneSet :=
  if (s.lane x).hasBoundaries then (s.lane x).vote.service else LaneSet.those fun y => (s.lane y).boot.alive

/-- One entry of a response: status and value (R379). -/
def entryBytes (status : Byte) (v : Word) : List Byte := status :: bytesOf v

/-- Entries of a lane view: what it sampled, or 0x0E where it did not within the limit (R385). -/
def VRead.laneBody (r : VRead) (x : LaneId) : List Byte :=
  if !r.sel.lanes.has x then []
  else match r.samples.get x with
    | none => (List.replicate r.count (entryBytes 0x0E 0)).flatten
    | some vs => vs.flatMap fun v => entryBytes 0 (v.getD 0)

/-- Samples of register `i` of the counted lanes, in lane order. -/
def VRead.votes (r : VRead) (i : Nat) : List Word :=
  laneList.filterMap fun x =>
    if (r.counted.getD noLanes).has x then (r.samples.get x).bind fun vs => (vs.getD i none) else none

/-- A value that occurs at least twice. -/
def twice {α : Type} [DecidableEq α] (vs : List α) : Option α := vs.find? fun v => 2 ≤ vs.count v

/-- The voted entry of ARM_REASON (R156): a register that two lanes share, else a code that two lanes report with INDEX 0,
else 0x25. -/
def votedReason (vs : List Word) : Word :=
  match twice vs with
  | some v => v
  | none => ((twice (vs.map fun v => v &&& 0xFF)).getD 0x25)

/-- The voted entry of register `i` (R156, R380, R389). -/
def VRead.votedEntry (r : VRead) (i : Nat) : List Byte :=
  let vs := r.votes i
  if (r.counted.getD noLanes).count < 2 then entryBytes 8 0
  else if r.addr.toNat + 4 * i = 0x408 then entryBytes 0 (votedReason vs)
  else match twice vs with
    | some v => entryBytes 0 v
    | none => entryBytes 8 0

/-- Body of the response: the lane views in order, then the voted view (R379). -/
def VRead.body (r : VRead) : List Byte :=
  laneList.flatMap r.laneBody ++ (if r.sel.voted then (List.range r.count).flatMap r.votedEntry else [])

/-- Nothing is awaited from the lane: it sampled, timed out, or is neither selected nor counted. -/
def VRead.settled (r : VRead) (x : LaneId) : Bool :=
  (r.samples.get x).isSome || r.late.has x ||
    !(r.sel.lanes.has x || (r.sel.voted && (r.counted.getD noLanes).has x))

/-- Every sample that the response needs is held. -/
def VRead.complete (r : VRead) : Bool :=
  laneList.all r.settled && (!r.sel.voted || r.counted.isSome || r.late.has r.resp)

/-- Answers a read once it is complete (R379, R381). -/
def State.settleRead (s : State) (r : VRead) : State :=
  if r.complete then (s.dropRead r).serve r.sess fun k => (s.dropRead r).respond k r.req 1 0 r.body else s.putRead r

/-- The response lane takes the samples of a lane. -/
def State.takeSamples (s : State) (r : VRead) (x : LaneId) (vs : List (Option Word)) : State :=
  s.settleRead { r with samples := r.samples.put x (some vs) }

/-- A lane samples a read (R381): the response lane keeps its samples and settles who counts; another lane sends them. -/
def State.sampleRead (s : State) (x : LaneId) (r : VRead) : State :=
  let v := s.sample x r.sess r.addr.toNat r.count
  let r := { r with got := r.got.put x false }
  if x = r.resp then v.2.takeSamples { r with counted := some (s.counts x) } x v.1
  else if r.sel.voted then (v.2.putRead r).xsend x r.resp (.voted (.samples r.sess r.req x v.1))
  else v.2.takeSamples r x v.1

/-- The request of a read as it crosses the exchange links (R381). -/
def VRead.request (r : VRead) : VotedMsg := .request r.sess r.req r.addr r.count r.m

/-- A read of the voted view starts at its response lane (R381). -/
def State.startVoted (s : State) (r : VRead) : State :=
  let s := { s with reads := s.reads ++ [r] }
  let s := s.xcast r.resp (.voted r.request)
  if (s.lane r.resp).samplesAtFreeze r.resp then s else s.sampleRead r.resp r

/-- A read of lane views alone: every selected lane that answers samples on arrival (R381). -/
def State.startLanes (s : State) (k : Session) (r : VRead) : State :=
  let s := { s with reads := s.reads ++ [r] }
  laneList.foldl
    (fun t x => if r.sel.lanes.has x && t.hears k x then
      match t.readOf r.sess r.req with
      | none => t
      | some q => t.sampleRead x q
      else t) s

/-- REG_READ (R379 to R382). A request whose number is still in use waits for no second answer and is not taken. -/
def execRegRead (sess : Nat) (req : Word) (sel : LaneSel) (addr : Word) (count : Nat) (s : State) : Answer :=
  let s := s.begin
  .next (s.serve sess fun k =>
    match s.respLane k with
    | none => s
    | some y =>
      match readRefusal sel addr count with
      | some c => s.reply sess req 1 c []
      | none =>
        if (s.readOf sess req).isSome then s
        else
          let got := if sel.voted then noLanes.put y true else noLanes
          let r : VRead :=
            { sess := sess, req := req, sel := sel, addr := addr, count := count, m := (s.lane y).cyc.num + 1, resp := y,
              got := got, samples := PerLane.const none, counted := none, late := noLanes }
          if sel.voted then s.startVoted r else s.startLanes k r)

/-- LO_READ_LATCH (R43, R383): a session's read of a _LO register in a lane latches the _HI register there. -/
def execLoReadLatch (sess : Nat) (l : LaneId) (addr : Word) (s : State) : Answer :=
  let s := s.begin
  .next (s.serve sess fun k => if s.hears k l then (s.sample l sess addr.toNat 1).2 else s)

/-- REG_SAMPLE_TIMEOUT (R385): a lane that has not sampled within 100 ms gives 0x0E in its entries. -/
def execRegSampleTimeout (sess : Nat) (req : Word) (l : LaneId) (s : State) : Answer :=
  let s := s.begin
  match s.readOf sess req with
  | none => .next s
  | some r =>
    if (r.samples.get l).isSome || r.late.has l then .next s
    else .next (s.settleRead { r with late := r.late.put l true, got := r.got.put l false })

/-- A lane samples, at its freeze, the voted reads stamped with the running cycle (R381). -/
def State.sampleFreeze (s : State) (x : LaneId) : State :=
  let due := s.reads.filter fun r => r.got.has x && r.m == (s.lane x).cyc.num
  due.foldl (fun t r =>
    match t.readOf r.sess r.req with
    | none => t
    | some q => t.sampleRead x q) s

end Sys2Proof.Machine
end

