-- ==== Sys2Proof/Machine/Writes.lean ====
section
/-!
DEFINITION. Writes to the register space (spec/19_register_space.md R383, R387, R389; spec/00_scope.md R9): REG_WRITE, the
W1C registers with rows of their own, and SEC_TAP.EN (spec/14_keys_and_trust.md R321).
-/
namespace Sys2Proof.Machine

/-- CYC_DROP_CAUSE.CLR clears the whole register (R44). -/
def Lane.clearCause (l : Lane) : Lane :=
  { l with align := { l.align with dcHeld := false, dcCyc := 0, dcCause := 0, dcPhase := 0 } }

/-- SEAT_NF_LOC.CLR clears SEAT_NF_LAST and SEAT_NF_LOC (R101). -/
def Lane.clearNf (l : Lane) : Lane :=
  { l with codes := { l.codes with nfCode := 0, nfSeat := 0, nfPhase := 0, nfIdx := 0, nfOp := 0, nfCyc := 0, nfOff := 0,
                                   nfHeld := false } }

/-- SEAT_FAULT.CLR clears CAUSE and SEAT (R121). -/
def Lane.clearSeatFault (l : Lane) : Lane := { l with codes := { l.codes with sfCause := 0, sfSeat := 0 } }

/-- CVU_FAULT.CLR clears KIND and SEAT (R130). -/
def Lane.clearCvu (l : Lane) : Lane := { l with codes := { l.codes with cfKind := 0, cfSeat := 0 } }

/-- CLK_STATUS.FORCED is cleared (R338). -/
def Lane.clearForced (l : Lane) : Lane := { l with clk := { l.clk with forced := false } }

/-- PWR_STATUS.CLR clears BLOCK, REJ_F and REJ_V (R354). -/
def Lane.clearPwr (l : Lane) : Lane := { l with pwr := { l.pwr with block := 0, rejF := false, rejV := false } }

/-- SUP_STATUS.WARN is cleared (R354). -/
def Lane.clearWarn (l : Lane) : Lane := { l with pwr := { l.pwr with warn := false } }

/-- Bits of STS_FAULT written 1 are cleared (R387). -/
def Lane.clearFaults (l : Lane) (v : Byte) : Lane := { l with codes := { l.codes with stsFault := l.codes.stsFault &&& ~~~v } }

/-- A write of `value` to a W1C bit clears it, unless its event holds it in the same clock (R387, R389). -/
def clears (value hold : Word) (b : Nat) : Bool := value.getLsbD b && !hold.getLsbD b

/-- The W1C part of a write in a lane (R383): none where the address has no W1C field. -/
def Lane.writeW1c (l : Lane) (addr : Nat) (value hold : Word) : Option Lane :=
  let on (b : Nat) (m : Lane) : Option Lane := some (if clears value hold b then m else l)
  if addr = 0x820 then on 0 l.clearCause
  else if addr = 0xFE4 then on 0 l.clearNf
  else if addr = 0xC14 then on 0 l.clearSeatFault
  else if addr = 0x3008 then on 0 l.clearCvu
  else if addr = 0x2000 then on 5 l.clearForced
  else if addr = 0x2404 then on 0 l.clearPwr
  else if addr = 0x2420 then on 4 l.clearWarn
  else if addr = 0x4C then some (l.clearFaults ((value &&& ~~~hold).setWidth 8))
  else none

/-- For RWA fields a module counts as armed from the verification of an arming confirm; in SAFE-HALT it does not (R9, R383).
A lane that counts as armed makes the module armed in every lane. -/
def State.countsArmed (s : State) : Bool :=
  laneList.any fun x => ((s.lane x).mode.accepted || (s.lane x).mode.armed) && (s.lane x).mode.mode != 5

/-- A write to SEC_TAP.EN, which stands while the module counts as armed (R321, R383): status and lane. -/
def Lane.writeTap (l : Lane) (armed : Bool) (value : Word) : Byte × Lane :=
  if armed then (4, l) else (0, { l with sec := { l.sec with tap := value.getLsbD 0 } })

/-- A scan of the security block through the test access port goes through: the port is enabled and the scan permit stands
(R320, R321). -/
def Lane.scanOpen (l : Lane) : Bool := l.sec.tap && l.sec.permit

/-- The selectors after a write to a selector register; none at another address (R383). -/
def Sels.write (k : Sels) (addr : Nat) (value : Word) : Option Sels :=
  if addr = 0x1020 then some { k with stn := value.setWidth 12 }
  else if addr = 0x1910 then some { k with nb := value.setWidth 3 }
  else if addr = 0x1C44 then some { k with frc := value.setWidth 8 }
  else if addr = 0x2018 then some { k with meter := value.setWidth 3 }
  else if addr = 0x2C10 then some { k with slot := value.setWidth 16 }
  else none

/-- The lane acts on a session's commands. -/
def State.heeds (s : State) (k : Session) (x : LaneId) : Bool := (s.lane x).acts && k.lanes.has x

/-- A write takes effect in a lane: its status and the module (R383). -/
def State.writeLane (s : State) (sess : Nat) (x : LaneId) (addr : Nat) (value : Word) : Byte × State :=
  match s.session sess with
  | none => (0x0E, s)
  | some k =>
    if !s.heeds k x then (0x0E, s)
    else if addr = 0x2824 then
      let r := (s.lane x).writeTap s.countsArmed value
      (r.1, s.setLane x r.2)
    else match (k.sels.get x).write addr value with
      | some t => (0, s.setSession { k with sels := k.sels.put x t })
      | none => match (s.lane x).writeW1c addr value 0 with
        | some l => (0, s.setLane x l)
        | none => (4, s)

/-- The status with which a REG_WRITE is refused as a whole (R277, R312, R378). -/
def writeRefusal (k : Session) (sel : LaneSel) (addr : Nat) : Option Byte :=
  if !k.general then some 2
  else if sel.z != 0 || sel.voted || sel.lanes.count = 0 || addr % 4 != 0 then some 1
  else if mapped.contains addr then none else some 3

/-- One lane's part of a REG_WRITE: the statuses reported so far and the module. A lane that does not act reports 0x0E. -/
def State.writeStep (sess : Nat) (sel : LaneSel) (addr : Nat) (value : Word) (acc : List Byte × State) (x : LaneId) :
    List Byte × State :=
  if sel.lanes.has x then
    let w := acc.2.writeLane sess x addr value
    (acc.1 ++ [w.1], w.2)
  else acc

/-- REG_WRITE (R277, R383): each selected lane acts on receipt and reports its own status; the body holds one status for each
selected lane, in the order of R379. -/
def execRegWrite (sess : Nat) (req : Word) (sel : LaneSel) (addr : Word) (value : Word) (s : State) : Answer :=
  let s := s.begin
  .next (s.serve sess fun k =>
    match writeRefusal k sel addr.toNat with
    | some c => s.respond k req 2 c []
    | none =>
      let r := laneList.foldl (State.writeStep sess sel addr.toNat value) ([], s)
      r.2.respond k req 2 0 r.1)

/-- A write to a W1C register in some lanes, with the bits that events set in the same clock. -/
def clearIn (lanes : LaneSet) (addr : Nat) (value hold : Word) (s : State) : State :=
  s.modLanes (lanes.inter (LaneSet.those fun x => (s.lane x).acts)) fun _ l => (l.writeW1c addr value hold).getD l

/-- CYC_DROP_CAUSE_CLR (R44). -/
def execCycDropCauseClr (lanes : LaneSet) (value hold : Word) (s : State) : Answer :=
  .next (clearIn lanes 0x820 value hold s.begin)

/-- SEAT_NF_CLR (R101). -/
def execSeatNfClr (lanes : LaneSet) (value hold : Word) (s : State) : Answer := .next (clearIn lanes 0xFE4 value hold s.begin)

/-- SEAT_FAULT_CLR (R121). -/
def execSeatFaultClr (lanes : LaneSet) (value hold : Word) (s : State) : Answer :=
  .next (clearIn lanes 0xC14 value hold s.begin)

/-- CVU_FAULT_CLR (R130). -/
def execCvuFaultClr (lanes : LaneSet) (value hold : Word) (s : State) : Answer :=
  .next (clearIn lanes 0x3008 value hold s.begin)

/-- CLK_FORCED_CLR (R338). -/
def execClkForcedClr (lanes : LaneSet) (value hold : Word) (s : State) : Answer :=
  .next (clearIn lanes 0x2000 value hold s.begin)

/-- PWR_STATUS_CLR (R354). -/
def execPwrStatusClr (lanes : LaneSet) (value hold : Word) (s : State) : Answer :=
  .next (clearIn lanes 0x2404 value hold s.begin)

/-- SUP_WARN_CLR (R354). -/
def execSupWarnClr (lanes : LaneSet) (value hold : Word) (s : State) : Answer :=
  .next (clearIn lanes 0x2420 value hold s.begin)

/-- STS_FAULT_CLR (R387). -/
def execStsFaultClr (lanes : LaneSet) (value hold : Word) (s : State) : Answer :=
  .next (clearIn lanes 0x4C value hold s.begin)

/-- SEC_TAP_EN_WRITE (R321). -/
def execSecTapEnWrite (lanes : LaneSet) (value : Word) (s : State) : Answer :=
  let s := s.begin
  .next (s.modLanes (lanes.inter (LaneSet.those fun x => (s.lane x).acts)) fun _ l =>
    (l.writeTap s.countsArmed value).2)

end Sys2Proof.Machine
end

