-- ==== Sys2Proof/Machine/Critical.lean ====
section
/-!
DEFINITION. Host commands and the preparation of critical commands (spec/12_cluster_and_host.md R277, R279 to R283;
spec/14_keys_and_trust.md R314): CMD_POST, CRIT_PREPARE, WS_UNLOCK, CHALLENGE_EXPIRY, and the checks of a confirm up to its
CMAC.
-/
namespace Sys2Proof.Machine
open Config

/-- A lane acts on a session's command: it has come alive, holds the session's keys, and the port by which its frames arrive is
not down in it (R274, R326, R333). -/
def State.obeys (s : State) (k : Session) (x : LaneId) : Bool := (s.lane x).acts && (s.lane x).live && k.lanes.has x &&
  !(s.lane x).meter.portDown.getLsbD (if k.tunnel.isSome then 5 else 7)

/-- A lane of a module settles a command in each lane of a set that acts on the session. -/
def State.inLanes (s : State) (k : Session) (lanes : LaneSet) (f : State → LaneId → State) : State :=
  laneList.foldl (fun t x => if lanes.has x && t.obeys k x then f t x else t) s

/-- A lane answers with a body; the response leaves as the response lane settles it (R279). -/
def State.answerWith (s : State) (x : LaneId) (k : Session) (req : Word) (obj status : Byte) (body : List Byte) : State :=
  if s.respLane k == some x then s.reply k.id req obj status body else s

/-- The status with which APPLY_CYC is refused on receipt (R279, R280): at or after the own freeze of APPLY_CYC − 1, or
more than 256 cycles ahead. -/
def Lane.applyRefusal (l : Lane) (m : Cycle) : Option Byte :=
  let n := l.cyc.num.toNat
  if m.toNat ≤ n || (m.toNat = n + 1 && l.cyc.frozen) then some 5
  else if n + 256 < m.toNat then some 6 else none

/-- A post waits for its freeze. -/
def Lane.addPost (l : Lane) (p : Post) : Lane := { l with host := { l.host with posts := l.host.posts ++ [p] } }

/-- CMD_POST in a lane (R279, R280). -/
def State.postIn (s : State) (k : Session) (p : Post) (slot : Half) (x : LaneId) : State :=
  let l := s.lane x
  let no (c : Byte) : State :=
    (s.setLane x { l with host := l.host.notePost (Verdict.no c) }).answerWith x k p.req 3 c []
  if 3071 < slot.toNat then no 3
  else if !l.runsLogic then no 0x0E
  else match l.applyRefusal p.cyc with
    | some c => no c
    | none => s.setLane x (l.addPost p)

/-- CMD_POST (R277, R279): a session with host role rights posts a pulse in an ordinary slot. -/
def execCmdPost (sess : Nat) (req : Word) (lanes : LaneSet) (slot value : Half) (applyCyc : Cycle) (s : State) : Answer :=
  let s := s.begin
  .next (s.serve sess fun k =>
    if k.maint || k.comm then s.respond k req 3 2 []
    else
      let p : Post := { sess := sess, req := req, cyc := applyCyc, op := 0, wsId := 0, kind := .pulse slot value }
      s.inLanes k lanes fun t x => t.postIn k p slot x)

/-- PLEN that an OP takes; the length of a force command is judged by its home rule (R281, R295). -/
def plenOk (op : Byte) (n : Nat) : Bool :=
  if op = 1 || op = 2 then n == 4
  else if op = 3 then n ≤ 64
  else if op = 4 then n == 0
  else if op = 5 || op = 7 then n == 1
  else op == 6 && n == 2

/-- Area scope: OP 1 to 3 (R281). -/
def areaScope (op : Byte) : Bool := op == 1 || op == 2 || op == 3

/-- The challenge of a critical command (R282). -/
def Lane.challengeOf (l : Lane) (op : Byte) (wsId : Word) (prepCyc : Cycle) (params : List Byte) : BitVec 128 :=
  let scope := if areaScope op then bytesOf l.boot.areaId ++ List.replicate 12 0 else midBytes
  (sha384 ([0x4E, 0x44, 0x54, 0x43] ++ scope ++ [op] ++ bytesOf wsId ++ bytesOf prepCyc ++
    [BitVec.ofNat 8 params.length] ++ params)).extractLsb' 256 128

/-- The status with which a prepare is refused for its fields (R277, R281, R282). -/
def Lane.prepareRefusal (l : Lane) (op : Byte) (prepCyc : Cycle) (params : List Byte) : Option Byte :=
  let n := l.cyc.num.toNat
  let slot := beAt params 0 2
  if !plenOk op params.length then some 1
  else if (op = 1 || op = 2) && !(3072 ≤ slot && slot ≤ 4095) then some 3
  else if !l.mode.armed && l.mode.mode = 0 then (if prepCyc = 0 then none else some 1)
  else if prepCyc.toNat + 256 < n then some 5
  else if n + 256 < prepCyc.toNat then some 6 else none

/-- A session has a prepared command that waits. -/
def HostSt.pends (h : HostSt) (sess : Nat) : Bool := h.prepared.any fun p => p.waits && p.sessions.contains sess

/-- A prepare in a lane: its status and the lane (R282). A held challenge is returned again, and counts for each session that
posted it. -/
def Lane.prepare (l : Lane) (sess : Nat) (p : Prepared) : Byte × Lane :=
  let h := l.host
  let put (ps : List Prepared) : Lane := { l with host := { h with prepared := ps } }
  match h.prepared.find? fun q => q.challenge == p.challenge && !q.expired with
  | some q =>
    if q.confirmed then (9, l)
    else if q.sessions.contains sess then (0, l)
    else if h.pends sess then (0x0C, l)
    else (0, put (h.prepared.map fun r => if r.challenge = q.challenge ∧ r.waits then { r with sessions := r.sessions ++ [sess] } else r))
  | none =>
    if h.pends sess || 8 ≤ (h.prepared.filter (·.waits)).length then (0x0C, l)
    else (0, put ((h.prepared.filter fun q => q.challenge != p.challenge) ++ [p]))

/-- CRIT_PREPARE (R282). -/
def execCritPrepare (sess : Nat) (req : Word) (lanes : LaneSet) (op : Byte) (wsId : Word) (prepCyc : Cycle)
    (params : List Byte) (s : State) : Answer :=
  let s := s.begin
  .next (s.serve sess fun k =>
    if !k.general then s.respond k req 4 2 []
    else s.inLanes k lanes fun t x =>
      let l := t.lane x
      match l.prepareRefusal op prepCyc params with
      | some c => t.answerWith x k req 4 c []
      | none =>
        let ch := l.challengeOf op wsId prepCyc params
        let p : Prepared :=
          { challenge := ch, op := op, wsId := wsId, prepCyc := prepCyc, params := params, sessions := [sess],
            expired := false, confirmed := false }
        let r := l.prepare sess p
        (t.setLane x r.2).answerWith x k req 4 r.1 (if r.1 = 0 then bytesOf ch else []))

/-- A lock whose 600 s have passed: its last cycle is behind the lane, which counts them in cycles (R283, R314); a lane that
runs none has no count of its own, and the event tells it. -/
def Lane.lockOver (l : Lane) (k : Word × Cycle) : Bool := !l.inCycle || k.2.toNat ≤ l.cyc.num.toNat

/-- WS_UNLOCK (R283): the lock of a workstation ends after 600 s. -/
def execWsUnlock (l : LaneId) (wsId : Word) (s : State) : Answer :=
  .next (s.begin.modLane l fun m =>
    { m with host := { m.host with locks := m.host.locks.filter fun k => !(k.1 == wsId && m.lockOver k) } })

/-- The window of a challenge passes (R282): a command that waited is kept, to refuse a late confirm with 0x05; one that was
confirmed, or whose window had passed before, is gone. -/
def HostSt.expire (h : HostSt) (ch : BitVec 128) : HostSt :=
  let hit (p : Prepared) : Bool := p.challenge == ch
  { h with
    prepared := h.prepared.filterMap fun p =>
      if !hit p then some p else if p.waits then some { p with expired := true } else none,
    expired := h.expired + (h.prepared.filter fun p => hit p && p.waits).length }

/-- CHALLENGE_EXPIRY (R282). -/
def execChallengeExpiry (l : LaneId) (challenge : BitVec 128) (s : State) : Answer :=
  .next (s.begin.modLane l fun m => { m with host := m.host.expire challenge })

/-- Cycles in 600 s (R283); the lane counts none before an image is loaded. -/
def Lane.lockCycles (l : Lane) : Nat :=
  match l.boot.img with
  | none => 0
  | some img => 6000000 / img.hdr.tCycle

/-- A failed CMAC (R283, R286, R323): the third of one workstation within 600 s locks it. -/
def Lane.failCmac (l : Lane) (ws : Word) : Lane :=
  let h := l.host
  let fs := (h.fails ++ [(ws, l.cyc.num)]).filter fun f => l.cyc.num.toNat ≤ f.2.toNat + l.lockCycles
  let locks := 3 ≤ (fs.filter fun f => f.1 == ws).length
  { l with
    host := { h with fails := if locks then fs.filter (fun f => f.1 != ws) else fs,
                     locks := if locks then h.locks ++ [(ws, l.cyc.num + BitVec.ofNat 48 l.lockCycles)] else h.locks, cmacFail := h.cmacFail + 1 },
    sec := { l.sec with wsFail := ws.setWidth 16 } }

/-- The CMAC of a confirm under the registered key of the workstation (R282); no key verifies none. -/
def Lane.cmacOk (l : Lane) (p : Prepared) (m : ConfirmMsg) : Bool :=
  match l.nv.ws.find? fun k => k.wsId == p.wsId with
  | none => false
  | some k => cmac k.key (bytesOf m.challenge ++ bytesOf m.applyCyc ++ [p.op]) == m.cmac

/-- The prepared command that a confirm names. -/
def Lane.preparedFor (l : Lane) (m : ConfirmMsg) : Option Prepared :=
  l.host.prepared.find? fun p => p.challenge == m.challenge

/-- Steps 1 to 4 of a confirm in a lane (R282): the status that refuses it, or the command, whose challenge is then confirmed. -/
def Lane.checkConfirm (l : Lane) (m : ConfirmMsg) : Lane × Except Byte Prepared :=
  match l.preparedFor m with
  | none => (l, .error 9)
  | some p =>
    let note (t : Lane) (c : Byte) : Lane × Except Byte Prepared :=
      ({ t with host := t.host.noteConfirm p.op p.wsId (Verdict.no c) }, .error c)
    if p.confirmed then (l, .error 9)
    else if p.expired then note l 5
    else if l.host.locks.any (fun k => k.1 == p.wsId) then note l 0x0B
    else if !l.cmacOk p m then note (l.failCmac p.wsId) 0x0A
    else
      ({ l with host := { l.host with prepared := l.host.prepared.map fun q =>
          if q.challenge = p.challenge then { q with confirmed := true } else q } }, .ok p)

end Sys2Proof.Machine
end

