-- ==== Sys2Proof/Machine/Arming.lean ====
section
/-!
DEFINITION. The arming check (spec/07_data_key.md R155 to R160; spec/16_supplies_and_power.md R347;
spec/14_keys_and_trust.md R318, R321): dynamic items, the role taken, and what an accepted arming leaves.
-/
namespace Sys2Proof.Machine

/-- Role of a standby by the parameter STANDBY: hot and qualifying, or dormant (R146, R158). -/
def standbyRole (img : Image) : BitVec 4 := if img.params.standby = 1 then 3 else 2

/-- The role that the arming gives, or the code that refuses it (R158, R160). -/
def Lane.roleTaken (l : Lane) (img : Image) : Except Byte (BitVec 4) :=
  match l.ptn.last with
  | none => .ok 0
  | some h =>
    if !l.hasPartner then .ok 0
    else if h.areaId != img.params.areaId then .error 0x62
    else if h.role = 0 then
      if l.sameImage then .ok (standbyRole img)
      else if h.gen.toNat < img.hdr.gen.toNat then .ok 4 else .error 0x63
    else if !l.sameImage then .error 0x62
    else .ok (if img.params.prefSlot = img.own then 0 else standbyRole img)

/-- The role check refuses with a code (R160). -/
def Lane.roleFails (l : Lane) (img : Image) (code : Byte) : Bool :=
  match l.roleTaken img with
  | .ok _ => false
  | .error c => c == code

/-- Lowest position of a station whose generation record is absent or below KEY_GEN (R160, 0x83). -/
def Lane.unkeyedStation (l : Lane) (img : Image) : Option Nat :=
  ((positions img.stations).find? fun p =>
    match l.gen p.1 with
    | none => true
    | some g => g.cur.toNat < p.2.keyGen.toNat).map (·.1)

/-- A border key of a neighbour is held at its generation or above (R160, R318). -/
def Lane.borderKeyed (l : Lane) (r : NbRec) : Bool :=
  l.nv.peers.any fun k => k.purpose == 0x42 && k.slot == r.nbSlot && r.keyGen.toNat ≤ k.gen.toNat

/-- Partner keys are held and a generation is in use (R318). -/
def Lane.partnerKeyed (l : Lane) (img : Image) : Bool :=
  !(l.partnerKeys img.partnerSlot).isEmpty && l.nv.uses.any fun u => u.1 == 0x48 && u.2.1 == img.params.areaId

/-- Lowest neighbour without its border key, or 8 for the partner keys (R160, 0x84; R318). -/
def Lane.unkeyedPeer (l : Lane) (img : Image) : Option Nat :=
  match (positions img.nbs).find? fun p => p.2.used.getLsbD 0 && !l.borderKeyed p.2 with
  | some p => some p.1
  | none => if l.hasPartner && !l.partnerKeyed img then some 8 else none

/-- Dynamic items of the reason code table that a lane at stage 5 judges (R155, R160). -/
def Lane.armItems (l : Lane) (img : Image) (f : Fcu) : List (Byte × Option Nat) :=
  [item 0x24 (failWhen (l.boot.set.count < img.params.minLanes.toNat)), item 0x55 (failWhen (!f.testsOk || f.fault)),
   item 0x60 (failWhen l.ring.dup), item 0x62 (failWhen (l.roleFails img 0x62)), item 0x63 (failWhen (l.roleFails img 0x63)),
   item 0x73 (failWhen l.crossed), item 0x82 (failWhen l.nv.master.isNone), item 0x83 (l.unkeyedStation img),
   item 0x84 (l.unkeyedPeer img), item 0x90 (failWhen (!l.force.table.isEmpty))]

/-- The code of a lane and its INDEX (R155, R159, R160); an arming that was accepted before still runs. -/
def Lane.armCode (l : Lane) (f : Fcu) : Byte × Nat :=
  if l.mode.accepted || (!l.mode.armed && l.mode.mode = 0 && l.boot.stage = 4) then (0x93, 0)
  else if !l.atStage5 then (0x91, 0)
  else match l.boot.img with
    | none => (0x91, 0)
    | some img => lowestCode (l.armItems img f)

/-- The role an accepted arming gives. -/
def Lane.armRole (l : Lane) (img : Image) : BitVec 4 :=
  match l.roleTaken img with
  | .ok r => r
  | .error _ => 5

/-- What an accepted arming leaves in a lane (R155, R157, R158, R206, R321, R347): the lanes that passed are in service from
the first boundary. -/
def Lane.acceptArming (l : Lane) (img : Image) (pass : LaneSet) : Lane :=
  let code (x : LaneId) : BitVec 4 := if pass.has x then 1 else 0
  { l with
    boot := { l.boot with code := 0, index := 0 }, mode := { l.mode with accepted := true, takes := l.armRole img, marks := noLanes },
    vote := { Vote.init with service := pass, codes := { a := code .a, b := code .b, c := code .c } },
    nv := (l.raiseFloor img.hdr.gen).nv,
    sec := { l.sec with tap := false }, pwr := { l.pwr with admitOps := admitPoints img.hdr } }

/-- ARM_REASON of a lane at stage 5 whose arming failed (R155). A second confirm refused with 0x93 while an accepted arming
waits writes 0x93 too, the model's choice (log entry 107). -/
def Lane.refuseArming (l : Lane) (r : Byte × Nat) : Lane :=
  if l.atStage5 then { l with boot := { l.boot with code := r.1, index := r.2 } } else l

/-- MIN_LANES of a lane's image. -/
def Lane.minLanes (l : Lane) : Nat := ((l.boot.img).map fun i => i.params.minLanes.toNat).getD 0

/-- The arming settles in one lane: `pass` are the lanes that report 0x00, `split` tells that another one reports a failure;
too few lanes without a failure are too few lanes in the set (R156, R160). -/
def State.armLane (s : State) (pass : LaneSet) (split : Bool) (own : Byte × Nat) (m : ConfirmMsg) (p : Prepared) (x : LaneId) : State :=
  let l := s.lane x
  let go := pass.has x && l.minLanes ≤ pass.count
  let r := if own.1 = 0 && !go then (if split then (0x25, 0) else (0x24, 0)) else own
  let v := if go then Verdict.ok else Verdict.home r.1
  let t := match l.boot.img with
    | none => s
    | some img => s.setLane x (if go then l.acceptArming img pass else l.refuseArming r)
  let t := t.modLane x fun l => { l with host := l.host.noteConfirm p.op p.wsId v }
  let t := if go then t.xcast x .startMark else t
  (t.notify x 4).answer x m.sess m.req 5 v

/-- The arming check over the lanes in which the confirm was verified (R155, R156); when the module arms, every lane raises its
generation floor (R157) and its test access port is disabled (R321). -/
def State.arm (s : State) (verified : LaneSet) (m : ConfirmMsg) (p : Prepared) : State :=
  let code (x : LaneId) : Byte × Nat := (s.lane x).armCode s.fcu
  let pass := LaneSet.those fun x => verified.has x && (code x).1 == 0
  let split := laneList.any fun x => verified.has x && (code x).1 != 0
  let t := laneList.foldl (fun t x => if verified.has x then t.armLane pass split (code x) m p x else t) s
  match (laneList.find? fun x => pass.has x && (s.lane x).minLanes ≤ pass.count).bind fun x => (s.lane x).boot.img with
  | none => t
  | some img =>
    (t.mapLanes fun _ l => { l with sec := { l.sec with tap := false } }).mapLanes fun _ l =>
      if l.live then l.raiseFloor img.hdr.gen else l

end Sys2Proof.Machine
end

