-- ==== Sys2Proof/Machine/Confirm.lean ====
section
/-!
DEFINITION. CRIT_CONFIRM and the rows of the critical commands it confirms (spec/12_cluster_and_host.md R281, R282;
spec/13_modes_and_forcing.md R288, R291, R297; spec/11_partner_and_failover.md R256; spec/08_field_telegrams.md R172).
-/
namespace Sys2Proof.Machine

/-- A command of module scope is not possible in the lane's mode or role (R280, R281): HANDOVER goes to the active, RE_KEY to
an armed module. -/
def Lane.notHere (l : Lane) (op : Byte) : Bool :=
  (op == 5 && !(l.runsLogic && l.ptn.role == 0)) || (op == 6 && !l.mode.armed) || (op != 7 && l.boot.img.isNone)

/-- A lane refuses a verified confirm. -/
def State.refuse (s : State) (x : LaneId) (m : ConfirmMsg) (p : Prepared) (v : Verdict) : State :=
  (s.modLane x fun l => { l with host := l.host.noteConfirm p.op p.wsId v }).answer x m.sess m.req 5 v

/-- A force command in START at stage 5 settles at once (R297). -/
def Lane.forceNow (l : Lane) (img : Image) (action : Byte) (node : Nat) (v : Half) : Lane × Verdict :=
  let r := l.settleForce img action node v 0
  ({ r.1 with force := { r.1.force with table := r.1.force.table.filterMap fun f => f.stepTo 0 } }, r.2)

/-- NODE of a force command (R291). -/
def forceNode (b : List Byte) : Nat := beAt b 1 4

/-- VALUE of a force command (R291). -/
def forceVal (b : List Byte) : Half := BitVec.ofNat 16 (beAt b 5 2)

/-- ACTION of a force command; 0, which is none, where PLEN is not 7 (R291, R295). -/
def Prepared.action (p : Prepared) : Byte := if p.params.length = 7 then byteAt p.params 0 else 0

/-- What an area-scope command posts (R281, R291). -/
def Prepared.post (p : Prepared) (m : ConfirmMsg) : Post :=
  { sess := m.sess, req := m.req, cyc := m.applyCyc, op := p.op, wsId := p.wsId,
    kind := if p.op = 3 then .force p.action (forceNode p.params) (forceVal p.params)
      else .pulse (BitVec.ofNat 16 (beAt p.params 0 2)) (BitVec.ofNat 16 (beAt p.params 2 2)) }

/-- An area-scope confirm settles in a lane (R279, R282, R295, R297). -/
def State.confirmArea (s : State) (x : LaneId) (m : ConfirmMsg) (p : Prepared) : State :=
  let l := s.lane x
  if l.atStage5 && p.op = 3 then
    match l.boot.img with
    | none => s.refuse x m p (Verdict.no 0x0E)
    | some img =>
      let r := l.forceNow img p.action (forceNode p.params) (forceVal p.params)
      ((s.setLane x r.1).refuse x m p r.2).notify x 3
  else if !l.runsLogic then s.refuse x m p (Verdict.no 0x0E)
  else match l.applyRefusal m.applyCyc with
    | some c => s.refuse x m p (Verdict.no c)
    | none => s.setLane x (l.addPost (p.post m))

/-- A module-scope confirm settles in a lane (R282, R288): in the first cycle whose freeze follows, or at once where the lane
has no freeze. APPLY_CYC is 0. A mode change in START before an image is loaded names no transition of R288. -/
def State.confirmModule (s : State) (x : LaneId) (m : ConfirmMsg) (p : Prepared) : State :=
  let l := s.lane x
  let c : ModCmd := { sess := m.sess, req := m.req, op := p.op, wsId := p.wsId, params := p.params }
  if m.applyCyc != 0 then s.refuse x m p (Verdict.no 1)
  else if l.notHere p.op then s.refuse x m p (Verdict.no 0x0E)
  else match l.boot.img with
    | none => (s.modLane x fun l => { l with force := { l.force with lastCode := 0x11, lastNode := 0 } }).refuse x m p (Verdict.home 0x11)
    | some img =>
      if l.inCycle then s.setLane x { l with host := { l.host with modCmds := l.host.modCmds ++ [c] } }
      else (s.settleModule x img c)

/-- A confirm reaches a lane (R282): refused at steps 1 to 4, settled, or left for the arming check of the module. -/
def State.confirmLane (s : State) (k : Session) (m : ConfirmMsg) (x : LaneId) : State :=
  let r := (s.lane x).checkConfirm m
  let t := s.setLane x r.1
  match r.2 with
  | .error c => t.answerWith x k m.req 5 c []
  | .ok p =>
    if areaScope p.op then t.confirmArea x m p
    else if p.op = 4 then t
    else t.confirmModule x m p

/-- Lanes in which a confirm is verified for ARMING. -/
def State.armsIn (s : State) (k : Session) (m : ConfirmMsg) : LaneSet :=
  LaneSet.those fun x => m.lanes.has x && s.obeys k x &&
    (match ((s.lane x).checkConfirm m).2 with
     | .ok p => p.op == 4
     | .error _ => false)

/-- The command that a confirm settles in some lane of those it names. -/
def State.confirmed (s : State) (m : ConfirmMsg) : Option Prepared := laneList.findSome? fun x => (s.lane x).preparedFor m

/-- A confirm reaches the lanes it names (R282). -/
def State.confirm (s : State) (m : ConfirmMsg) : State :=
  s.serve m.sess fun k =>
    if !k.general then s.respond k m.req 5 2 []
    else
      let arms := s.armsIn k m
      let t := s.inLanes k m.lanes fun t x => t.confirmLane k m x
      match s.confirmed m with
      | some p => if arms.count = 0 then t else t.arm arms m p
      | none => t

/-- A confirm of a command with a given OP; another one does not belong to the row (log entry 12). -/
def State.confirmOf (s : State) (op : Byte) (m : ConfirmMsg) : State :=
  match s.confirmed m with
  | some p => if p.op = op then s.confirm m else s
  | none => s

/-- CRIT_CONFIRM (R282). -/
def execCritConfirm (m : ConfirmMsg) (s : State) : Answer := .next (s.begin.confirm m)

/-- EMERGENCY_RELEASE, OP 1 (R281). -/
def execEmergencyRelease (m : ConfirmMsg) (s : State) : Answer := .next (s.begin.confirmOf 1 m)

/-- SECTION_RESET, OP 2 (R281). -/
def execSectionReset (m : ConfirmMsg) (s : State) : Answer := .next (s.begin.confirmOf 2 m)

/-- A confirm of a force command with a given ACTION (R291). -/
def State.confirmForce (s : State) (action : Byte) (m : ConfirmMsg) : State :=
  match s.confirmed m with
  | some p => if p.op = 3 ∧ byteAt p.params 0 = action then s.confirm m else s
  | none => s

/-- FORCE_SET, OP 3 with ACTION 1 (R291). -/
def execForceSet (m : ConfirmMsg) (s : State) : Answer := .next (s.begin.confirmForce 1 m)

/-- FORCE_REMOVE, OP 3 with ACTION 2 (R291). -/
def execForceRemove (m : ConfirmMsg) (s : State) : Answer := .next (s.begin.confirmForce 2 m)

/-- FORCE_REMOVE_ALL, OP 3 with ACTION 3 (R291). -/
def execForceRemoveAll (m : ConfirmMsg) (s : State) : Answer := .next (s.begin.confirmForce 3 m)

/-- ARMING, OP 4 (R155). -/
def execArming (m : ConfirmMsg) (s : State) : Answer := .next (s.begin.confirmOf 4 m)

/-- HANDOVER, OP 5 (R256, R257). -/
def execHandover (m : ConfirmMsg) (s : State) : Answer := .next (s.begin.confirmOf 5 m)

/-- RE_KEY, OP 6 (R172, R315). -/
def execReKey (m : ConfirmMsg) (s : State) : Answer := .next (s.begin.confirmOf 6 m)

/-- MODE_CHANGE, OP 7 (R288). -/
def execModeChange (m : ConfirmMsg) (s : State) : Answer := .next (s.begin.confirmOf 7 m)

end Sys2Proof.Machine
end

