-- ==== Sys2Proof/Machine/Freeze.lean ====
section
/-!
DEFINITION. FREEZE (spec/02_the_cycle.md R29; spec/09_agreement_and_vote.md R194; spec/12_cluster_and_host.md R271, R279;
spec/13_modes_and_forcing.md R288, R299; spec/19_register_space.md R381).
-/
namespace Sys2Proof.Machine

/-- Epoch and cycle of a complete set, from its first segment (R271). -/
def setStamp (t : List BorderSeg) : Nat × Nat :=
  match t with
  | [] => (0, 0)
  | g :: _ => (g.epoch.toNat, g.cyc.toNat)

/-- One set is newer than another: by epoch, then by cycle (R271). -/
def setNewer (a b : List BorderSeg) : Bool :=
  let x := setStamp a
  let y := setStamp b
  decide (y.1 < x.1) || (x.1 == y.1 && decide (y.2 < x.2))

/-- The newest of the complete sets taken into the intake (R271). -/
def newestSet : List (List BorderSeg) → Option (List BorderSeg)
  | [] => none
  | t :: r => some (r.foldl (fun b u => if setNewer u b then u else b) t)

/-- A neighbour's candidate for the cycle (R271). -/
def NbState.freeze (b : NbState) : NbState := { b with cand := newestSet b.ready, ready := [] }

/-- The lane closes its input set (R29): its candidates as it reports them, and its border candidates. -/
def Lane.closeInputs (l : Lane) : Lane :=
  { l with
    cyc := { l.cyc with frozen := true, phase := 4 },
    field := { l.field with reported := l.field.cands.map fun p => (p.1, p.2.map fun t => t.seq.setWidth 16) },
    ring := { l.ring with nbs := l.ring.nbs.map NbState.freeze } }

/-- The round-1 frame of a lane (R194). -/
def Lane.round1Frame (l : Lane) : Round1 :=
  { cyc := l.cyc.num, cands := l.field.reported.filterMap fun p => p.2.map fun v => (p.1, v) }

/-- The lane's freeze of the running cycle is still to come. -/
def Lane.freezes (l : Lane) : Bool := l.inCycle && !l.cyc.frozen

/-- The freeze of a lane: one that runs its phases closes its input set (R29, R207). -/
def Lane.freeze (l : Lane) (x : LaneId) : Lane :=
  if l.phased x then l.closeInputs else { l with cyc := { l.cyc with frozen := true } }

/-- A lane in service sends its round-1 frame (R194). -/
def State.sendRound1 (s : State) (x : LaneId) : State :=
  if (s.lane x).serves x then s.xcast x (.round1 (s.lane x).round1Frame) else s

/-- The lane's module has left the modes that run the logic at this freeze: posts that wait are not possible in its mode, and
are answered so (R279, R280, R291). -/
def State.refusePosts (s : State) (x : LaneId) : State :=
  let ps := (s.lane x).host.posts
  let s := s.modLane x fun l => { l with host := { l.host with posts := [] } }
  ps.foldl
    (fun t p =>
      let t := t.modLane x fun l => { l with host := l.host.note p (Verdict.no 0x0E) }
      let t := match p.kind with
        | .force _ _ _ => t.notify x 3
        | .pulse _ _ => t
      t.answer x p.sess p.req p.obj (Verdict.no 0x0E)) s

/-- FREEZE (R29): module-scope commands settle first, then the posts for the next cycle (R299), in
an excluded lane as well; a lane that runs its phases closes its input set, sends its round-1 frame and samples the voted reads stamped with the cycle. -/
def execFreeze (l : LaneId) (s : State) : Answer :=
  let s := s.begin
  match (s.lane l).boot.img with
  | none => .next s
  | some img =>
    if !(s.lane l).freezes then .next s
    else
      let s := s.settleModules l img
      if !(s.lane l).freezes then .next (s.refusePosts l)
      else
        let s := (s.settlePosts l img).modLane l fun m => m.freeze l
        .next (((s.sendRound1 l).tryRound1 l).sampleFreeze l)

end Sys2Proof.Machine
end

