-- ==== Sys2Proof/Machine/Node.lean ====
section
/-!
DEFINITION. The meanings of the node instructions (spec/04_node_programs.md R79): each names the word that the seat
fetched and what the instruction comes to.
-/
namespace Sys2Proof.Machine

/-- LD (R80). -/
def execLd (l : LaneId) (x : SeatId) (f : FmtN) (s : State) : Answer :=
  .next (nodeCommand l x (wordN 0x01 f) (fun c => evalLd c f) s)

/-- ST (R81). -/
def execSt (l : LaneId) (x : SeatId) (f : FmtN) (s : State) : Answer :=
  .next (nodeCommand l x (wordN 0x02 f) (fun c => evalSt c f) s)

/-- AND.N (R80). -/
def execAndN (l : LaneId) (x : SeatId) (f : FmtN) (s : State) : Answer :=
  .next (nodeCommand l x (wordN 0x03 f) (fun c => evalBoolNode bAnd c f) s)

/-- OR.N (R80). -/
def execOrN (l : LaneId) (x : SeatId) (f : FmtN) (s : State) : Answer :=
  .next (nodeCommand l x (wordN 0x04 f) (fun c => evalBoolNode bOr c f) s)

/-- ANDN.N (R80). -/
def execAndnN (l : LaneId) (x : SeatId) (f : FmtN) (s : State) : Answer :=
  .next (nodeCommand l x (wordN 0x05 f) (fun c => evalBoolNode bAndn c f) s)

/-- SUBR (R80). -/
def execSubr (l : LaneId) (x : SeatId) (f : FmtN) (s : State) : Answer :=
  .next (nodeCommand l x (wordN 0x06 f) (fun c => evalSubr c f) s)

/-- EDG (R83). -/
def execEdg (l : LaneId) (x : SeatId) (f : FmtN) (s : State) : Answer :=
  .next (nodeCommand l x (wordN 0x07 f) (fun c => evalEdg c f) s)

/-- TSTART (R86). -/
def execTstart (l : LaneId) (x : SeatId) (f : FmtN) (s : State) : Answer :=
  .next (nodeCommand l x (wordN 0x08 f) (fun c => evalTstart c f) s)

/-- TSTOP (R86). -/
def execTstop (l : LaneId) (x : SeatId) (f : FmtN) (s : State) : Answer :=
  .next (nodeCommand l x (wordN 0x09 f) (fun c => evalTstop c f) s)

/-- TQRY (R86). -/
def execTqry (l : LaneId) (x : SeatId) (f : FmtN) (s : State) : Answer :=
  .next (nodeCommand l x (wordN 0x0A f) (fun c => evalTimerRead tCount c f) s)

/-- TEXP (R86). -/
def execTexp (l : LaneId) (x : SeatId) (f : FmtN) (s : State) : Answer :=
  .next (nodeCommand l x (wordN 0x0B f) (fun c => evalTimerRead (fun v => flag (tExpired v)) c f) s)

/-- TRUN (R86). -/
def execTrun (l : LaneId) (x : SeatId) (f : FmtN) (s : State) : Answer :=
  .next (nodeCommand l x (wordN 0x0C f) (fun c => evalTimerRead (fun v => flag (tRunning v)) c f) s)

/-- MOV (R82). -/
def execMov (l : LaneId) (x : SeatId) (f : FmtG) (s : State) : Answer :=
  .next (nodeCommand l x (wordG 0x10 f) (fun c => evalMov c f) s)

/-- NOT (R82). -/
def execNot (l : LaneId) (x : SeatId) (f : FmtG) (s : State) : Answer :=
  .next (nodeCommand l x (wordG 0x11 f) (fun c => evalNot c f) s)

/-- AND (R82). -/
def execAnd (l : LaneId) (x : SeatId) (f : FmtG) (s : State) : Answer :=
  .next (nodeCommand l x (wordG 0x12 f) (fun c => evalBool bAnd c f) s)

/-- OR (R82). -/
def execOr (l : LaneId) (x : SeatId) (f : FmtG) (s : State) : Answer :=
  .next (nodeCommand l x (wordG 0x13 f) (fun c => evalBool bOr c f) s)

/-- XOR (R82). -/
def execXor (l : LaneId) (x : SeatId) (f : FmtG) (s : State) : Answer :=
  .next (nodeCommand l x (wordG 0x14 f) (fun c => evalBool bXor c f) s)

/-- ANDN (R82). -/
def execAndn (l : LaneId) (x : SeatId) (f : FmtG) (s : State) : Answer :=
  .next (nodeCommand l x (wordG 0x15 f) (fun c => evalBool bAndn c f) s)

/-- SEL (R82). -/
def execSel (l : LaneId) (x : SeatId) (f : FmtG) (s : State) : Answer :=
  .next (nodeCommand l x (wordG 0x16 f) (fun c => evalSel c f) s)

/-- CMP (R82). -/
def execCmp (l : LaneId) (x : SeatId) (f : FmtG) (s : State) : Answer :=
  .next (nodeCommand l x (wordG 0x17 f) (fun c => evalCmp c f) s)

/-- CADD (R82). -/
def execCadd (l : LaneId) (x : SeatId) (f : FmtG) (s : State) : Answer :=
  .next (nodeCommand l x (wordG 0x18 f) (fun c => evalArith clampAdd c f) s)

/-- CSUB (R82). -/
def execCsub (l : LaneId) (x : SeatId) (f : FmtG) (s : State) : Answer :=
  .next (nodeCommand l x (wordG 0x19 f) (fun c => evalArith clampSub c f) s)

/-- LDI (R82). -/
def execLdi (l : LaneId) (x : SeatId) (f : FmtI) (s : State) : Answer :=
  .next (nodeCommand l x (wordI 0x1A f) (fun c => evalLdi c f) s)

/-- CMPI (R82). -/
def execCmpi (l : LaneId) (x : SeatId) (f : FmtI) (s : State) : Answer :=
  .next (nodeCommand l x (wordI 0x1B f) (fun c => evalCmpi c f) s)

/-- CADDI (R82). -/
def execCaddi (l : LaneId) (x : SeatId) (f : FmtI) (s : State) : Answer :=
  .next (nodeCommand l x (wordI 0x1C f) (fun c => evalArithImm clampAdd c f) s)

/-- CSUBI (R82). -/
def execCsubi (l : LaneId) (x : SeatId) (f : FmtI) (s : State) : Answer :=
  .next (nodeCommand l x (wordI 0x1D f) (fun c => evalArithImm clampSub c f) s)

/-- MTCH (R82). -/
def execMtch (l : LaneId) (x : SeatId) (f : FmtI) (s : State) : Answer :=
  .next (nodeCommand l x (wordI 0x1E f) (fun c => evalMtch c f) s)

/-- STN (R89). -/
def execStn (l : LaneId) (x : SeatId) (f : FmtC) (s : State) : Answer :=
  .next (nodeCommand l x (wordC 0x20 f) (fun c => evalStn c f) s)

/-- UNPK (R91). -/
def execUnpk (l : LaneId) (x : SeatId) (f : FmtF) (s : State) : Answer :=
  .next (nodeCommand l x (wordF 0x21 f) (fun c => evalUnpk c f) s)

/-- PACK (R93). -/
def execPack (l : LaneId) (x : SeatId) (f : FmtF) (s : State) : Answer :=
  .next (nodeCommand l x (wordF 0x22 f) (fun c => evalPack c f) s)

/-- CSEL (R95). -/
def execCsel (l : LaneId) (x : SeatId) (f : FmtG) (s : State) : Answer :=
  .next (nodeCommand l x (wordG 0x28 f) (fun c => evalCsel c f) s)

/-- CFB (R95). -/
def execCfb (l : LaneId) (x : SeatId) (f : FmtG) (s : State) : Answer :=
  .next (nodeCommand l x (wordG 0x29 f) (fun c => evalCfb c f) s)

/-- CFH (R95). -/
def execCfh (l : LaneId) (x : SeatId) (f : FmtG) (s : State) : Answer :=
  .next (nodeCommand l x (wordG 0x2A f) (fun c => evalCfh c f) s)

/-- CFW (R95). -/
def execCfw (l : LaneId) (x : SeatId) (f : FmtG) (s : State) : Answer :=
  .next (nodeCommand l x (wordG 0x2B f) (fun c => evalCfw c f) s)

/-- CRD (R95). -/
def execCrd (l : LaneId) (x : SeatId) (f : FmtG) (s : State) : Answer :=
  .next (nodeCommand l x (wordG 0x2C f) (fun c => evalCrd c f) s)

/-- CWR (R95). -/
def execCwr (l : LaneId) (x : SeatId) (f : FmtG) (s : State) : Answer :=
  .next (nodeCommand l x (wordG 0x2D f) (fun c => evalCwr c f) s)

/-- CCMP (R96). -/
def execCcmp (l : LaneId) (x : SeatId) (f : FmtG) (s : State) : Answer :=
  .next (nodeCommand l x (wordG 0x2E f) (fun c => evalCcmp c f) s)

/-- BR (R97). -/
def execBr (l : LaneId) (x : SeatId) (f : FmtB) (s : State) : Answer :=
  .next (nodeCommand l x (wordB 0x30 f) (fun c => evalBr c f) s)

/-- BRZ (R97). -/
def execBrz (l : LaneId) (x : SeatId) (f : FmtB) (s : State) : Answer :=
  .next (nodeCommand l x (wordB 0x31 f) (fun c => evalBrCond true c f) s)

/-- BRNZ (R97). -/
def execBrnz (l : LaneId) (x : SeatId) (f : FmtB) (s : State) : Answer :=
  .next (nodeCommand l x (wordB 0x32 f) (fun c => evalBrCond false c f) s)

/-- END (R97). -/
def execFin (l : LaneId) (x : SeatId) (f : FmtE) (s : State) : Answer :=
  .next (nodeCommand l x (wordE 0x3F f) (fun c => evalEnd c f) s)

/-- A seat fault of R113 in a seat that holds a hand, or in the returning seat during settle pairing, where it is
treated as a settle mismatch (R115). The seat's cycle work stands; the swap follows at the next boundary. -/
def execSeatFault (l : LaneId) (x : SeatId) (cause : BitVec 4) (s : State) : Answer :=
  .next (s.begin.modLane l fun m =>
    if m.cyc.running && (m.seat x).code == 3 then m.settleMismatch x 0xFFFFF
    else if m.cyc.running && (m.seat x).code == 1 then m.noteSeatFault x cause
    else m)

end Sys2Proof.Machine
end

