-- ==== Sys2Proof/Machine/Objects.lean ====
section
/-!
DEFINITION. The SHP objects EVT_SUB, REC_READ, IMG_READ and KEEPALIVE (spec/12_cluster_and_host.md R275, R277;
spec/18_event_recorder.md R373 to R375).
-/
namespace Sys2Proof.Machine

/-- EVT_SUB (R277): the session's event mask; bits 10 to 31 are reserved and select nothing. -/
def execEvtSub (sess : Nat) (req : Word) (mask : Word) (s : State) : Answer :=
  let s := s.begin
  .next (s.serve sess fun k =>
    if !k.general then s.respond k req 6 2 []
    else
      let j := { k with mask := mask &&& 0x3FF }
      (s.setSession j).respond j req 6 0 [])

/-- The lane that a REC_READ names, exactly one (R373). -/
def selOne (sel : LaneSel) : Option LaneId :=
  if sel.z != 0 || sel.voted || sel.lanes.count != 1 then none else laneList.find? fun x => sel.lanes.has x

/-- One entry of a REC_READ (R374, R375): the status byte and the 256 bytes as read. -/
def Lane.recEntry (l : Lane) (want : Word) (changing : Bool) : List Byte :=
  let slot := want.toNat % 65536
  let b := recBytes l.nv.recs (256 * slot) 256
  let held := ((slotSeq l.nv.recs slot).map fun q => q % 2 ^ 32 == want.toNat).getD false
  let st : Byte :=
    if !held then 1
    else if changing then 3
    else if crc32c (slice b 0 8 ++ slice b 12 240) = BitVec.ofNat 32 (beAt b 252 4) then 0 else 2
  st :: b

/-- REC_READ (R373 to R375): COUNT records by SEQ from one lane; `changing` names the entries that were still changing after
three attempts. A lane that does not act gives status 0x0E. -/
def execRecRead (sess : Nat) (req : Word) (sel : LaneSel) (first : Word) (count : Nat) (changing : List Nat) (s : State) :
    Answer :=
  let s := s.begin
  .next (s.serve sess fun k =>
    if !k.general then s.respond k req 8 2 []
    else match selOne sel with
      | none => s.respond k req 8 1 []
      | some x =>
        if count = 0 || 16 < count then s.respond k req 8 1 []
        else if !s.heeds k x then s.respond k req 8 0x0E []
        else s.respond k req 8 0
          ((List.range count).flatMap fun i => (s.lane x).recEntry (first + BitVec.ofNat 32 i) (changing.contains i)))

/-- IMG_READ in the response lane (R277): bytes of a section of the loaded image. -/
def Lane.imgBytes (l : Lane) (sect : Byte) (off : Word) (len : Nat) : Byte × List Byte :=
  match l.boot.img with
  | none => (0x0E, [])
  | some img =>
    if 4096 < len then (1, [])
    else match img.sections[sect.toNat]? with
      | none => (3, [])
      | some b => if b.length < off.toNat + len then (3, []) else (0, slice b off.toNat len)

/-- IMG_READ (R277). -/
def execImgRead (sess : Nat) (req : Word) (sect : Byte) (off : Word) (len : Nat) (s : State) : Answer :=
  let s := s.begin
  .next (s.serve sess fun k =>
    if !k.general then s.respond k req 9 2 []
    else match s.respLane k with
      | none => s
      | some x =>
        let r := (s.lane x).imgBytes sect off len
        s.respond k req 9 r.1 r.2)

/-- KEEPALIVE (R275, R277). -/
def execKeepalive (sess : Nat) (req : Word) (s : State) : Answer :=
  let s := s.begin
  .next (s.serve sess fun k => if k.general then s.respond k req 0x0B 0 [] else s.respond k req 0x0B 2 [])

end Sys2Proof.Machine
end

