-- ==== Sys2Proof/Machine/Provision.lean ====
section
/-!
DEFINITION. The provisioning object (spec/14_keys_and_trust.md R305 to R319, R322; spec/08_field_telegrams.md R173, R174):
CLAIM, CSR, CERT, ANCHOR, REVOKE, WS_REG, STN_PKG, PEER_EXPORT, PEER_IMPORT, PEER_USE, and a failed random generator; and
VOTED_VIEW_RX (R381), which carries package fields between lanes.
-/
namespace Sys2Proof.Machine
open Config

/-- What a sub-object does in a lane: a refusal, or the lane after it with the response body. Codes from 0x31 are those of
R319; others are statuses of R280. -/
abbrev ProvRes := Except Byte (Lane × List Byte)

/-- Sub-objects that a commissioning session may use: CLAIM, CSR, CERT and ANCHOR (R312). -/
def commissioning (sub : Byte) : Bool := sub == 1 || sub == 2 || sub == 3 || sub == 4

/-- A refusal by R319 is recorded in the lane and answered with 0x0D and the code; another is a status. -/
def State.provRefuse (s : State) (k : Session) (req : Word) (sub : Byte) (x : LaneId) (c : Byte) : State :=
  if 0x30 < c.toNat then (s.modLane x fun l => l.noteSec c sub).answerWith x k req 0x0A 0x0D [c]
  else s.answerWith x k req 0x0A c []

/-- Changes that wait for a boundary take effect at once in a lane that has none (R312 to R314, R318). -/
def State.provSettle (s : State) (x : LaneId) : State := if (s.lane x).hasBoundaries then s else s.settleSecurity x

/-- A sub-object in one lane. -/
def State.provLane (s : State) (k : Session) (req : Word) (sub : Byte) (f : Lane → LaneId → ProvRes) (x : LaneId) : State :=
  match f (s.lane x) x with
  | .error c => s.provRefuse k req sub x c
  | .ok r => ((s.setLane x r.1).answerWith x k req 0x0A 0 r.2).provSettle x

/-- A sub-object in every lane that acts (R277, R312, R319): a session without maintainer rights may not use it, and a
commissioning session only some. -/
def State.prov (s : State) (sess : Nat) (req : Word) (sub : Byte) (f : Session → Lane → LaneId → ProvRes) : State :=
  s.serve sess fun k =>
    if !k.maint then s.respond k req 0x0A 2 []
    else s.inLanes k allLanes (State.provLane · k req sub fun l x =>
      if k.comm && !commissioning sub then .error 0x34 else f k l x)

/-- Bytes that a CLAIM's signature covers (R308). -/
def claimBytes (slot : Nat) (hash : BitVec 384) : List Byte :=
  [0x4E, 0x44, 0x41, 0x43] ++ midBytes ++ [BitVec.ofNat 8 slot] ++ bytesOf hash

/-- CLAIM in a lane (R308). -/
def Lane.claimIn (l : Lane) (k : Session) (b : ClaimBody) : ProvRes :=
  let burnt : Lane := { l with nv := { l.nv with claims := l.nv.claims ++ [b.hash] } }
  if l.mode.armed || l.mode.mode != 0 then .error 0x34
  else match b.later with
    | none => if !l.nv.claims.isEmpty then .error 0x38 else if !k.ownJ10 then .error 0x34 else .ok (burnt, [])
    | some (pub, sig) =>
      if l.nv.claim != some (sha384 pub) || 4 ≤ l.nv.claims.length then .error 0x38
      else if ecdsaVerify pub (claimBytes l.nv.claims.length b.hash) sig then .ok (burnt, []) else .error 0x35

/-- CLAIM (R308). -/
def execClaim (sess : Nat) (req : Word) (body : ClaimBody) (s : State) : Answer :=
  .next (s.begin.prov sess req 1 fun k l _ => l.claimIn k body)

/-- Upper-case hexadecimal digit, in ASCII. -/
def hexDigit (n : Nat) : Byte := BitVec.ofNat 8 (if n < 10 then 0x30 + n else 0x37 + n)

/-- Upper-case hexadecimal text of some bytes. -/
def hexText (b : List Byte) : List Byte := b.flatMap fun v => [hexDigit (v.toNat / 16), hexDigit (v.toNat % 16)]

/-- Subject serialNumber of the module (R307). -/
def midText : List Byte := hexText midBytes

/-- CSR in a lane (R307). -/
def Lane.csrIn (l : Lane) : ProvRes :=
  match l.nv.secret with
  | none => .error 0x0E
  | some c => .ok (l, csrBytes (identitySeed c) midText)

/-- CSR (R307). -/
def execCsr (sess : Nat) (req : Word) (s : State) : Answer := .next (s.begin.prov sess req 2 fun _ l _ => l.csrIn)

/-- The module accepts a chain as its own (R307): at most 3 certificates and 4 KiB, the leaf's key and serialNumber those of
the module, to an installed anchor. -/
def Nv.ownChain (v : Nv) (chain : List Cert) : Bool :=
  match chain, v.secret with
  | leaf :: _, some c =>
    chain.length ≤ 3 && (chain.map fun t => t.raw.length).sum ≤ 4096 && leaf.pub == pubOf (identitySeed c) &&
      leaf.subject == midText && !v.anchors.isEmpty && chainVerifies v.anchors chain
  | _, _ => false

/-- CERT (R307, R322): open sessions keep the old chain. -/
def execCert (sess : Nat) (req : Word) (chain : List Cert) (s : State) : Answer :=
  .next (s.begin.prov sess req 3 fun _ l _ =>
    if l.nv.ownChain chain then .ok ({ l with nv := { l.nv with chain := chain } }, []) else .error 0x37)

/-- AUTH_PUB of the loaded image (R149). -/
def Lane.authPub (l : Lane) : List Byte := ((l.boot.img).map fun i => slice (i.sections.getD 10 []) 0x1E0 97).getD []

/-- A record is signed by the claimed authority (R313, R314). -/
def Lane.signed (l : Lane) (body sig : List Byte) : Bool := l.nv.claimSigned l.authPub body sig

/-- ANCHOR in a lane (R312, R313). The first anchor closes every session at the next boundary, a later one those whose chain
no longer passes. -/
def Lane.anchorIn (l : Lane) (r : AnchorRec) : ProvRes :=
  let held := !l.nv.anchors.isEmpty
  if r.certs.isEmpty || 4 < r.certs.length then .error 1
  else if !l.signed (anchorBytes r.seq r.certs) r.sig then .error 0x35
  else if held && r.seq.toNat ≤ l.nv.anchSeq.toNat then .error 0x36
  else .ok ({ l with nv := { l.nv with anchors := r.certs, anchSeq := r.seq },
                     sec := { l.sec with closeAll := l.sec.closeAll || !held, recheck := true } }, [])

/-- ANCHOR (R313). -/
def execAnchor (sess : Nat) (req : Word) (r : AnchorRec) (s : State) : Answer :=
  .next (s.begin.prov sess req 4 fun _ l _ => l.anchorIn r)

/-- A sequence number is above the held one, where one is held (R313, R314). -/
def aboveHeld (held : Option Word) (q : Word) : Bool :=
  match held with
  | none => true
  | some h => decide (h.toNat < q.toNat)

/-- REVOKE in a lane (R313). -/
def Lane.revokeIn (l : Lane) (r : RevokeRec) : ProvRes :=
  if 1024 < r.entries.length || r.entries.any (fun e => 20 < e.2.length) then .error 1
  else if !l.signed (revokeBytes r.seq r.entries) r.sig then .error 0x35
  else if !aboveHeld l.nv.revSeq r.seq then .error 0x36
  else .ok ({ l with nv := { l.nv with revoked := r.entries, revSeq := some r.seq }, sec := { l.sec with recheck := true } }, [])

/-- REVOKE (R313). -/
def execRevoke (sess : Nat) (req : Word) (r : RevokeRec) (s : State) : Answer :=
  .next (s.begin.prov sess req 5 fun _ l _ => l.revokeIn r)

/-- Bytes that a WS_REG's signature covers (R314). -/
def wsRegBody (r : WsReg) : List Byte := bytesOf r.wsId ++ [r.action] ++ bytesOf r.seq ++ r.eph ++ r.wrap

/-- Workstations that hold or are about to hold a key, other than one (R303, R319). -/
def Lane.otherWs (l : Lane) (ws : Word) : Nat :=
  let held := (l.nv.ws.map (·.wsId)) ++ ((l.sec.pendWs.filter fun r => r.action == 1).map (·.wsId))
  (held.eraseDups.filter fun w => w != ws).length

/-- WS_REG in a lane (R314). -/
def Lane.wsRegIn (l : Lane) (r : WsReg) : ProvRes :=
  let last := (l.nv.wsSeq.find? fun p => p.1 == r.wsId).map (·.2)
  if (r.action != 1 && r.action != 2) || r.eph.length != 97 || r.wrap.length != 40 then .error 1
  else if !l.signed (wsRegBody r) r.sig then .error 0x35
  else if !aboveHeld last r.seq then .error 0x36
  else if r.action = 1 && 64 ≤ l.otherWs r.wsId then .error 0x39
  else if r.action = 1 && (l.nv.wsKeyOf r).isNone then .error 0x3B
  else .ok ({ l with nv := { l.nv with wsSeq := (l.nv.wsSeq.filter fun p => p.1 != r.wsId) ++ [(r.wsId, r.seq)] },
                     sec := { l.sec with pendWs := l.sec.pendWs ++ [r] } }, [])

/-- WS_REG (R314). -/
def execWsReg (sess : Nat) (req : Word) (r : WsReg) (s : State) : Answer :=
  .next (s.begin.prov sess req 6 fun _ l _ => l.wsRegIn r)

/-- "NDTW" (R173). -/
def labelWrap : List Byte := [0x4E, 0x44, 0x54, 0x57]

/-- The key-encryption key of a package field (R173): bytes 0 to 31 of SHA-384 over the ECDH value, the label, the lane, the
STN_ID field and the generation. -/
def packageKek (z : List Byte) (x : LaneId) (stn gen : Word) : BitVec 256 :=
  (sha384 (z ++ labelWrap ++ [x.byte] ++ bytesOf stn ++ bytesOf gen)).extractLsb' 128 256

/-- A lane's EPH and WRAP of a package, 137 bytes, under a fresh ephemeral key (R173). -/
def Package.field (p : Package) (x : LaneId) (key : BitVec 256) (e : BitVec 448) : List Byte :=
  pubOf e ++ kwWrap (packageKek (ecdh e p.pub) x p.stn p.gen) (bytesOf key)

/-- A lane's field of a package. Where a lane does not act or has no key, the spec gives its field no bytes: a free value. -/
def State.packageField (s : State) (k : Session) (p : Package) (key : Lane → LaneId → Option (BitVec 256)) (x : LaneId) :
    List Byte × State :=
  let e := s.fresh 448
  let f := e.2.fresh 1096
  match if s.obeys k x then key (s.lane x) x else none with
  | some v => (p.field x v e.1, f.2)
  | none => (bytesOf f.1, f.2)

/-- The signed package as a lane assembles it (R173): 595 bytes. -/
def Lane.package (l : Lane) (p : Package) (fields : List Byte) : Option (List Byte) :=
  match l.boot.img, l.nv.secret with
  | some img, some c =>
    let b := p.magic ++ [0, 1] ++ [img.own, 0] ++ midBytes ++ bytesOf p.area ++ bytesOf p.stn ++ bytesOf p.gen ++
      toBe 2 img.hdr.tCycle ++ [0, 0] ++ bytesOf (sha384 p.pub) ++ fields
    some (b ++ ecdsaSign (identitySeed c) b)
  | _, _ => none

/-- The random generator of a lane that acts has failed, so that no package leaves (R322). -/
def State.noRandom (s : State) (k : Session) : Bool := laneList.any fun x => s.obeys k x && !(s.lane x).sec.trngOk

/-- Each lane settles a package request: it refuses it by its own checks (R319, R322), or assembles. -/
def State.packageRefuse (s : State) (k : Session) (req : Word) (sub : Byte) (check : Lane → Option Byte) : State :=
  s.inLanes k allLanes fun t x =>
    match check (t.lane x) with
    | some c => t.provRefuse k req sub x c
    | none =>
      if t.noRandom k then t.provRefuse k req sub x 0x3A
      else if (t.lane x).nv.secret.isNone then t.provRefuse k req sub x 0x0E else t

/-- A lane that assembles a package. -/
def State.assembles (s : State) (k : Session) (check : Lane → Option Byte) (x : LaneId) : Bool :=
  s.obeys k x && (check (s.lane x)).isNone && !s.noRandom k && (s.lane x).nv.secret.isSome

/-- A package request in the module (R173, R174, R317): every lane that assembles draws its field and sends it to the others in
the voted-view class (R13). A lane that acts and refuses gives none, so that no package leaves. -/
def State.packages (s : State) (k : Session) (req : Word) (sub : Byte) (p : Package) (mark : PkgMark)
    (key : Lane → LaneId → Option (BitVec 256)) (check : Lane → Option Byte) : State :=
  let ys := laneList.filter (s.assembles k check)
  let t := s.packageRefuse k req sub check
  if ys.isEmpty then t
  else
    let a := t.packageField k p key .a
    let b := a.2.packageField k p key .b
    let c := b.2.packageField k p key .c
    let fs : PerLane (List Byte) := { a := a.1, b := b.1, c := c.1 }
    let of (x y : LaneId) : Option (List Byte) := if x = y && ys.contains y || !s.obeys k y then some (fs.get y) else none
    let row (x : LaneId) : PerLane (Option (List Byte)) := { a := of x .a, b := of x .b, c := of x .c }
    let w : PkgWait := { sess := k.id, req := req, sub := sub, pkg := p, mark := mark, held := { a := row .a, b := row .b, c := row .c } }
    let u : State := { c.2 with pkgs := (c.2.pkgs.filter fun v => !(v.sess == k.id && v.req == req)) ++ [w] }
    ys.foldl (fun u x => u.xcast x (.voted (.fields k.id req x (fs.get x)))) u

/-- The fields of a package in a lane that holds them all, in lane order. -/
def PkgWait.fieldsIn (w : PkgWait) (x : LaneId) : Option (List Byte) :=
  let h := w.held.get x
  match h.a, h.b, h.c with
  | some a, some b, some c => some (a ++ b ++ c)
  | _, _, _ => none

/-- The package as a lane has assembled it. -/
def State.assembled (s : State) (w : PkgWait) (x : LaneId) : Option (List Byte) :=
  (w.fieldsIn x).bind fun f => (s.lane x).package w.pkg f

/-- The bytes that two lanes have assembled equally (R317). -/
def State.agreedPackage (s : State) (w : PkgWait) : Option (List Byte) :=
  lanePairs.findSome? fun p =>
    if (s.assembled w p.1).isSome && s.assembled w p.1 == s.assembled w p.2 then s.assembled w p.1 else none

/-- The first package issued for a station creates its generation record (R174). -/
def Lane.createGen (l : Lane) (pos : Nat) (gen : Word) : Lane :=
  match l.gen pos with
  | some _ => l
  | none => { l with nv := { l.nv with gens := Mem.set none l.nv.gens pos (some { cur := gen, pend := none }) } }

/-- What an issued package leaves in a lane (R174, R318). -/
def Lane.markPackage (l : Lane) : PkgMark → Lane
  | .station pos gen => l.createGen pos gen
  | .peer purpose area gen =>
    { l with nv := { l.nv with exported := (l.nv.exported.filter (· != (purpose, area, gen))) ++ [(purpose, area, gen)] } }

/-- A package leaves once two lanes have assembled equal bytes (R317). -/
def State.issuePackage (s : State) (k : Session) (w : PkgWait) : State :=
  match s.agreedPackage w with
  | none => s
  | some b =>
    let t : State := { s with pkgs := s.pkgs.filter fun v => !(v.sess == w.sess && v.req == w.req) }
    (t.inLanes k allLanes fun u x => u.modLane x fun l => l.markPackage w.mark).respond k w.req 0x0A 0 b

/-- A lane's field of a package reaches lane `l` (R13, R317). -/
def State.takeField (s : State) (l : LaneId) (sess : Nat) (req : Word) (sender : LaneId) (field : List Byte) : State :=
  s.serve sess fun k =>
    match s.pkgs.find? fun w => w.sess == sess && w.req == req with
    | none => s
    | some w =>
      if l = sender || !s.obeys k l then s
      else
        let v : PkgWait := { w with held := w.held.put l ((w.held.get l).put sender (some field)) }
        let t : State := { s with pkgs := s.pkgs.map fun u => if u.sess == sess && u.req == req then v else u }
        t.issuePackage k v

/-- VOTED_VIEW_RX (R381): the request reaches a lane, which samples at its freeze of m, or at once where it runs no
phases; a lane's samples reach the response lane; or a lane's field of a package reaches another lane (R317). -/
def execVotedViewRx (l : LaneId) (m : VotedMsg) (s : State) : Answer :=
  let s := s.begin
  match m with
  | .request sess req _ _ _ =>
    .next (s.serve sess fun k =>
      match s.readOf sess req with
      | none => s
      | some r =>
        if l = r.resp || !s.hears k l || !r.sel.voted || (r.samples.get l).isSome then s
        else if (s.lane l).samplesAtFreeze l then s.putRead { r with got := r.got.put l true }
        else s.sampleRead l r)
  | .samples sess req sender values =>
    match s.readOf sess req with
    | none => .next s
    | some r =>
      if l = r.resp && sender != l && values.length = r.count && !r.late.has sender then
        .next (s.takeSamples r sender values)
      else .next s
  | .fields sess req sender field => .next (s.takeField l sess req sender field)

/-- The status with which a lane refuses STN_PKG (R174, R319). -/
def Lane.stnPkgRefusal (l : Lane) (pos : Nat) (pending : Byte) (qoc : List Byte) : Option Byte :=
  if !(l.mode.armed || l.atStage5) then some 0x34
  else if 1 < pending.toNat || qoc.length != 97 then some 1
  else if l.stationCount ≤ pos then some 0x31
  else if pending = 1 && ((l.gen pos).bind (·.pend)).isNone then some 0x33
  else if !l.sec.trngOk then some 0x3A else none

/-- The generation of a station package (R174): the pending one, the current one, or KEY_GEN for the first. -/
def Lane.pkgGen (l : Lane) (r : StationRec) (pos : Nat) (pending : Byte) : Word :=
  match l.gen pos with
  | none => r.keyGen
  | some g => if pending = 1 then g.pend.getD g.cur else g.cur

/-- STN_PKG of an open maintainer session, as the response lane sees the station (R173, R174). -/
def State.stnPkg (s : State) (k : Session) (req : Word) (pos : Nat) (pending : Byte) (qoc : List Byte) : State :=
  let l := s.lane ((s.respLane k).getD .a)
  let refuse (c : Byte) : State := s.inLanes k allLanes fun t x => t.provRefuse k req 7 x c
  if k.comm then refuse 0x34
  else match l.boot.img with
    | none => refuse 0x34
    | some img =>
      match img.stations[pos]? with
      | none => s.inLanes k allLanes fun t x => t.provRefuse k req 7 x (((t.lane x).stnPkgRefusal pos pending qoc).getD 0x31)
      | some r =>
        let gen := l.pkgGen r pos pending
        let p : Package :=
          { magic := [0x4E, 0x44, 0x50, 0x4B], area := img.params.areaId, stn := r.stnId, gen := gen, pub := qoc }
        s.packages k req 7 p (.station pos gen) (fun m x => m.keyFor x labelStation r.stnId gen)
          fun m => m.stnPkgRefusal pos pending qoc

/-- STN_PKG (R173, R174). -/
def execStnPkg (sess : Nat) (req : Word) (pos : Half) (pending : Byte) (qoc : List Byte) (s : State) : Answer :=
  let s := s.begin
  .next (s.serve sess fun k =>
    if !k.maint then s.respond k req 0x0A 2 [] else s.stnPkg k req pos.toNat pending qoc)

/-- Label of a purpose: border keys or partner keys (R316). -/
def purposeLabel (purpose : Byte) : List Byte := if purpose = 0x48 then labelPartner else labelBorder

/-- PURPOSE in the STN_ID field (R317). -/
def purposeField (purpose : Byte) : Word := purpose ++ (0 : BitVec 24)

/-- The status with which a lane refuses PEER_EXPORT (R317, R319). -/
def Lane.exportRefusal (l : Lane) (k : Session) (purpose : Byte) (chain : List Cert) : Option Byte :=
  if k.comm then some 0x34
  else if purpose != 0x42 && purpose != 0x48 then some 1
  else if !l.nv.chainOk chain then some 0x37
  else if !l.sec.trngOk then some 0x3A else none

/-- PEER_EXPORT (R316, R317). -/
def execPeerExport (sess : Nat) (req : Word) (purpose : Byte) (area gen : Word) (chain : List Cert) (s : State) : Answer :=
  let s := s.begin
  .next (s.serve sess fun k =>
    if !k.maint then s.respond k req 0x0A 2 []
    else
      let p : Package :=
        { magic := [0x4E, 0x44, 0x50, 0x50], area := area, stn := purposeField purpose, gen := gen,
          pub := ((chain.head?).map (·.pub)).getD [] }
      s.packages k req 8 p (.peer purpose area gen) (fun m x => m.keyFor x (purposeLabel purpose) area gen)
        fun m => m.exportRefusal k purpose chain)

/-- The key of lane `x` in a peer package, unwrapped with the identity key (R318). -/
def packageOpen (seed : BitVec 448) (pkg : List Byte) (x : LaneId) : Option (BitVec 256) :=
  let o := 0x58 + 137 * x.num
  (pointOf (slice pkg o 97)).bind fun _ =>
    kwUnwrap (packageKek (ecdh seed (slice pkg o 97)) x (ofBytes 32 (slice pkg 0x1C 4)) (ofBytes 32 (slice pkg 0x20 4)))
      (slice pkg (o + 97) 40)

/-- A peer package and its sender pass R318 apart from the unwrapping. -/
def Lane.peerOk (l : Lane) (img : Image) (pkg : List Byte) (chain : List Cert) : Bool :=
  match chain with
  | [] => false
  | leaf :: _ =>
    l.nv.chainOk chain && ecdsaVerify leaf.pub (slice pkg 0 0x1F3) (slice pkg 0x1F3 96) &&
      leaf.subject == hexText (slice pkg 8 16) && ofBytes 32 (slice pkg 0x18 4) == img.params.areaId &&
      (byteAt pkg 0x1C != 0x48 || byteAt pkg 6 == img.partnerSlot)

/-- A peer package has the layout of R317. -/
def peerForm (pkg : List Byte) : Bool :=
  pkg.length == 595 && slice pkg 0 6 == [0x4E, 0x44, 0x50, 0x50, 0, 1] && (byteAt pkg 0x1C == 0x42 || byteAt pkg 0x1C == 0x48)

/-- The oldest generation of a sender and purpose gives way to a third (R303). -/
def makeRoom (ks : List PeerKey) (slot purpose : Byte) : List PeerKey :=
  let mine := ks.filter fun k => k.slot == slot && k.purpose == purpose
  if mine.length < 2 then ks
  else
    let low := mine.foldl (fun m k => min m k.gen.toNat) (2 ^ 32)
    ks.filter fun k => !(k.slot == slot && k.purpose == purpose && k.gen.toNat == low)

/-- PEER_IMPORT in a lane (R303, R318). -/
def Lane.importIn (l : Lane) (pkg : List Byte) (chain : List Cert) : ProvRes :=
  let slot := byteAt pkg 6
  let purpose := byteAt pkg 0x1C
  let gen := ofBytes 32 (slice pkg 0x20 4)
  if !peerForm pkg then .error 1
  else match l.boot.img, l.nv.secret with
    | some img, some c =>
      let seed := identitySeed c
      if !l.peerOk img pkg chain then .error 0x37
      else match packageOpen seed pkg .a, packageOpen seed pkg .b, packageOpen seed pkg .c with
        | some a, some b, some d =>
          let others := l.nv.peers.filter fun k => !(k.slot == slot && k.purpose == purpose && k.gen == gen)
          let senders := ((others.map (·.slot)).filter (· != slot)).eraseDups.length
          if 32 ≤ senders then .error 0x39
          else .ok ({ l with nv := { l.nv with peers := makeRoom others slot purpose ++
            [{ slot := slot, purpose := purpose, gen := gen, keys := { a := a, b := b, c := d } }] } }, [])
        | _, _, _ => .error 0x3B
    | _, _ => .error 0x37

/-- PEER_IMPORT (R318). -/
def execPeerImport (sess : Nat) (req : Word) (pkg : List Byte) (chain : List Cert) (s : State) : Answer :=
  .next (s.begin.prov sess req 9 fun _ l _ => l.importIn pkg chain)

/-- PEER_USE in a lane (R318): the generation must have been exported. -/
def Lane.useIn (l : Lane) (purpose : Byte) (area gen : Word) : ProvRes :=
  if !l.nv.exported.contains (purpose, area, gen) then .error 0x3B
  else .ok ({ l with sec := { l.sec with pendUse := l.sec.pendUse ++ [(purpose, area, gen)] } }, [])

/-- PEER_USE (R318). -/
def execPeerUse (sess : Nat) (req : Word) (purpose : Byte) (area gen : Word) (s : State) : Answer :=
  .next (s.begin.prov sess req 0x0A fun _ l _ => l.useIn purpose area gen)

/-- RANDOM_HEALTH_TEST_FAIL (R301, R323): the lane's random generator fails its health tests. -/
def execRandomHealthTestFail (l : LaneId) (s : State) : Answer :=
  .next (s.begin.modLane l fun m => { m with sec := { m.sec with trngOk := false } })

end Sys2Proof.Machine
end

