-- ==== Sys2Proof/Machine/Ring.lean ====
section
/-!
DEFINITION. CENSUS and link delay frames, border sets, tunnels (spec/12_cluster_and_host.md R263 to R271, R278).
-/
namespace Sys2Proof.Machine

/-- A CENSUS of this module (R267). -/
def Lane.census (l : Lane) (img : Image) : Census :=
  { mid := mid, areaId := img.params.areaId, partner := img.partnerSlot, role := l.ptn.role.setWidth 8, gen := l.boot.gen,
    stage := l.boot.stage }

/-- CENSUS_SEND (R263, R267): a module that has loaded its image sends, in every mode. -/
def execCensusSend (s : State) : Answer :=
  let s := s.begin
  match [Port.j6, .j7].filterMap s.txLane with
  | [] => .next s
  | x :: _ =>
    match (s.lane x).boot.img with
    | none => .next s
    | some img => .next (s.ringCast img.own 1 0xFE 27 (.census ((s.lane x).census img)))

/-- A CENSUS of another module that carries this module's slot (R267). -/
def Lane.slotTwice (l : Lane) (r : RingRx) (c : Census) : Bool :=
  l.ringAdmits r && l.ringSlot == some r.hdr.src && c.mid != mid

/-- CENSUS_RX (R265, R267): the frame is taken, forwarded or removed; a duplicate slot is noted. -/
def execCensusRx (r : RingRx) (c : Census) (s : State) : Answer :=
  let s := s.begin
  let t := s.ringFrame r 1 (.census c) fun t _ => t
  .next (if r.hdr.cls != 1 then t
    else (t.ringLanes r).foldl (fun t x => t.modLane x fun m =>
      if m.slotTwice r c then { m with ring := { m.ring with dup := true } } else m) t)

/-- DUP_SLOT_EXPIRY (R267). -/
def execDupSlotExpiry (s : State) : Answer :=
  .next (s.begin.mapLanes fun _ m => { m with ring := { m.ring with dup := false } })

/-- Replaces the probe outstanding on a port. -/
def Ring.putProbe (r : Ring) (p : RingPort) (v : Option Word) : Ring :=
  match p with
  | .east => { r with probeE := v }
  | .west => { r with probeW := v }

/-- The probe outstanding on a port. -/
def Ring.probe (r : Ring) (p : RingPort) : Option Word :=
  match p with
  | .east => r.probeE
  | .west => r.probeW

/-- Replaces the measured delay of a link. -/
def Ring.putDelay (r : Ring) (p : RingPort) (d : Nat) : Ring :=
  match p with
  | .east => { r with delayE := d }
  | .west => { r with delayW := d }

/-- DIR of a frame that leaves on a port (R262). -/
def ringDir : RingPort → Byte
  | .east => 0
  | .west => 1

/-- Sends a frame to the adjacent module on one port (R264). -/
def State.ringNear (s : State) (p : RingPort) (own cls : Byte) (len : Nat) (b : RingBody) : State :=
  let q := s.ringSeq + 1
  (s.putRingSeq q).emit (.ring p (ringHdr own cls 0xFD (ringDir p) len q) b)

/-- DELAY_REQ_SEND (R263, R266). -/
def execDelayReqSend (p : RingPort) (probe : Word) (s : State) : Answer :=
  let s := s.begin
  match (s.txLane (ringPortOf p)).bind fun x => (s.lane x).ringSlot with
  | none => .next s
  | some own =>
    .next ((s.mapLanes fun _ m => if m.onRing then { m with ring := m.ring.putProbe p (some probe) } else m).ringNear p own 2
      4 (.probe probe))

/-- DELAY_REQ_RX (R263, R266): the answer leaves on the port of the request, from its transmit lane if that lane took it. -/
def execDelayReqRx (r : RingRx) (probe : Word) (turnaround : Nat) (s : State) : Answer :=
  let s := s.begin
  .next (s.ringFrame r 2 (.probe probe) fun t x =>
    if t.txLane (ringPortOf r.port) == some x then
      match (t.lane x).ringSlot with
      | none => t
      | some own => t.ringNear r.port own 3 8 (.probeBack probe turnaround)
    else t)

/-- DELAY_RESP_RX (R266): the delay of the link is half of what the round trip exceeds the turnaround. -/
def execDelayRespRx (r : RingRx) (probe : Word) (turnaround roundTrip : Nat) (s : State) : Answer :=
  let s := s.begin
  .next (s.ringFrame r 3 (.probeBack probe turnaround) fun t x => t.modLane x fun m =>
    if m.ring.probe r.port == some probe then
      { m with ring := (m.ring.putProbe r.port none).putDelay r.port ((roundTrip - turnaround) / 2) }
    else m)

/-- Class of a BORDER discard (R270). -/
inductive BorderFail where
  | format | tag | old
  deriving DecidableEq, Repr

/-- The neighbour that a BORDER frame comes from: check 1 of R270. -/
def borderNb (img : Image) (b : List Byte) : Option (Fin 8 × NbRec) :=
  if ofBytes 32 (slice b 4 4) != img.params.areaId then none
  else img.nbsOf.find? fun p => p.2.used.getLsbD 0 && p.2.nbArea == ofBytes 32 (slice b 0 4)

/-- SEG, FIRST, COUNT and the body's length are those of a segment of IN_COUNT half-words: check 2 of R270. -/
def borderShape (inCount : Nat) (b : List Byte) : Bool :=
  let seg := (byteAt b 0x0E).toNat / 16
  let first := beAt b 0x18 2
  let count := beAt b 0x1A 2
  (byteAt b 0x0E).toNat % 16 == (inCount + 639) / 640 && seg < (inCount + 639) / 640 && first == 640 * seg &&
    count == min 640 (inCount - first) && b.length == 0x2C + 2 * count

/-- Border keys held from a slot at a generation (R316, R318): check 3 of R270. -/
def Lane.borderKeys (l : Lane) (r : NbRec) (src : Byte) (gen : Word) : Option PeerKey :=
  if gen.toNat < r.keyGen.toNat then none
  else l.nv.peers.find? fun k => k.slot == src && k.purpose == 0x42 && k.gen == gen

/-- Both tags verify: check 4 of R270. -/
def borderTagged (k : PeerKey) (b : List Byte) : Bool :=
  let n := 0x1C + 2 * beAt b 0x1A 2
  match pairOfByte (byteAt b 0x0F) with
  | none => false
  | some p => tagsHold k p ((slice b 0 n).set 0x0F 0) (ofBytes 64 (slice b n 8)) (ofBytes 64 (slice b (n + 8) 8))

/-- A segment as a lane keeps it. -/
def borderSeg (src : Byte) (b : List Byte) : BorderSeg :=
  let count := beAt b 0x1A 2
  { sender := src, cyc := ofBytes 48 (slice b 8 6), epoch := ofBytes 32 (slice b 0x10 4), seg := (byteAt b 0x0E).toNat / 16,
    segs := (byteAt b 0x0E).toNat % 16, first := beAt b 0x18 2,
    values := (List.range count).map fun k => byteAt b (0x1C + 2 * k) ++ byteAt b (0x1C + 2 * k + 1) }

/-- The checks of R270 in order: the neighbour and the segment, or the class of the discard. -/
def Lane.borderCheck (l : Lane) (img : Image) (src : Byte) (b : List Byte) : Except BorderFail (Fin 8 × BorderSeg) :=
  match borderNb img b with
  | none => .error .format
  | some (q, r) =>
    if !borderShape r.inCount.toNat b then .error .format
    else match l.borderKeys r src (ofBytes 32 (slice b 0x14 4)) with
      | none => .error .format
      | some k =>
        let g := borderSeg src b
        if !borderTagged k b then .error .tag
        else if !l.ring.nbs[q].fresh g.epoch g.cyc then .error .old else .ok (q, g)

/-- Counts a BORDER discard (R286). -/
def Ring.discard (r : Ring) : BorderFail → Ring
  | .format => { r with dFormat := r.dFormat + 1 }
  | .tag => { r with dTag := r.dTag + 1 }
  | .old => { r with dOld := r.dOld + 1 }

/-- Two segments belong to one set (R271). -/
def BorderSeg.mates (g h : BorderSeg) : Bool := g.cyc == h.cyc && g.epoch == h.epoch && g.sender == h.sender

/-- A valid segment joins its set; the last one completes it, for this intake or, at or after the freeze, for the next
(R270, R271). A higher epoch waits for a committing boundary. -/
def NbState.takeSeg (n : NbState) (g : BorderSeg) (frozen : Bool) : NbState :=
  let n := if n.epoch.toNat < g.epoch.toNat && ((n.pendEp).getD 0).toNat < g.epoch.toNat then { n with pendEp := some g.epoch }
    else n
  let set := (n.segs.filter fun h => g.mates h && h.seg != g.seg) ++ [g]
  if set.length < g.segs then { n with segs := (n.segs.filter fun h => !(g.mates h && h.seg == g.seg)) ++ [g] }
  else
    let rest := n.segs.filter fun h => !g.mates h
    if frozen then { n with segs := rest, late := n.late ++ [set] } else { n with segs := rest, ready := n.ready ++ [set] }

/-- A lane takes in BORDER frames (R270, R287): its module is armed and runs the logic, whatever its role. -/
def Lane.takesBorder (l : Lane) : Bool := l.live && l.mode.armed && logicRuns l.mode.mode

/-- A BORDER frame that the lane has taken from the ring (R270). A neighbour record whose entry check fails is a code check
failure when it is used (R63). -/
def Lane.borderIn (l : Lane) (img : Image) (src : Byte) (b : List Byte) : Lane :=
  if b.length < 0x2C then { l with ring := l.ring.discard .format }
  else match borderNb img b with
    | none => { l with ring := l.ring.discard .format }
    | some (k, _) =>
      if !nbSound img k.val then l.tableFail img (nbTable, k.val)
      else match l.borderCheck img src b with
        | .error e => { l with ring := l.ring.discard e }
        | .ok (q, g) =>
          { l with ring := { l.ring with nbs := l.ring.nbs.set q.val (l.ring.nbs[q].takeSeg g l.cyc.frozen) } }

/-- BORDER_RX (R265, R270, R271). -/
def execBorderRx (r : RingRx) (body : List Byte) (s : State) : Answer :=
  .next (s.begin.ringFrame r 0x20 (.raw body) fun t x => t.modLane x fun m =>
    match m.boot.img with
    | none => m
    | some img => if m.takesBorder then m.borderIn img r.hdr.src body else m)

end Sys2Proof.Machine
end

