-- ==== Sys2Proof/Machine/Tunnel.lean ====
section
/-!
DEFINITION. Tunnels of host connections on the ring (spec/12_cluster_and_host.md R278): TUNNEL_RX, TUNNEL_RETRANSMIT,
TUNNEL_TIMEOUT. The stream offsets are kept by the lanes (R285); the model holds one copy for the module.
-/
namespace Sys2Proof.Machine

/-- Number of the connection that arrives through a tunnel of a gateway (log entry 40). -/
def tunnelConn (gw tid : Byte) : Nat := 65536 + 16 * gw.toNat + tid.toNat

/-- A connection whose handshake is not complete closes (R273, R309). -/
def State.closeConn (s : State) (conn : Nat) : State :=
  if s.conns.any fun c => c.id == conn then
    let s := ({ s with conns := s.conns.filter fun c => c.id != conn }).emit (.connClosed conn)
    match s.targetTunnel conn with
    | none => s
    | some t => s.tunnelClose t
  else s

/-- This end of a tunnel is gone: the gateway closes the TCP connection, the target its session or handshake (R278). -/
def State.tunnelGone (s : State) (t : Tunnel) : State :=
  let s := s.dropTunnel t
  if t.gateway then s.emit (.connClosed t.conn)
  else if (s.session t.conn).isSome then s.closeSession t.conn else s.closeConn t.conn

/-- Sessions and handshakes that count toward the target's limit (R274, R278). -/
def State.terminated (s : State) : Nat := s.sessions.length + (s.conns.filter fun c => c.tunnel.isSome).length

/-- Stream bytes at one end (R278): what is acknowledged goes, data at the offset expected is taken, and what waits is sent. -/
def State.tunnelData (s : State) (t : Tunnel) (b : TunnelBody) : State :=
  let k := (b.ack - t.acked).toNat
  let k := if k ≤ t.unacked.length then k else 0
  let late := (t.recv - b.off).toNat
  let new := if late ≤ b.data.length then b.data.drop late else []
  let v : Tunnel := { t with
    acked := t.acked + BitVec.ofNat 32 k, unacked := t.unacked.drop k, recv := t.recv + BitVec.ofNat 32 new.length }
  let s := s.putTunnel v
  let s := if v.gateway && !new.isEmpty then s.emit (.stream v.conn new) else s
  let s := if v.queue.isEmpty then s else s.tunnelPush v false
  let s := if b.data.isEmpty then s else s.tunnelFrame v false false v.sent []
  if b.cls then s.tunnelGone v else s

/-- A tunnel at its target before any data. -/
def newTunnel (gateway : Bool) (peer tid : Byte) (conn : Nat) (maint : Bool) (queue : List Byte) : Tunnel :=
  { gateway := gateway, peer := peer, tid := tid, conn := conn, maint := maint, sent := 0, acked := 0, recv := 0,
    unacked := [], queue := queue }

/-- OPEN at the target (R278): a connection waits for its handshake; at the limit of R274 the tunnel closes. -/
def State.tunnelOpen (s : State) (src : Byte) (b : TunnelBody) : State :=
  let t := newTunnel false src b.tid (tunnelConn src b.tid) b.mnt []
  if 16 ≤ b.tid.toNat then s
  else if 8 ≤ s.terminated then s.tunnelFrame t false true 0 []
  else
    let c : Conn := { id := t.conn, maint := b.mnt, ownJ10 := false, tunnel := some (src, b.tid),
                      tuple := [b.tid, src] ++ List.replicate 10 0 }
    ({ s with tunnels := s.tunnels ++ [t], conns := s.conns ++ [c] }).tunnelData t b

/-- The end of a tunnel that a frame from a slot reaches (R278; log entry 40). -/
def State.tunnelOf (s : State) (src : Byte) (b : TunnelBody) : Option Tunnel :=
  let f (g : Bool) := s.tunnels.find? fun t => t.gateway == g && t.peer == src && t.tid == b.tid
  if b.opn then f false
  else match f true with
    | some t => some t
    | none => f false

/-- A TUNNEL frame that the module has taken (R278). -/
def State.tunnelIn (s : State) (src : Byte) (b : TunnelBody) : State :=
  match s.tunnelOf src b with
  | some t => s.tunnelData t b
  | none => if b.opn then s.tunnelOpen src b else s

/-- TUNNEL_RX (R265, R278): the effect comes once, as the first lane takes the frame. -/
def execTunnelRx (r : RingRx) (b : TunnelBody) (s : State) : Answer :=
  let s := s.begin
  if r.hdr.cls != 0x30 then .next s
  else
    let t := s.ringTake r (.tunnel b)
    if t.2.isEmpty || 1400 < b.data.length then .next t.1 else .next (t.1.tunnelIn r.hdr.src b)

/-- The end that a gateway's slot and a TID name at this module. -/
def State.tunnelNamed (s : State) (gw tid : Byte) : Option Tunnel :=
  if s.ringOwn == some gw then s.tunnels.find? fun t => t.gateway && t.tid == tid
  else s.tunnels.find? fun t => !t.gateway && t.peer == gw && t.tid == tid

/-- TUNNEL_RETRANSMIT (R278): data not acknowledged is sent again. -/
def execTunnelRetransmit (gw : Byte) (tid : Fin 16) (s : State) : Answer :=
  let s := s.begin
  match s.tunnelNamed gw (BitVec.ofFin (tid.castLE (by decide))) with
  | none => .next s
  | some t =>
    .next (({ s with tunRetx := s.tunRetx + (pieces t.unacked).length }).tunnelRun t (t.gateway && t.acked == 0) t.acked
      t.unacked)

/-- TUNNEL_TIMEOUT (R278): no progress for 10 s closes the tunnel at both ends. -/
def execTunnelTimeout (gw : Byte) (tid : Fin 16) (s : State) : Answer :=
  let s := s.begin
  match s.tunnelNamed gw (BitVec.ofFin (tid.castLE (by decide))) with
  | none => .next s
  | some t => .next ((s.tunnelFrame t false true t.sent []).tunnelGone t)

end Sys2Proof.Machine
end

