-- ==== Sys2Proof/Machine/Sessions.lean ====
section
/-!
DEFINITION. Connections and sessions (spec/12_cluster_and_host.md R273 to R275; spec/14_keys_and_trust.md R306, R309 to R312;
spec/01_lanes_and_seats.md R21): HOST_CONNECT, TLS_HANDSHAKE and its timeout, the closing of sessions, PORT_LINK_CHANGE,
KEYUPDATE.
-/
namespace Sys2Proof.Machine

/-- J9 or J10 (R273). -/
def hostPort (maint : Bool) : Port := if maint then .j10 else .j9

/-- A connection number that is in use. -/
def State.connUsed (s : State) (conn : Nat) : Bool :=
  65536 ≤ conn || s.conns.any (fun c => c.id == conn) || s.sessions.any (fun k => k.id == conn) ||
    s.tunnels.any fun t => t.gateway && t.conn == conn

/-- Slot address of the module as a lane holds it (R20). -/
def Lane.ownSlot (l : Lane) : Byte := l.boot.keySlot.setWidth 8

/-- Lowest tunnel number free for a new tunnel to a slot (R278). -/
def State.freeTid (s : State) (peer : Byte) : Option Byte :=
  ((List.range 16).map (BitVec.ofNat 8)).find? fun k => !s.tunnels.any fun t => t.tid == k && (t.gateway || t.peer == peer)

/-- The module becomes the gateway of a connection (R273, R278): the tunnel opens with the bytes that followed the preamble. -/
def State.gatewayOpen (s : State) (maint : Bool) (conn : Nat) (slot : Byte) (data : List Byte) : State :=
  match s.ringOwn, s.freeTid slot with
  | some _, some tid =>
    let t := newTunnel true slot tid conn maint data
    let s : State := { s with tunnels := s.tunnels ++ [t] }
    if data.isEmpty then s.tunnelFrame t true false 0 [] else s.tunnelPush t true
  | _, _ => s.emit (.connClosed conn)

/-- HOST_CONNECT (R273): a TCP connection on J9 (port 4710) or J10 (port 4711) with its route preamble, its tuple (R306) and
the stream bytes that came with it. -/
def execHostConnect (maint : Bool) (conn : Nat) (tuple preamble data : List Byte) (s : State) : Answer :=
  let s := s.begin
  match s.txLane (hostPort maint) with
  | none => .next s
  | some x =>
    let slot := byteAt preamble 3
    if s.connUsed conn then .next s
    else if preamble.length != 4 || preamble.take 3 != preambleTag || 64 ≤ slot.toNat then .next (s.emit (.connClosed conn))
    else if slot = (s.lane x).ownSlot then
      .next { s with conns := s.conns ++ [{ id := conn, maint := maint, ownJ10 := maint, tunnel := none, tuple := tuple }] }
    else .next (s.gatewayOpen maint conn slot data)

/-- Port by which a connection's records leave. -/
def Conn.port (c : Conn) : Port := if c.tunnel.isSome then .j6 else if c.ownJ10 then .j10 else .j9

/-- Suite TLS_AES_256_GCM_SHA384 and scheme ecdsa_secp384r1_sha384 (R309). Offered resumption and early data are not taken
up: the handshake is a full one. -/
def helloFits (h : TlsHello) : Bool := h.suite == 0x1302 && h.scheme == 0x0503

/-- Group secp384r1 (R309). -/
def secp384r1 : Half := 0x0018

/-- A lane computes handshakes (R305, R310): it is out of reset, holds the module secret, and its host ports, or for a tunnel
its ring ports, are not down. -/
def Lane.shakes (l : Lane) (c : Conn) : Bool :=
  l.answersReads && l.nv.secret.isSome && !l.sec.zeroed && !l.meter.portDown.getLsbD (if c.tunnel.isSome then 5 else 7)

/-- Server random of a handshake (R306, R310). -/
def serverRandom (secret : BitVec 384) (h : TlsHello) : BitVec 256 := mk 256 secret [0x4E, 0x44, 0x52] (bytesOf h.random)

/-- Ephemeral key share of a handshake (R306, R310). -/
def serverShare (secret : BitVec 384) (c : Conn) (h : TlsHello) : List Byte :=
  pubOf (mk 448 secret [0x4E, 0x44, 0x45] (bytesOf h.random ++ c.tuple))

/-- A lane accepts the client (R311, R312) and has verified its Finished (R310). -/
def Lane.accepts (l : Lane) (x : LaneId) (c : Conn) (h : TlsHello) : Bool :=
  l.shakes c && h.finished.has x && (l.nv.clientOk h.chain || l.nv.commissionOk c.ownJ10 h.chain)

/-- The session that a handshake opens (R274, R312, R383). -/
def State.sessionOf (s : State) (c : Conn) (h : TlsHello) : Session :=
  let ys := LaneSet.those fun x => (s.lane x).accepts x c h
  { id := c.id, maint := c.maint && leafOu h.chain == ouMaint,
    comm := !laneList.any fun x => ys.has x && (s.lane x).nv.clientOk h.chain, ownJ10 := c.ownJ10, tunnel := c.tunnel,
    chain := h.chain, own := [], lanes := ys, keyGen := PerLane.const 0, mask := 0, sels := PerLane.const Sels.init,
    latches := PerLane.const [] }

/-- Limits on sessions (R274); a tunnel whose handshake runs counts toward them (R278). -/
def State.sessionRoom (s : State) (k : Session) : Bool :=
  s.sessions.length + (s.conns.filter fun c => c.tunnel.isSome && c.id != k.id).length < 8 && (!k.maint || (s.sessions.filter (·.maint)).length < 2)

/-- Lanes that do not transmit compare the records sent; one whose bytes differ counts a transmit fault (R310). -/
def State.tapRecords (s : State) (x : LaneId) (c : Conn) (h : TlsHello) : State :=
  s.mapLanes fun y m =>
    if y != x && m.shakes c && !h.tapOk.has y && !m.txBad.contains c.port then { m with txBad := m.txBad ++ [c.port] } else m

/-- The certificates that a lane presents (R307, R312, R322): the installed chain, or while no anchor or no chain is installed
the self-signed certificate over the identity key. -/
def Nv.presents (v : Nv) (secret : BitVec 384) : List (List Byte) :=
  if v.anchors.isEmpty || v.chain.isEmpty then [Config.selfCert (identitySeed secret) midText] else v.chain.map (·.raw)

/-- "TLS 1.3, server CertificateVerify" (R309). -/
def verifyLabel : List Byte :=
  [0x54, 0x4C, 0x53, 0x20, 0x31, 0x2E, 0x33, 0x2C, 0x20, 0x73, 0x65, 0x72, 0x76, 0x65, 0x72, 0x20, 0x43, 0x65, 0x72, 0x74,
   0x69, 0x66, 0x69, 0x63, 0x61, 0x74, 0x65, 0x56, 0x65, 0x72, 0x69, 0x66, 0x79]

/-- The signature of CertificateVerify, by the identity key (R309, R310). -/
def certVerify (secret : BitVec 384) (h : TlsHello) (hello : List Byte) (chain : List (List Byte)) : List Byte :=
  ecdsaSign (identitySeed secret)
    (List.replicate 64 0x20 ++ verifyLabel ++ [0] ++ bytesOf (Config.transcript h hello chain))

/-- A handshake of a connection (R309 to R312): the session opens, or the connection closes. -/
def State.shake (s : State) (c : Conn) (h : TlsHello) : State :=
  match s.txLane c.port with
  | none => s
  | some x =>
    match (s.lane x).nv.secret with
    | none => s.closeConn c.id
    | some m =>
      let r := serverRandom m h
      let p := serverShare m c h
      let own := (s.lane x).nv.presents m
      let sig := certVerify m h (bytesOf r ++ p) own
      let s := ((s.emit (.hello c.id r p false)).emit (.serverCert c.id own sig))
      let s := (s.tunnelWrite c.id 0 (bytesOf r ++ p ++ own.flatten ++ sig)).tapRecords x c h
      let k := { s.sessionOf c h with own := own }
      if k.lanes.count = 0 || !s.sessionRoom k then s.closeConn c.id
      else { s with conns := s.conns.filter fun d => d.id != c.id, sessions := s.sessions ++ [k] }

/-- TLS_HANDSHAKE (R309): a key share of another group is answered with HelloRetryRequest. -/
def execTlsHandshake (conn : Nat) (h : TlsHello) (s : State) : Answer :=
  let s := s.begin
  match s.conns.find? fun c => c.id == conn with
  | none => .next s
  | some c =>
    if !helloFits h then .next (s.closeConn conn)
    else if h.group != secp384r1 then .next (s.emit (.hello conn 0 [] true))
    else .next (s.shake c h)

/-- TLS_HANDSHAKE_TIMEOUT (R309). -/
def execTlsHandshakeTimeout (conn : Nat) (s : State) : Answer := .next (s.begin.closeConn conn)

/-- SESSION_IDLE_TIMEOUT (R275). -/
def execSessionIdleTimeout (sess : Nat) (s : State) : Answer :=
  .next (s.begin.serve sess fun k => s.begin.closeSession k.id)

/-- SESSION_CLOSE (R275). -/
def execSessionClose (sess : Nat) (s : State) : Answer := .next (s.begin.serve sess fun k => s.begin.closeSession k.id)

/-- Bit of a port in the link state. -/
def portBit : Port → Nat
  | .j4 => 0
  | .j5 => 1
  | .j6 => 2
  | .j7 => 3
  | .j8 => 4
  | .j9 => 5
  | .j10 => 6

/-- The sessions, handshakes and tunnels whose connections run over J9 or J10 are lost with it (R21). -/
def State.losePort (s : State) (p : Port) : State :=
  let direct (k : Session) : Bool := k.tunnel.isNone && k.port == p
  let s := (s.sessions.filter direct).foldl (fun t k => t.closeSession k.id) s
  let s := (s.conns.filter fun c => c.tunnel.isNone && c.port == p).foldl (fun t c => t.closeConn c.id) s
  (s.tunnels.filter fun t => t.gateway && hostPort t.maint == p).foldl
    (fun u t => (u.tunnelFrame t false true t.sent []).tunnelGone t) s

/-- PORT_LINK_CHANGE (R21): the link state of a port; a host or maintenance port that goes down loses its sessions. -/
def execPortLinkChange (p : Port) (up : Bool) (s : State) : Answer :=
  let s := s.begin
  let b : BitVec 7 := 1#7 <<< portBit p
  let s := { s with ports := if up then s.ports ||| b else s.ports &&& ~~~b }
  .next (if !up && (p == .j9 || p == .j10) then s.losePort p else s)

/-- KEYUPDATE (R309): the lanes that receive it change their traffic keys of the session. -/
def execKeyupdate (sess : Nat) (lanes : LaneSet) (s : State) : Answer :=
  let s := s.begin
  .next (s.serve sess fun k =>
    s.setSession { k with keyGen :=
      { a := k.keyGen.a + (lanes.a && k.lanes.a).toNat, b := k.keyGen.b + (lanes.b && k.lanes.b).toNat,
        c := k.keyGen.c + (lanes.c && k.lanes.c).toNat } })

end Sys2Proof.Machine
end

