-- ==== Sys2Proof/Machine/Dispatch.lean ====
section
/-!
DEFINITION. The meaning of every command, one arm for each constructor of Instr (spec/opcode_table.json).
-/
namespace Sys2Proof.Machine

/-- The effect of a command on everything but the queue. -/
def exec (i : Instr) (s : State) : Host.Outcome State Fault Refusal :=
  match i with
  | .ld l x f => Sys2Proof.Machine.execLd l x f s
  | .st l x f => Sys2Proof.Machine.execSt l x f s
  | .andN l x f => Sys2Proof.Machine.execAndN l x f s
  | .orN l x f => Sys2Proof.Machine.execOrN l x f s
  | .andnN l x f => Sys2Proof.Machine.execAndnN l x f s
  | .subr l x f => Sys2Proof.Machine.execSubr l x f s
  | .edg l x f => Sys2Proof.Machine.execEdg l x f s
  | .tstart l x f => Sys2Proof.Machine.execTstart l x f s
  | .tstop l x f => Sys2Proof.Machine.execTstop l x f s
  | .tqry l x f => Sys2Proof.Machine.execTqry l x f s
  | .texp l x f => Sys2Proof.Machine.execTexp l x f s
  | .trun l x f => Sys2Proof.Machine.execTrun l x f s
  | .mov l x f => Sys2Proof.Machine.execMov l x f s
  | .not l x f => Sys2Proof.Machine.execNot l x f s
  | .and l x f => Sys2Proof.Machine.execAnd l x f s
  | .or l x f => Sys2Proof.Machine.execOr l x f s
  | .xor l x f => Sys2Proof.Machine.execXor l x f s
  | .andn l x f => Sys2Proof.Machine.execAndn l x f s
  | .sel l x f => Sys2Proof.Machine.execSel l x f s
  | .cmp l x f => Sys2Proof.Machine.execCmp l x f s
  | .cadd l x f => Sys2Proof.Machine.execCadd l x f s
  | .csub l x f => Sys2Proof.Machine.execCsub l x f s
  | .ldi l x f => Sys2Proof.Machine.execLdi l x f s
  | .cmpi l x f => Sys2Proof.Machine.execCmpi l x f s
  | .caddi l x f => Sys2Proof.Machine.execCaddi l x f s
  | .csubi l x f => Sys2Proof.Machine.execCsubi l x f s
  | .mtch l x f => Sys2Proof.Machine.execMtch l x f s
  | .stn l x f => Sys2Proof.Machine.execStn l x f s
  | .unpk l x f => Sys2Proof.Machine.execUnpk l x f s
  | .pack l x f => Sys2Proof.Machine.execPack l x f s
  | .csel l x f => Sys2Proof.Machine.execCsel l x f s
  | .cfb l x f => Sys2Proof.Machine.execCfb l x f s
  | .cfh l x f => Sys2Proof.Machine.execCfh l x f s
  | .cfw l x f => Sys2Proof.Machine.execCfw l x f s
  | .crd l x f => Sys2Proof.Machine.execCrd l x f s
  | .cwr l x f => Sys2Proof.Machine.execCwr l x f s
  | .ccmp l x f => Sys2Proof.Machine.execCcmp l x f s
  | .br l x f => Sys2Proof.Machine.execBr l x f s
  | .brz l x f => Sys2Proof.Machine.execBrz l x f s
  | .brnz l x f => Sys2Proof.Machine.execBrnz l x f s
  | .fin l x f => Sys2Proof.Machine.execFin l x f s
  | .seatFault l x cause => Sys2Proof.Machine.execSeatFault l x cause s
  | .regRead sess req sel addr count => Sys2Proof.Machine.execRegRead sess req sel addr count s
  | .regWrite sess req sel addr value => Sys2Proof.Machine.execRegWrite sess req sel addr value s
  | .loReadLatch sess l addr => Sys2Proof.Machine.execLoReadLatch sess l addr s
  | .cycDropCauseClr lanes value hold => Sys2Proof.Machine.execCycDropCauseClr lanes value hold s
  | .seatNfClr lanes value hold => Sys2Proof.Machine.execSeatNfClr lanes value hold s
  | .seatFaultClr lanes value hold => Sys2Proof.Machine.execSeatFaultClr lanes value hold s
  | .cvuFaultClr lanes value hold => Sys2Proof.Machine.execCvuFaultClr lanes value hold s
  | .clkForcedClr lanes value hold => Sys2Proof.Machine.execClkForcedClr lanes value hold s
  | .pwrStatusClr lanes value hold => Sys2Proof.Machine.execPwrStatusClr lanes value hold s
  | .supWarnClr lanes value hold => Sys2Proof.Machine.execSupWarnClr lanes value hold s
  | .stsFaultClr lanes value hold => Sys2Proof.Machine.execStsFaultClr lanes value hold s
  | .secTapEnWrite lanes value => Sys2Proof.Machine.execSecTapEnWrite lanes value s
  | .cmdPost sess req lanes slot value applyCyc => Sys2Proof.Machine.execCmdPost sess req lanes slot value applyCyc s
  | .critPrepare sess req lanes op wsId prepCyc params => Sys2Proof.Machine.execCritPrepare sess req lanes op wsId prepCyc params s
  | .critConfirm m => Sys2Proof.Machine.execCritConfirm m s
  | .wsUnlock l wsId => Sys2Proof.Machine.execWsUnlock l wsId s
  | .challengeExpiry l challenge => Sys2Proof.Machine.execChallengeExpiry l challenge s
  | .emergencyRelease m => Sys2Proof.Machine.execEmergencyRelease m s
  | .sectionReset m => Sys2Proof.Machine.execSectionReset m s
  | .forceSet m => Sys2Proof.Machine.execForceSet m s
  | .forceRemove m => Sys2Proof.Machine.execForceRemove m s
  | .forceRemoveAll m => Sys2Proof.Machine.execForceRemoveAll m s
  | .arming m => Sys2Proof.Machine.execArming m s
  | .handover m => Sys2Proof.Machine.execHandover m s
  | .reKey m => Sys2Proof.Machine.execReKey m s
  | .modeChange m => Sys2Proof.Machine.execModeChange m s
  | .evtSub sess req mask => Sys2Proof.Machine.execEvtSub sess req mask s
  | .recRead sess req sel first count changing => Sys2Proof.Machine.execRecRead sess req sel first count changing s
  | .imgRead sess req sect off len => Sys2Proof.Machine.execImgRead sess req sect off len s
  | .keepalive sess req => Sys2Proof.Machine.execKeepalive sess req s
  | .claim sess req body => Sys2Proof.Machine.execClaim sess req body s
  | .csr sess req => Sys2Proof.Machine.execCsr sess req s
  | .cert sess req chain => Sys2Proof.Machine.execCert sess req chain s
  | .anchor sess req r => Sys2Proof.Machine.execAnchor sess req r s
  | .revoke sess req r => Sys2Proof.Machine.execRevoke sess req r s
  | .wsReg sess req r => Sys2Proof.Machine.execWsReg sess req r s
  | .stnPkg sess req pos pending qoc => Sys2Proof.Machine.execStnPkg sess req pos pending qoc s
  | .peerExport sess req purpose area gen chain => Sys2Proof.Machine.execPeerExport sess req purpose area gen chain s
  | .peerImport sess req pkg chain => Sys2Proof.Machine.execPeerImport sess req pkg chain s
  | .peerUse sess req purpose area gen => Sys2Proof.Machine.execPeerUse sess req purpose area gen s
  | .resetRelease l env => Sys2Proof.Machine.execResetRelease l env s
  | .startStatusRx l sender f => Sys2Proof.Machine.execStartStatusRx l sender f s
  | .digestWaitExpiry l => Sys2Proof.Machine.execDigestWaitExpiry l s
  | .keyPresenceOpen l => Sys2Proof.Machine.execKeyPresenceOpen l s
  | .keyPresenceClose l => Sys2Proof.Machine.execKeyPresenceClose l s
  | .startRepeat reads => Sys2Proof.Machine.execStartRepeat reads s
  | .startMarkRx l sender => Sys2Proof.Machine.execStartMarkRx l sender s
  | .linkProbe l peer num => Sys2Proof.Machine.execLinkProbe l peer num s
  | .linkProbeRx l peer num back roundTrip turnaround => Sys2Proof.Machine.execLinkProbeRx l peer num back roundTrip turnaround s
  | .cycleBoundary l env => Sys2Proof.Machine.execCycleBoundary l env s
  | .seatSliceComplete l x first second us => Sys2Proof.Machine.execSeatSliceComplete l x first second us s
  | .seatSliceIncomplete l x => Sys2Proof.Machine.execSeatSliceIncomplete l x s
  | .untestedLimit l => Sys2Proof.Machine.execUntestedLimit l s
  | .sweepComplete l t => Sys2Proof.Machine.execSweepComplete l t s
  | .statusTelegramRx l net fr => Sys2Proof.Machine.execStatusTelegramRx l net fr s
  | .freeze l => Sys2Proof.Machine.execFreeze l s
  | .round1FrameRx l sender f => Sys2Proof.Machine.execRound1FrameRx l sender f s
  | .round1Deadline l => Sys2Proof.Machine.execRound1Deadline l s
  | .telegramFetchRx l sender pos => Sys2Proof.Machine.execTelegramFetchRx l sender pos s
  | .fetchReplyRx l pos net fr => Sys2Proof.Machine.execFetchReplyRx l pos net fr s
  | .round2Send l => Sys2Proof.Machine.execRound2Send l s
  | .round2FrameRx l sender f => Sys2Proof.Machine.execRound2FrameRx l sender f s
  | .agreementEnd l t walk => Sys2Proof.Machine.execAgreementEnd l t walk s
  | .correctionComplete l t => Sys2Proof.Machine.execCorrectionComplete l t s
  | .checkDeadline c => Sys2Proof.Machine.execCheckDeadline c s
  | .digestSend l => Sys2Proof.Machine.execDigestSend l s
  | .outputDigestRx l sender f => Sys2Proof.Machine.execOutputDigestRx l sender f s
  | .vote l t => Sys2Proof.Machine.execVote l t s
  | .sealTagRx l sender f => Sys2Proof.Machine.execSealTagRx l sender f s
  | .guardStart l t env => Sys2Proof.Machine.execGuardStart l t env s
  | .sealFailureNoticeRx l sender cyc => Sys2Proof.Machine.execSealFailureNoticeRx l sender cyc s
  | .deadlineMiss l phase => Sys2Proof.Machine.execDeadlineMiss l phase s
  | .laneStatusRx l sender f => Sys2Proof.Machine.execLaneStatusRx l sender f s
  | .xlLinkDown k => Sys2Proof.Machine.execXlLinkDown k s
  | .snapshotRequestRx l sender => Sys2Proof.Machine.execSnapshotRequestRx l sender s
  | .snapshotRx l sender m => Sys2Proof.Machine.execSnapshotRx l sender m s
  | .snapshotTimeout l => Sys2Proof.Machine.execSnapshotTimeout l s
  | .votedViewRx l m => Sys2Proof.Machine.execVotedViewRx l m s
  | .regSampleTimeout sess req l => Sys2Proof.Machine.execRegSampleTimeout sess req l s
  | .fcuBoundaryRx l f => Sys2Proof.Machine.execFcuBoundaryRx l f s
  | .b2Timeout => Sys2Proof.Machine.execB2Timeout s
  | .cycleSetLatch => Sys2Proof.Machine.execCycleSetLatch s
  | .cycleSetRx l f => Sys2Proof.Machine.execCycleSetRx l f s
  | .fcuCommandRx l f => Sys2Proof.Machine.execFcuCommandRx l f s
  | .outputApply => Sys2Proof.Machine.execOutputApply s
  | .groupOffCheck g high => Sys2Proof.Machine.execGroupOffCheck g high s
  | .inputSample k => Sys2Proof.Machine.execInputSample k s
  | .inputPathTest k zero => Sys2Proof.Machine.execInputPathTest k zero s
  | .readbackTest ch ok => Sys2Proof.Machine.execReadbackTest ch ok s
  | .stuckOnDetect ch => Sys2Proof.Machine.execStuckOnDetect ch s
  | .failedOffDetect ch => Sys2Proof.Machine.execFailedOffDetect ch s
  | .pepperPulseStart ch current => Sys2Proof.Machine.execPepperPulseStart ch current s
  | .pepperPulseEnd ch fall back => Sys2Proof.Machine.execPepperPulseEnd ch fall back s
  | .thermalShutdown ch => Sys2Proof.Machine.execThermalShutdown ch s
  | .overloadRetry ch takes => Sys2Proof.Machine.execOverloadRetry ch takes s
  | .toggleStop l g => Sys2Proof.Machine.execToggleStop l g s
  | .vprEnergise g => Sys2Proof.Machine.execVprEnergise g s
  | .vprDeenergise g => Sys2Proof.Machine.execVprDeenergise g s
  | .lplusWarning g mv => Sys2Proof.Machine.execLplusWarning g mv s
  | .lplusUndervoltage g mv => Sys2Proof.Machine.execLplusUndervoltage g mv s
  | .lplusRecovery g mv high => Sys2Proof.Machine.execLplusRecovery g mv high s
  | .restorePress inactiveMs activeMs => Sys2Proof.Machine.execRestorePress inactiveMs activeMs s
  | .restoreJam => Sys2Proof.Machine.execRestoreJam s
  | .degradeLimitFcu g => Sys2Proof.Machine.execDegradeLimitFcu g s
  | .degradeLimitLane l g => Sys2Proof.Machine.execDegradeLimitLane l g s
  | .fcuFault => Sys2Proof.Machine.execFcuFault s
  | .heartbeatRx l ring crcOk arrival bytes => Sys2Proof.Machine.execHeartbeatRx l ring crcOk arrival bytes s
  | .stage5Heartbeat => Sys2Proof.Machine.execStage5Heartbeat s
  | .snapBaseRx l crcOk last seg => Sys2Proof.Machine.execSnapBaseRx l crcOk last seg s
  | .snapDeltaRx l crcOk d => Sys2Proof.Machine.execSnapDeltaRx l crcOk d s
  | .snapEndRx l crcOk e => Sys2Proof.Machine.execSnapEndRx l crcOk e s
  | .healthRx l crcOk bytes => Sys2Proof.Machine.execHealthRx l crcOk bytes s
  | .dozeSnapRx l crcOk b digest => Sys2Proof.Machine.execDozeSnapRx l crcOk b digest s
  | .slumberEntry => Sys2Proof.Machine.execSlumberEntry s
  | .wakeEvent l env => Sys2Proof.Machine.execWakeEvent l env s
  | .wait l target wakeAfter => Sys2Proof.Machine.execWait l target wakeAfter s
  | .handshakeRequest l sinceRollbackUs => Sys2Proof.Machine.execHandshakeRequest l sinceRollbackUs s
  | .handshakeTimeout l => Sys2Proof.Machine.execHandshakeTimeout l s
  | .censusSend => Sys2Proof.Machine.execCensusSend s
  | .censusRx r c => Sys2Proof.Machine.execCensusRx r c s
  | .dupSlotExpiry => Sys2Proof.Machine.execDupSlotExpiry s
  | .delayReqSend p probe => Sys2Proof.Machine.execDelayReqSend p probe s
  | .delayReqRx r probe turnaround => Sys2Proof.Machine.execDelayReqRx r probe turnaround s
  | .delayRespRx r probe turnaround roundTrip => Sys2Proof.Machine.execDelayRespRx r probe turnaround roundTrip s
  | .borderRx r body => Sys2Proof.Machine.execBorderRx r body s
  | .tunnelRx r b => Sys2Proof.Machine.execTunnelRx r b s
  | .tunnelRetransmit gw tid => Sys2Proof.Machine.execTunnelRetransmit gw tid s
  | .tunnelTimeout gw tid => Sys2Proof.Machine.execTunnelTimeout gw tid s
  | .hostConnect maint conn tuple preamble data => Sys2Proof.Machine.execHostConnect maint conn tuple preamble data s
  | .tlsHandshake conn h => Sys2Proof.Machine.execTlsHandshake conn h s
  | .tlsHandshakeTimeout conn => Sys2Proof.Machine.execTlsHandshakeTimeout conn s
  | .sessionIdleTimeout sess => Sys2Proof.Machine.execSessionIdleTimeout sess s
  | .sessionClose sess => Sys2Proof.Machine.execSessionClose sess s
  | .arpRx net target => Sys2Proof.Machine.execArpRx net target s
  | .arpRefresh net pos mac => Sys2Proof.Machine.execArpRefresh net pos mac s
  | .monitorTrip l domain => Sys2Proof.Machine.execMonitorTrip l domain s
  | .monitorCalibration l cal => Sys2Proof.Machine.execMonitorCalibration l cal s
  | .crystalFail l c => Sys2Proof.Machine.execCrystalFail l c s
  | .sourceSwitchForced l domain => Sys2Proof.Machine.execSourceSwitchForced l domain s
  | .dividerStep l seat => Sys2Proof.Machine.execDividerStep l seat s
  | .meterGateEnd l ch count linkBad => Sys2Proof.Machine.execMeterGateEnd l ch count linkBad s
  | .gateRequest l gate enable => Sys2Proof.Machine.execGateRequest l gate enable s
  | .voltageRequest l r => Sys2Proof.Machine.execVoltageRequest l r s
  | .thermalStepDown l => Sys2Proof.Machine.execThermalStepDown l s
  | .thermalStepUp l => Sys2Proof.Machine.execThermalStepUp l s
  | .inputPresent inp v => Sys2Proof.Machine.execInputPresent inp v s
  | .inputAbsent inp v other => Sys2Proof.Machine.execInputAbsent inp v other s
  | .inputOvervoltage inp v => Sys2Proof.Machine.execInputOvervoltage inp v s
  | .mainPreferenceRestore => Sys2Proof.Machine.execMainPreferenceRestore s
  | .holdupSet => Sys2Proof.Machine.execHoldupSet s
  | .busReset => Sys2Proof.Machine.execBusReset s
  | .dipStart => Sys2Proof.Machine.execDipStart s
  | .dipEnd tenthMs lowTenMv => Sys2Proof.Machine.execDipEnd tenthMs lowTenMv s
  | .railFail l r => Sys2Proof.Machine.execRailFail l r s
  | .scrub l loc find => Sys2Proof.Machine.execScrub l loc find s
  | .xlLinkUp k => Sys2Proof.Machine.execXlLinkUp k s
  | .portLinkChange p up => Sys2Proof.Machine.execPortLinkChange p up s
  | .handshakeAnswer l ans => Sys2Proof.Machine.execHandshakeAnswer l ans s
  | .randomHealthTestFail l => Sys2Proof.Machine.execRandomHealthTestFail l s
  | .keyupdate sess lanes => Sys2Proof.Machine.execKeyupdate sess lanes s

end Sys2Proof.Machine
end

