-- ==== Sys2Proof/Safety.lean ====
section
/-!
DEFINITION. The terms in which claims are made: what a seat's next instruction needs to run, what it leaves in the
registers, and what a command leaves unchanged. Each says only what its docstring says, over the machine's own functions.
-/
namespace Sys2Proof.Machine

/-- Seat `x` of lane `l` evaluates a node in the evaluation `c`, the map entries that the node rests on hold their checks,
and the word fetched is the program's entry at the seat's offset (R63, R69). -/
structure RunsEntry (s : State) (l : LaneId) (x : SeatId) (c : Eval) (w : Word) : Prop where
  eval : evalOf (s.lane l) x = some c
  entry : nodeSound c.img c.i c.ent = true
  window : windowSound c.img c.ent = true
  fetch : fetchOk c w = true

/-- The entry is not the program's last (R69). -/
def Eval.notLast (c : Eval) : Prop := c.seat.off + 1 ≠ c.ent.plen.toNat

/-- Register `r` is full and its word is the word of `v` under its term and D(n) (R73). -/
def Eval.holds (c : Eval) (r : BitVec 4) (v : Half) : Prop :=
  c.seat.regs[r.toNat] = { word := encode c.slot v (gTerm r) c.n, full := true }

/-- Node `j` holds the word of `v` in bank C, S or P, under its signature and the bank's cycle number, and reading it
corrects `k` single-bit errors (R52, R60, R80). -/
def Eval.nodeReads (c : Eval) (m : BitVec 2) (j : Nat) (v : Half) (k : Nat) : Prop :=
  (bankWord c.lane.store m j).word = encode c.slot v (sigOf c.img j) (bcnOf c.lane.store c.n m) ∧
    ((bankWord c.lane.store m j).ecc = .ok ∧ k = 0 ∨ (bankWord c.lane.store m j).ecc = .single ∧ k = 1)

/-- R80's rules for the operand node `j` in bank `m` hold, and the node is not pending. -/
def Eval.operandOk (c : Eval) (m : BitVec 2) (j : Nat) : Prop :=
  j < c.img.hdr.nodes ∧ (m = 1 → j < c.i ∧ readable c j = true) ∧
    (m = 2 → c.ent.kind = 4 ∨ c.ent.kind = 12) ∧ (m ≠ 1 → j = c.i → c.ent.kind = 12)

/-- The state that the instruction at the seat's offset leaves when all it changes is the seat, which goes on at the next
entry. -/
def withSeat (s : State) (l : LaneId) (x : SeatId) (t : SeatState) : State :=
  s.begin.setLane l ((s.lane l).setSeat x { t with off := t.off + 1 })

/-- The seat with register `d` full and holding the word of `v` (R73). -/
def SeatState.withReg (t : SeatState) (c : Eval) (d : BitVec 4) (v : Half) : SeatState :=
  { t with regs := t.regs.set d.toNat { word := encode c.slot v (gTerm d) c.n, full := true } }

/-- The state after an instruction that writes `v` to register `d` and nothing else (R73, R75). -/
def writesReg (s : State) (l : LaneId) (x : SeatId) (c : Eval) (d : BitVec 4) (v : Half) : State :=
  withSeat s l x (c.seat.withReg c d v)

/-- The state after an instruction that writes `v` to register `d` and whose operand words had `k` single-bit errors
corrected (R60, R73). -/
def writesRegEcc (s : State) (l : LaneId) (x : SeatId) (c : Eval) (k : Nat) (d : BitVec 4) (v : Half) : State :=
  writesReg (s.modLane l fun m => m.noteEcc k 0) l x c d v

/-- Half-word at buffer key `key` of the inbound buffers that this phase presents holds the word of `v` under D(n), with
the mark SUBST or VALID (R51, R91, R92). -/
def Eval.inHolds (c : Eval) (key : Nat) (v : Half) (subst : Bool) : Prop :=
  inWord c key = encode c.slot v (sigKey inByte key) c.n ∧ inBad c key = false ∧ inSubst c key = subst

/-- Half-word at buffer key `key` of the outbound buffers, as the seat sees them, holds the word of `v` (R51, R93). -/
def Eval.outHolds (c : Eval) (key : Nat) (v : Half) : Prop :=
  outWord c key = encode c.slot v (sigKey outByte key) c.n ∧ outBad c key = false

/-- Every half-word that the window rewrite of node `i` reads passes its check, as an active seat sees it (R57, R60, R93). -/
def Lane.windowReads (l : Lane) (img : Image) (i : Option Nat) : Prop :=
  ∀ j e w k, i = some j → img.nodes[j]? = some e → isOutputKind e.kind = true → windowOf img e = some w → k ∈ windowHalves w →
    (l.outValueAt false (ctxKey w.ck w.index k) l.cyc.num).isSome = true

/-- Bit `b` of a buffer whose half-words are given by `h`: bit 15 − (b mod 16) of half-word b / 16 (R90). -/
def bufferBit (h : Nat → Half) (b : Nat) : Bool := (h (b / 16)).getLsbD (15 - b % 16)

/-- The value of a field of `w` bits at bit offset `b` with byte order 0: its first bit is its most significant (R90). -/
def bufferField (h : Nat → Half) (b : Nat) : Nat → Nat
  | 0 => 0
  | w + 1 => 2 * bufferField h b w + (bufferBit h (b + w)).toNat

/-- The selected unit of a seat holds the running value `r` in both engines (R126). -/
def Eval.unitHolds (c : Eval) (p : BitVec 2) (r : Coded) : Prop := c.seat.cvu = { poly := some p, par := r, ser := r }

/-- The running value after the bytes `bs`, by R124's step. -/
def fedValue (p : BitVec 2) (r : Coded) (bs : List Byte) : Coded := polyBytes (polyOf p) r bs

/-- The seat after a check-value instruction that leaves the running value `r` and fed `n` bytes (R95, R130). -/
def SeatState.withUnit (t : SeatState) (p : BitVec 2) (r : Coded) (n : Nat) : SeatState :=
  { t with cvu := { poly := some p, par := r, ser := r }, bytes := t.bytes + n }

/-- The number that `n` half-words spell, the most significant first (R95). -/
def partsValue (e : Nat → Half) : Nat → Nat
  | 0 => 0
  | n + 1 => partsValue e n * 65536 + (e n).toNat

/-- The window, context and half-words that UNPK and PACK need: the field lies within a buffer of `halves` half-words, and
a field of byte order 1 is a byte-aligned one of 16 bits (R90). -/
def fitsBuffer (f : FmtF) (halves : Nat) : Prop :=
  f.off.toNat + f.wid.toNat + 1 ≤ 16 * halves ∧ (f.e = 1 → f.off.toNat % 8 = 0 ∧ f.wid = 15)

/-- The value of the field in a buffer whose half-words are given by `h` (R90). -/
def fieldIn (f : FmtF) (h : Nat → Half) : Nat :=
  if f.e = 1 then bufferField h f.off.toNat 8 + 256 * bufferField h (f.off.toNat + 8) 8
  else bufferField h f.off.toNat (f.wid.toNat + 1)

/-- First half-word that the field touches (R90). -/
def firstHalf (f : FmtF) : Nat := f.off.toNat / 16

/-- Last half-word that the field touches (R90). -/
def lastHalf (f : FmtF) : Nat := (f.off.toNat + f.wid.toNat) / 16

/-- The state in which the cycle of lane `l` meets a node fault in an active seat: recorded, counted and the cycle dropped
with cause 0x3 in the seat's phase (R100, R101), unless a cause was there before (R44). -/
structure NodeFaulted (s t : State) (l : LaneId) (x : SeatId) (c : Eval) (code : BitVec 4) : Prop where
  others : ∀ y, y ≠ l → t.lane y = s.lane y
  code : (t.lane l).codes.nfCode = code
  seat : (t.lane l).codes.nfSeat = x.val
  index : (t.lane l).codes.nfIdx = c.i
  offset : (t.lane l).codes.nfOff = c.seat.off
  count : (t.lane l).codes.nfCnt = (s.lane l).codes.nfCnt + 1
  drop : (t.lane l).cyc.drop =
    some ((s.lane l).cyc.drop.getD { cause := 3, phase := if c.p5 then 5 else 1 })
  banks : (t.lane l).store.phys = (s.lane l).store.phys

/-- The three banks of a lane's state store are in canonical form (R52, R55). -/
def Store.banksOk (t : Store) : Bool := t.phys.all fun m => Mem.wf MemWord.zero m

/-- `t` is `u` after messages have left and nothing else has happened: items sent, tunnels that carry them, free values
drawn, and the numbers of the ring frames that carried them (R264, R276, R278). -/
structure OnlySends (u t : State) : Prop where
  sent : ∃ os, t.out = u.out ++ os
  rest : t = { u with out := t.out, tunnels := t.tunnels, freeCtr := t.freeCtr, la := t.la, lb := t.lb, lc := t.lc }
  lanes : ∀ x, t.lane x = { u.lane x with ring := { (u.lane x).ring with seq := (t.lane x).ring.seq } }

/-- The lanes of a set that act on a session's command (R274, R326). -/
def obeying (s : State) (k : Session) (lanes : LaneSet) : LaneSet := lanes.inter (LaneSet.those fun x => s.obeys k x)

/-- A confirm passes steps 1 to 4 in a lane, for the command `p` (R282). -/
structure ConfirmPasses (l : Lane) (m : ConfirmMsg) (p : Prepared) : Prop where
  held : l.preparedFor m = some p
  waits : p.expired = false ∧ p.confirmed = false
  unlocked : l.host.locks.any (fun k => k.1 == p.wsId) = false
  tag : ∃ k, (l.nv.ws.find? fun k => k.wsId == p.wsId) = some k ∧
    cmac k.key (bytesOf m.challenge ++ bytesOf m.applyCyc ++ [p.op]) = m.cmac

/-- The prepared commands once the challenge of `p` is confirmed (R282). -/
def confirmedList (l : Lane) (p : Prepared) : List Prepared :=
  l.host.prepared.map fun q => if q.challenge = p.challenge then { q with confirmed := true } else q

/-- No change of the security rules waits in the lane for its boundary. -/
def Lane.nothingWaits (l : Lane) : Prop :=
  l.sec.closeAll = false ∧ l.sec.recheck = false ∧ l.sec.pendWs = [] ∧ l.sec.pendUse = []

/-- A signature over `body` is that of the claimed authority (R308, R313, R314). -/
def Lane.signedBy (l : Lane) (body sig : List Byte) : Prop :=
  l.nv.claim = some (sha384 l.authPub) ∧ ecdsaVerify l.authPub body sig = true

/-- Every lane but `l` is in `t` as it is in `s`. -/
def KeepsOthers (s t : State) (l : LaneId) : Prop := ∀ y, y ≠ l → t.lane y = s.lane y

/-- Lane `l` has the image `img` and runs the phases of a cycle of the logic (R24, R287, R207). -/
structure RunsCycle (s : State) (l : LaneId) (img : Image) : Prop where
  image : (s.lane l).boot.img = some img
  cycle : (s.lane l).inCycle = true
  phased : (s.lane l).phased l = true
  evaluates : (s.lane l).evaluates = true

/-- Lane `x` receives a ring frame and takes it: it is of its module or for all, and not a later copy (R265). -/
structure TakesFrame (s : State) (r : RingRx) (x : LaneId) : Prop where
  lanes : r.lanes.has x = true
  port : (s.lane x).onRing = true
  takes : (s.lane x).ringTakes r = true
  first : r.hdr.seq ∉ (s.lane x).ring.window r.hdr.src

end Sys2Proof.Machine
end

