-- ==== Sys2Proof/Certificates/Slice0/Obligations.lean ====
section
/-!
DEFINITION. The statements about the module, one for each entry of OBLIGATIONS.json in its order, and the few
functions in which they are said.
-/
namespace Sys2Proof.Machine

/-- The lanes that act on a write to a register with a row of its own. -/
def writeTo (s : State) (lanes : LaneSet) (f : Lane → Lane) : State :=
  s.begin.modLanes (lanes.inter (LaneSet.those fun x => (s.lane x).acts)) fun _ l => f l

/-- The answer to a read, or the read that goes on waiting. -/
def readGoesOn (s : State) (r : VRead) : State :=
  if r.complete then
    ({ s with
        out := []
        reads := s.reads.filter fun q => !(q.sess = r.sess ∧ q.req = r.req) } : State).reply r.sess r.req 1 0 r.body
  else { s with
    out := []
    reads := s.reads.map fun q => if q.sess = r.sess ∧ q.req = r.req then r else q }

/-- The bytes of a package before its signature (R173). -/
def packageBytes (img : Image) (magic : List Byte) (area stn gen : Word) (pub fields : List Byte) : List Byte :=
  magic ++ [0, 1] ++ [img.own, 0] ++ midBytes ++ bytesOf area ++ bytesOf stn ++ bytesOf gen ++ toBe 2 img.hdr.tCycle ++ [0, 0] ++
    bytesOf (sha384 pub) ++ fields

/-- The limits of R274 on sessions. -/
def sessionLimits (s : State) : Prop := s.sessions.length ≤ 8 ∧ (s.sessions.filter (·.maint)).length ≤ 2

/-- Accumulator after `j` boundaries. -/
def accAfter (acc tCycle : Nat) : Nat → Nat
  | 0 => acc
  | j + 1 => accNext (accAfter acc tCycle j) tCycle

/-- Timer word after `j` boundaries from the one at which the word `v` was set, with the accumulator then at `acc`. -/
def timerAfter (acc tCycle : Nat) (v : Half) : Nat → Half
  | 0 => v
  | j + 1 => timerNext (timerAfter acc tCycle v j) (accTick (accAfter acc tCycle j) tCycle)

end Sys2Proof.Machine

open Sys2Proof Sys2Proof.Machine

/-- For every command c and state s, step of s with c at the front of its queue is exec of c on s with the rest of the
queue. On an empty queue step answers the state as it is, which is the choice of the model (log entry 6).
(00_scope.md) -/
def Obligations.StepRunsFront : Prop :=
  ∀ (s : State) (c : Instr) (rest : List Instr),
    step { s with pending := c :: rest } = exec c { s with pending := rest } ∧ step { s with pending := [] } = .next { s with pending := [] }

/-- The coded word of v under signature S and cycle m is (v · K + S + D(m)) mod 2^64 with D(m) = (m · Q) mod 2^64, K and
Q being those of the slot of the lane. A word c decodes to v exactly when (c − S − D(m)) · K^-1 mod 2^64 is below
2^16 and is v, and K^-1 is the inverse of K. A word that was encoded decodes to its value under its own signature,
and under another 32-bit signature it decodes to none. (R49) -/
def Obligations.CodedWords : Prop :=
  ∀ (slot : BitVec 2) (v : Half) (sig c : Coded) (m : Cycle) (s1 s2 : Word), slot ≠ 3 →
    let k := Config.kOf slot
    let d := m.setWidth 64 * Config.qOf slot
    let u := (c - sig - d) * Config.kInvOf slot
    encode slot v sig m = v.setWidth 64 * k + sig + d ∧ k * Config.kInvOf slot = 1 ∧
    (decode slot c sig m = some v ↔ u.toNat < 2 ^ 16 ∧ u = v.setWidth 64) ∧
    (decode slot c sig m = none ↔ 2 ^ 16 ≤ u.toNat) ∧ decode slot (encode slot v sig m) sig m = some v ∧
    (s1 ≠ s2 → decode slot (encode slot v (s1.setWidth 64) m) (s2.setWidth 64) m = none)

/-- For two different registers q and r and every value, the word encoded under G(r) decodes to none under G(q). The
difference of the two terms is a non-zero multiple of 2^40 of magnitude below 2^44, K is odd, and every u with u · K
equal to the difference modulo 2^64 is a multiple of 2^40. (R74) -/
def Obligations.RegisterTermsDiffer : Prop :=
  ∀ (slot : BitVec 2) (v : Half) (m : Cycle) (q r : BitVec 4) (u : Coded), slot ≠ 3 → q ≠ r →
    decode slot (encode slot v (gTerm r) m) (gTerm q) m = none ∧
    ((gTerm r).toNat : Int) - (gTerm q).toNat = 2 ^ 40 * ((r.toNat : Int) - q.toNat) ∧
    ((gTerm r).toNat : Int) - (gTerm q).toNat ≠ 0 ∧ (((gTerm r).toNat : Int) - (gTerm q).toNat).natAbs < 2 ^ 44 ∧
    (Config.kOf slot).getLsbD 0 = true ∧ (u * Config.kOf slot = gTerm r - gTerm q → 2 ^ 40 ∣ u.toNat)

/-- The polynomials selected by CSEL have the width, generator, initial value, reflection and final value of the table
of R123, and feeding the nine ASCII digits gives its check column. For every running value of the width of its
polynomial and every list of bytes the parallel engine (by bytes) and the serial engine (by half bytes) leave the
same running value, again within the width. (R123) -/
def Obligations.CheckValueUnits : Prop :=
  (∀ (fn : BitVec 2) (r : Coded) (bs : List Byte), r.toNat < 2 ^ (polyOf fn).width →
     bs.foldl (polyNibbles (polyOf fn)) r = polyBytes (polyOf fn) r bs ∧ (polyBytes (polyOf fn) r bs).toNat < 2 ^ (polyOf fn).width) ∧
  (let digits : List Byte := [0x31, 0x32, 0x33, 0x34, 0x35, 0x36, 0x37, 0x38, 0x39]
   let row (fn : BitVec 2) (width : Nat) (gen init : Coded) (refl : Bool) (fin check : Coded) : Prop :=
     let p := polyOf fn
     p.width = width ∧ p.init = init ∧ p.refl = refl ∧ p.fin = fin ∧
       (∀ j, j < width → p.gen.getLsbD (if refl then width - 1 - j else j) = gen.getLsbD j) ∧
       polyBytes p p.init digits ^^^ p.fin = check
   row 0 32 0x1EDC6F41 0xFFFFFFFF true 0xFFFFFFFF 0xE3069283 ∧ row 1 32 0x04C11DB7 0xFFFFFFFF true 0xFFFFFFFF 0xCBF43926 ∧
     row 2 16 0x1021 0xFFFF false 0 0x29B1 ∧ row 3 64 0x42F0E1EBA9EA3693 0 false 0 0x6C40DF5F0B497347)

/-- A timer set at a boundary with count k in cycle units reads expired after j further boundaries exactly when k ≤ j.
One set in 100 ms units reads expired only when the cycles passed exceed k · 100 ms, and it does once they reach (k
+ 1) · 100 ms. The accumulator of 100 ms may stand at any value below its wrap when the timer is set, and T_CYCLE is
any of 20 to 1000 (in 0.1 ms). (R85, R86, R88) -/
def Obligations.TimersExpire : Prop :=
  ∀ (k : Half) (acc t j : Nat), 1 ≤ k.toNat → k.toNat ≤ 16382 → acc < 1000 → 20 ≤ t → t ≤ 1000 →
    (tExpired (timerAfter acc t (tStarted false k) j) = true ↔ k.toNat ≤ j) ∧
    (tExpired (timerAfter acc t (tStarted true k) j) = true → 1000 * k.toNat < t * j) ∧
    (1000 * (k.toNat + 1) ≤ t * j → tExpired (timerAfter acc t (tStarted true k) j) = true)

/-- For every command of a node row, every lane and every seat: the word that its operands spell decodes to the same
command, and a word that decodes to a command is the word that the command spells. No bit of the 32-bit word is
dropped, reserved fields included. (R77, R78, R79) -/
def Obligations.EntriesDecode : Prop :=
  ∀ (i : Instr) (l : LaneId) (x : SeatId) (w : Word),
    (encodeWord i = some (l, x, w) → decodeWord l x w = some i) ∧ (decodeWord l x w = some i → encodeWord i = some (l, x, w))

/-- The word 0x8000019A is STN with index 410, 0xFC000000 is END, the zero word is no instruction, and the word of all
ones is an END with its reserved field set, which is not well formed. (R77, R78) -/
def Obligations.DecodedWords : Prop :=
  ∀ (l : LaneId) (x : SeatId),
    decodeWord l x 0x8000019A = some (.stn l x { ck := 0, z := 0, index := 410 }) ∧
    decodeWord l x 0xFC000000 = some (.fin l x { z := 0 }) ∧ decodeWord l x 0 = none ∧
    (∃ f, decodeWord l x 0xFFFFFFFF = some (.fin l x f) ∧ (Instr.fin l x f).wf = false)

/-- In a seat whose entry and map pass their checks, MOV, NOT, AND, OR, XOR, ANDN, SEL, CMP, CADD, CSUB, LDI, CMPI,
CADDI, CSUBI and MTCH answer a next state in which the destination register is full and holds the result, the seat
goes on at the next entry and nothing else has changed. Sums are clamped at 65535 and differences at 0, comparisons
are unsigned, and MTCH tests a range of 0 to 255. (R82, R73, R75, R69, R63) -/
def Obligations.RegisterResults : Prop :=
  (∀ (s : State) (l : LaneId) (x : SeatId) (c : Eval) (f : FmtG) (v w : Half) (p q r : Bool), c.notLast →
     ((Instr.mov l x f).wf = true → RunsEntry s l x c (wordG 0x10 f) → c.holds f.wa v →
       exec (.mov l x f) s = .next (writesReg s l x c f.wd v)) ∧
     ((Instr.not l x f).wf = true → RunsEntry s l x c (wordG 0x11 f) → c.holds f.wa (flag p) →
       exec (.not l x f) s = .next (writesReg s l x c f.wd (flag !p))) ∧
     ((Instr.and l x f).wf = true → RunsEntry s l x c (wordG 0x12 f) → c.holds f.wa (flag p) → c.holds f.wb (flag q) →
       exec (.and l x f) s = .next (writesReg s l x c f.wd (flag (p && q)))) ∧
     ((Instr.or l x f).wf = true → RunsEntry s l x c (wordG 0x13 f) → c.holds f.wa (flag p) → c.holds f.wb (flag q) →
       exec (.or l x f) s = .next (writesReg s l x c f.wd (flag (p || q)))) ∧
     ((Instr.xor l x f).wf = true → RunsEntry s l x c (wordG 0x14 f) → c.holds f.wa (flag p) → c.holds f.wb (flag q) →
       exec (.xor l x f) s = .next (writesReg s l x c f.wd (flag (p != q)))) ∧
     ((Instr.andn l x f).wf = true → RunsEntry s l x c (wordG 0x15 f) → c.holds f.wa (flag p) → c.holds f.wb (flag q) →
       exec (.andn l x f) s = .next (writesReg s l x c f.wd (flag (p && !q)))) ∧
     ((Instr.sel l x f).wf = true → RunsEntry s l x c (wordG 0x16 f) → c.holds f.wa v → c.holds f.wb w →
       c.holds f.wc (flag r) → exec (.sel l x f) s = .next (writesReg s l x c f.wd (if r then v else w)))) ∧
  (∀ (s : State) (l : LaneId) (x : SeatId) (c : Eval) (f : FmtG) (g : FmtI) (v w : Half) (b : Bool), c.notLast →
     ((Instr.cmp l x f).wf = true → RunsEntry s l x c (wordG 0x17 f) → c.holds f.wa v → c.holds f.wb w →
       (b = true ↔ f.fn = 0 ∧ v = w ∨ f.fn = 1 ∧ v ≠ w ∨ f.fn = 2 ∧ v.toNat < w.toNat ∨ f.fn = 3 ∧ w.toNat ≤ v.toNat) →
       exec (.cmp l x f) s = .next (writesReg s l x c f.wd (flag b))) ∧
     ((Instr.cmpi l x g).wf = true → RunsEntry s l x c (wordI 0x1B g) → c.holds g.wa v →
       (b = true ↔ g.fn = 0 ∧ v = g.imm ∨ g.fn = 1 ∧ v ≠ g.imm ∨ g.fn = 2 ∧ v.toNat < g.imm.toNat ∨
         g.fn = 3 ∧ g.imm.toNat ≤ v.toNat) →
       exec (.cmpi l x g) s = .next (writesReg s l x c g.wd (flag b))) ∧
     ((Instr.cadd l x f).wf = true → RunsEntry s l x c (wordG 0x18 f) → c.holds f.wa v → c.holds f.wb w →
       exec (.cadd l x f) s = .next (writesReg s l x c f.wd (BitVec.ofNat 16 (min (v.toNat + w.toNat) 65535)))) ∧
     ((Instr.csub l x f).wf = true → RunsEntry s l x c (wordG 0x19 f) → c.holds f.wa v → c.holds f.wb w →
       exec (.csub l x f) s = .next (writesReg s l x c f.wd (BitVec.ofNat 16 (v.toNat - w.toNat)))) ∧
     ((Instr.ldi l x g).wf = true → RunsEntry s l x c (wordI 0x1A g) →
       exec (.ldi l x g) s = .next (writesReg s l x c g.wd g.imm)) ∧
     ((Instr.caddi l x g).wf = true → RunsEntry s l x c (wordI 0x1C g) → c.holds g.wa v →
       exec (.caddi l x g) s = .next (writesReg s l x c g.wd (BitVec.ofNat 16 (min (v.toNat + g.imm.toNat) 65535)))) ∧
     ((Instr.csubi l x g).wf = true → RunsEntry s l x c (wordI 0x1D g) → c.holds g.wa v →
       exec (.csubi l x g) s = .next (writesReg s l x c g.wd (BitVec.ofNat 16 (v.toNat - g.imm.toNat)))) ∧
     ((Instr.mtch l x g).wf = true → RunsEntry s l x c (wordI 0x1E g) → c.holds g.wa v → v.toNat ≤ 255 →
       (b = true ↔ g.imm.toNat / 256 ≤ v.toNat ∧ v.toNat ≤ g.imm.toNat % 256) →
       exec (.mtch l x g) s = .next (writesReg s l x c g.wd (flag b))))

/-- LD, AND.N, OR.N, ANDN.N, SUBR and EDG on nodes that the rules of R80 and R83 permit write their result to the
register, correct and count the single-bit errors met, and change nothing else. SUBR writes the restrictive value of
the node. EDG compares bank S with bank C, and writes the restrictive value of its own node while that node is
blanked. (R80, R82, R83, R52, R60, R69) -/
def Obligations.NodeOperandResults : Prop :=
  ∀ (s : State) (l : LaneId) (x : SeatId) (c : Eval) (f : FmtN) (v w : Half) (p q b : Bool) (k k' : Nat) (e : NodeEntry),
    c.notLast →
    ((Instr.ld l x f).wf = true → RunsEntry s l x c (wordN 0x01 f) → c.operandOk f.m f.idx.toNat →
      c.nodeReads f.m f.idx.toNat v k → exec (.ld l x f) s = .next (writesRegEcc s l x c k f.w v)) ∧
    ((Instr.andN l x f).wf = true → RunsEntry s l x c (wordN 0x03 f) → c.operandOk f.m f.idx.toNat →
      c.holds f.w (flag p) → c.nodeReads f.m f.idx.toNat (flag q) k →
      exec (.andN l x f) s = .next (writesRegEcc s l x c k f.w (flag (p && q)))) ∧
    ((Instr.orN l x f).wf = true → RunsEntry s l x c (wordN 0x04 f) → c.operandOk f.m f.idx.toNat →
      c.holds f.w (flag p) → c.nodeReads f.m f.idx.toNat (flag q) k →
      exec (.orN l x f) s = .next (writesRegEcc s l x c k f.w (flag (p || q)))) ∧
    ((Instr.andnN l x f).wf = true → RunsEntry s l x c (wordN 0x05 f) → c.operandOk f.m f.idx.toNat →
      c.holds f.w (flag p) → c.nodeReads f.m f.idx.toNat (flag q) k →
      exec (.andnN l x f) s = .next (writesRegEcc s l x c k f.w (flag (p && !q)))) ∧
    ((Instr.subr l x f).wf = true → RunsEntry s l x c (wordN 0x06 f) → f.idx.toNat < c.img.hdr.nodes →
      c.img.nodes[f.idx.toNat]? = some e → nodeSound c.img f.idx.toNat e = true →
      exec (.subr l x f) s = .next (writesReg s l x c f.w e.rval)) ∧
    ((Instr.edg l x f).wf = true → RunsEntry s l x c (wordN 0x07 f) → c.ent.kind = 4 → c.operandOk 1 f.idx.toNat →
      c.nodeReads 1 f.idx.toNat v k → c.nodeReads 0 f.idx.toNat w k' →
      (b = true ↔ f.m = 0 ∧ w.toNat < v.toNat ∨ f.m = 1 ∧ v.toNat < w.toNat ∨ f.m = 2 ∧ v ≠ w) →
      exec (.edg l x f) s = .next (writesRegEcc s l x c (k + k') f.w
        (if Mem.get false c.lane.store.blank f.idx.toNat then c.ent.rval else flag b)))

/-- ST stores the forced value of the node, else its restrictive value under the substitution latch, else the value of
the register. In a seat that is not settling the coded word goes to the shadow bank with its ECC good, the retire
bit is set, and every other word of all banks stands. A settling seat holds the word for the comparison and writes
no bank. (R81, R91, R294, R59, R111) -/
def Obligations.StoreRetires : Prop :=
  ∀ (s : State) (l : LaneId) (x : SeatId) (c : Eval) (f : FmtN) (v u : Half) (word : Coded), c.notLast →
    (Instr.st l x f).wf = true → RunsEntry s l x c (wordN 0x02 f) → f.idx.toNat = c.i → c.holds f.w v →
    c.seat.stored = false → (c.seat.latch = false → v.toNat ≤ kindMax c.ent.kind) →
    (s.lane l).forceBad c.i = none →
    u = ((s.lane l).forcedValue c.i).getD (if c.seat.latch then c.ent.rval else v) →
    word = encode c.slot u (sigOf c.img c.i) c.n →
    (c.settle = false →
      exec (.st l x f) s = .next (s.begin.setLane l (
        let t := (s.lane l).store
        let b := bankOf t 1
        let m : Lane := { s.lane l with store := { t with
          phys := t.phys.set b.val (Mem.set MemWord.zero t.phys[b] c.i { word := word, ecc := .ok }),
          bitmap := Mem.set false t.bitmap c.i true,
          plain := Mem.set none t.plain c.i (some u),
          redone := if c.p5 then Mem.set false t.redone c.i true else t.redone } }
        let m := if c.p5 then m.statA fun a => { a with dirty := a.dirty + 1 } else m
        m.setSeat x { c.seat with stored := true, off := c.seat.off + 1 }))) ∧
    (c.settle = true →
      exec (.st l x f) s = .next (s.begin.setLane l (
        let r := (s.lane l).rot
        ({ s.lane l with rot := { r with ret := Mem.set none r.ret c.i (some word) } } : Lane).setSeat x
          { c.seat with stored := true, off := c.seat.off + 1 })))

/-- In the TIMER node that owns the handle, TSTART queues a start of 1 to 16382 in the unit of its M field and TSTOP a
stop, replacing the one queued before. TQRY writes bits 13 to 0 of the timer word, TEXP whether it runs and is 0,
TRUN whether it runs. Nothing else changes. (R86, R87, R63) -/
def Obligations.TimerResults : Prop :=
  ∀ (s : State) (l : LaneId) (x : SeatId) (c : Eval) (f : FmtN) (v : Half), c.notLast →
    f.idx.toNat < 65536 → f.idx.toNat < c.img.hdr.timers →
    (c.ent.kind = 3 → c.ent.aux.toNat = f.idx.toNat →
      ((Instr.tstart l x f).wf = true → RunsEntry s l x c (wordN 0x08 f) → c.holds f.w v → 1 ≤ v.toNat →
        v.toNat ≤ 16382 → exec (.tstart l x f) s = .next (withSeat s l x
          { c.seat with tq := some { h := f.idx.toNat, op := if f.m = 1 then 2 else 1, k := v } })) ∧
      ((Instr.tstop l x f).wf = true → RunsEntry s l x c (wordN 0x09 f) → exec (.tstop l x f) s = .next (withSeat s l x
          { c.seat with tq := some { h := f.idx.toNat, op := 3, k := 0 } }))) ∧
    (Mem.get 0 c.lane.store.timers f.idx.toNat = encode c.slot v (sigTimer f.idx.toNat) c.n →
      c.lane.store.poisoned (.timer f.idx.toNat) = false →
      ((Instr.tqry l x f).wf = true → RunsEntry s l x c (wordN 0x0A f) →
        exec (.tqry l x f) s = .next (writesReg s l x c f.w (BitVec.ofNat 16 (v.toNat % 2 ^ 14)))) ∧
      ((Instr.texp l x f).wf = true → RunsEntry s l x c (wordN 0x0B f) →
        exec (.texp l x f) s = .next (writesReg s l x c f.w (flag (v.getLsbD 15 && v.toNat % 2 ^ 14 == 0)))) ∧
      ((Instr.trun l x f).wf = true → RunsEntry s l x c (wordN 0x0C f) →
        exec (.trun l x f) s = .next (writesReg s l x c f.w (flag (v.getLsbD 15)))))

/-- STN sets the context that R89 permits. UNPK writes the value of the field at its bit offset, width and byte order,
or sets the latch and writes the restrictive value where a half-word is SUBST. PACK replaces exactly the bits of the
field in the one or two outbound half-words it touches and leaves every other word and buffer as it was. (R89, R90,
R91, R92, R93, R51) -/
def Obligations.FieldResults : Prop :=
  ∀ (s : State) (l : LaneId) (x : SeatId) (c : Eval) (f : FmtF) (g : FmtC) (k : Ctx) (h : Nat → Half) (b0 b1 : Bool)
    (v : Half), c.notLast →
    ((Instr.stn l x g).wf = true → RunsEntry s l x c (wordC 0x20 g) →
      (g.ck = 0 → g.index.toNat < c.img.hdr.stations) →
      (g.ck = 1 → g.index.toNat < 8 ∧ ∃ r, c.img.nbs[g.index.toNat]? = some r ∧ r.used.getLsbD 0 = true) →
      (g.ck = 2 ∨ g.ck = 3 → g.index = 0) →
      exec (.stn l x g) s = .next (withSeat s l x { c.seat with ctx := some { ck := g.ck, index := g.index.toNat } })) ∧
    ((Instr.unpk l x f).wf = true → RunsEntry s l x c (wordF 0x21 f) → c.seat.ctx = some k →
      c.ent.kind = (if k.ck = 0 then 5 else if k.ck = 1 then 10 else if k.ck = 2 then 7 else 9) →
      fitsBuffer f (inHalves c.img k.ck k.index) →
      c.inHolds (ctxKey k.ck k.index (firstHalf f)) (h (firstHalf f)) b0 →
      c.inHolds (ctxKey k.ck k.index (lastHalf f)) (h (lastHalf f)) b1 →
      exec (.unpk l x f) s = .next (
        if b0 || b1 then withSeat s l x ({ c.seat with latch := true }.withReg c f.w c.ent.rval)
        else writesReg s l x c f.w (BitVec.ofNat 16 (fieldIn f h)))) ∧
    ((Instr.pack l x f).wf = true → RunsEntry s l x c (wordF 0x22 f) → isOutputKind c.ent.kind = true →
      c.seat.ctx = some k → k.ck ≠ 3 → fitsBuffer f (outHalves c.img k.ck k.index) →
      inWindow (windowOf c.img c.ent) k f = true → c.holds f.w v → v.toNat < 2 ^ (f.wid.toNat + 1) →
      c.outHolds (ctxKey k.ck k.index (firstHalf f)) (h (firstHalf f)) →
      c.outHolds (ctxKey k.ck k.index (lastHalf f)) (h (lastHalf f)) →
      ∃ h' : Nat → Half,
        fieldIn f h' = v.toNat ∧
        (∀ b, b < f.off.toNat ∨ f.off.toNat + f.wid.toNat < b → bufferBit h' b = bufferBit h b) ∧
        exec (.pack l x f) s = .next (
          let w (j : Nat) : Coded :=
            encode c.slot (h' j) (sigKey outByte (ctxKey k.ck k.index j)) c.n
          let m := (s.lane l).putOut c.settle (ctxKey k.ck k.index (firstHalf f)) (w (firstHalf f))
          let m := if firstHalf f = lastHalf f then m
            else m.putOut c.settle (ctxKey k.ck k.index (lastHalf f)) (w (lastHalf f))
          s.begin.setLane l (m.setSeat x { c.seat with off := c.seat.off + 1 })))

/-- CSEL selects a polynomial and its initial value. CFB, CFH and CFW feed 1, 2 and 4 bytes, most significant first. CRD
reads a part of the running value and CWR replaces one. CCMP compares the final value with the expected one in
consecutive registers, counts the comparison and writes the outcome. Both engines of the unit hold the same value
throughout. (R95, R124, R126, R130, R123) -/
def Obligations.CheckValueResults : Prop :=
  ∀ (s : State) (l : LaneId) (x : SeatId) (c : Eval) (f : FmtG) (p : BitVec 2) (r r' : Coded) (v w : Half)
    (e : Nat → Half) (b : Bool), c.notLast →
    ((Instr.csel l x f).wf = true → RunsEntry s l x c (wordG 0x28 f) →
      exec (.csel l x f) s = .next (withSeat s l x (c.seat.withUnit f.fn (polyOf f.fn).init 0))) ∧
    (c.unitHolds p r →
      ((Instr.cfb l x f).wf = true → RunsEntry s l x c (wordG 0x29 f) → c.holds f.wa v → v.toNat ≤ 255 →
        exec (.cfb l x f) s = .next (withSeat s l x (c.seat.withUnit p (fedValue p r [v.setWidth 8]) 1))) ∧
      ((Instr.cfh l x f).wf = true → RunsEntry s l x c (wordG 0x2A f) → c.holds f.wa v →
        exec (.cfh l x f) s = .next (withSeat s l x (c.seat.withUnit p (fedValue p r [v.extractLsb' 8 8, v.setWidth 8]) 2))) ∧
      ((Instr.cfw l x f).wf = true → RunsEntry s l x c (wordG 0x2B f) → f.wa.getLsbD 0 = false → c.holds f.wa v →
        c.holds (f.wa + 1) w → exec (.cfw l x f) s = .next (withSeat s l x (c.seat.withUnit p (fedValue p r
          [v.extractLsb' 8 8, v.setWidth 8, w.extractLsb' 8 8, w.setWidth 8]) 4))) ∧
      ((Instr.crd l x f).wf = true → RunsEntry s l x c (wordG 0x2C f) → 16 * f.fn.toNat < (polyOf p).width →
        exec (.crd l x f) s = .next (writesReg s l x c f.wd (r.extractLsb' (16 * f.fn.toNat) 16))) ∧
      ((Instr.cwr l x f).wf = true → RunsEntry s l x c (wordG 0x2D f) → 16 * f.fn.toNat < (polyOf p).width →
        c.holds f.wa v →
        (∀ j, r'.getLsbD j = if j / 16 = f.fn.toNat then v.getLsbD (j % 16) else r.getLsbD j) →
        exec (.cwr l x f) s = .next (withSeat s l x (c.seat.withUnit p r' 0))) ∧
      ((Instr.ccmp l x f).wf = true → RunsEntry s l x c (wordG 0x2E f) →
        f.wa.toNat + (polyOf p).width / 16 ≤ 16 →
        (∀ j, j < (polyOf p).width / 16 → c.holds (f.wa + BitVec.ofNat 4 j) (e j)) →
        (b = true ↔ (r ^^^ (polyOf p).fin).toNat = partsValue e ((polyOf p).width / 16)) →
        (f.fn = 0 ∨ b = true) →
        exec (.ccmp l x f) s = .next (withSeat s l x ({ c.seat with
          cmps := c.seat.cmps + 1, falses := c.seat.falses + (!b).toNat }.withReg c f.wd (flag b)))))

/-- A branch whose offset is positive and whose target lies within the program goes there, BRZ on 0 and BRNZ on any
other value, else to the next entry. It changes the offset of the seat and nothing else. (R96, R98, R99) -/
def Obligations.BranchResults : Prop :=
  ∀ (s : State) (l : LaneId) (x : SeatId) (c : Eval) (f : FmtB) (v : Half) (n : Nat),
    c.notLast → 0 < f.off.toInt → (n : Int) = c.seat.off + f.off.toInt → n < c.ent.plen.toNat →
    ((Instr.br l x f).wf = true → RunsEntry s l x c (wordB 0x30 f) →
      exec (.br l x f) s = .next (s.begin.setLane l ((s.lane l).setSeat x { c.seat with off := n }))) ∧
    ((Instr.brz l x f).wf = true → RunsEntry s l x c (wordB 0x31 f) → c.holds f.wa v →
      exec (.brz l x f) s = .next (s.begin.setLane l ((s.lane l).setSeat x
        { c.seat with off := if v = 0 then n else c.seat.off + 1 }))) ∧
    ((Instr.brnz l x f).wf = true → RunsEntry s l x c (wordB 0x32 f) → c.holds f.wa v →
      exec (.brnz l x f) s = .next (s.begin.setLane l ((s.lane l).setSeat x
        { c.seat with off := if v = 0 then c.seat.off + 1 else n })))

/-- END after the store moves the seat to the next node of its hand with registers, context, latch and unit cleared,
hands the queued timer operation to the node and adds the count of comparisons. Banks and the other seats stand, and
so do the codes where the window of the next node reads without a failure. A seat fault is recorded and counted. In an active seat it joins the seats to be swapped, in a settling seat
it is a settle mismatch. It drops the cycle with cause 0x4 unless a cause was there before, and leaves seats and
store as they are. (R97, R87, R130, R113, R114, R44, R36, R111) -/
def Obligations.NodeEndsAndSeatFaults : Prop :=
  (∀ (s : State) (l : LaneId) (x : SeatId) (c : Eval) (f : FmtE) (hand : Fin 8), (Instr.fin l x f).wf = true →
     RunsEntry s l x c (wordE 0x3F f) → c.seat.stored = true → c.settle = false → c.seat.hand = some hand →
     ∃ t, exec (.fin l x f) s = .next t ∧
       ((t.lane l).seat x).node = nextOf (s.lane l) c.img hand.val c.p5 (c.i + 1) ∧
       ((t.lane l).seat x).off = 0 ∧ ((t.lane l).seat x).ctx = none ∧ ((t.lane l).seat x).latch = false ∧
       ((t.lane l).seat x).cvu.poly = none ∧
       (∀ r ∈ ((t.lane l).seat x).regs.toList, r.full = false) ∧
       (t.lane l).store.ops = Mem.set none (s.lane l).store.ops c.i c.seat.tq ∧
       (t.lane l).stats.a.cvuCmp = (s.lane l).stats.a.cvuCmp + c.seat.cmps ∧
       (∀ y, y ≠ x → (t.lane l).seat y = (s.lane l).seat y) ∧
       (t.lane l).store.phys = (s.lane l).store.phys ∧
       ((s.lane l).windowReads c.img (nextOf (s.lane l) c.img hand.val c.p5 (c.i + 1)) → (t.lane l).codes = (s.lane l).codes) ∧
       t = { s.setLane l (t.lane l) with out := [] }) ∧
  (∀ (s : State) (l : LaneId) (x : SeatId) (cause : BitVec 4), (s.lane l).cyc.running = true →
     (((s.lane l).seat x).code = 1 →
       ∃ t, exec (.seatFault l x cause) s = .next t ∧ t = { s.setLane l (t.lane l) with out := [] } ∧
         (t.lane l).codes.sfCause = cause ∧ (t.lane l).codes.sfSeat = x.val ∧
         (t.lane l).codes.sfCnt = (s.lane l).codes.sfCnt + 1 ∧
         (t.lane l).rot.faults = (s.lane l).rot.faults ++ [(x, cause)] ∧
         (t.lane l).cyc.drop = some ((s.lane l).cyc.drop.getD { cause := 4, phase := (s.lane l).cyc.phase }) ∧
         (t.lane l).seats = (s.lane l).seats ∧ (t.lane l).store = (s.lane l).store) ∧
     (((s.lane l).seat x).code = 3 → (s.lane l).rot.mismatch = false →
       ∃ t, exec (.seatFault l x cause) s = .next t ∧ t = { s.setLane l (t.lane l) with out := [] } ∧
         (t.lane l).rot.mismatch = true ∧ (t.lane l).rot.failSeat = x.val ∧
         (t.lane l).rot.failCnt = (s.lane l).rot.failCnt + 1 ∧ (t.lane l).codes.sfCause = 1 ∧
         (t.lane l).cyc.drop = some ((s.lane l).cyc.drop.getD { cause := 4, phase := (s.lane l).cyc.phase }) ∧
         (t.lane l).seats = (s.lane l).seats ∧ (t.lane l).store = (s.lane l).store))

/-- A node command other than a branch that is not well formed raises node fault 0x8 in the node and at the entry where
it stands: the fault is recorded and counted, the cycle is dropped with cause 0x3 unless a cause was there before,
and no bank changes. (R78, R100, R101, R44) -/
def Obligations.ReservedEncodingFaults : Prop :=
  ∀ (s : State) (l : LaneId) (x : SeatId) (c : Eval) (i : Instr) (w : Word),
    encodeWord i = some (l, x, w) → opcodeOf w ≠ 0x30 → opcodeOf w ≠ 0x31 → opcodeOf w ≠ 0x32 → i.wf = false →
    RunsEntry s l x c w → c.settle = false →
    ∃ t, exec i s = .next t ∧ NodeFaulted s t l x c 8

/-- A write to a mapped, aligned address reaches each selected lane. A lane that does not act answers 0x0E and stays as
it is. A lane that acts takes a write to SEC_TAP.EN while the module does not count as armed, a selection register of the session, or a write
of ones to a clearing register, and answers 0x00, and it answers 0x04 and stays as it is for a read-only register.
No other session, lane or part of the module changes. The layout of the response is log entry 42. (R379, R383, R385,
R277, R280) -/
def Obligations.RegisterWrites : Prop :=
  ∀ (s : State) (sess : Nat) (req : Word) (sel : LaneSel) (addr value : Word) (k : Session) (y : LaneId),
    s.session sess = some k → k.comm = false → s.respLane k = some y → sel.z = 0 → sel.voted = false →
    sel.lanes.count ≠ 0 → addr.toNat % 4 = 0 → mapped.contains addr.toNat = true →
    ∃ (t : State) (st : LaneId → Byte) (q : PerLane Sels),
      exec (.regWrite sess req sel addr value) s =
        .next (t.reply sess req 2 0 ((laneList.filter fun x => sel.lanes.has x).map st)) ∧
      t = { s with out := [], la := t.la, lb := t.lb, lc := t.lc, sessions := t.sessions } ∧
      t.session sess = some { k with sels := q } ∧ (∀ j, j ≠ sess → t.session j = s.session j) ∧
      ∀ x, let l := s.lane x
        let acts := sel.lanes.has x && (l.acts && k.lanes.has x)
        (sel.lanes.has x = true → acts = false → st x = 0x0E) ∧
        (acts = false → t.lane x = l ∧ q.get x = k.sels.get x) ∧
        (acts = true →
          (addr = 0x2824 → q.get x = k.sels.get x ∧
            (s.countsArmed = true → st x = 4 ∧ t.lane x = l) ∧
            (s.countsArmed = false → st x = 0 ∧ t.lane x = { l with sec := { l.sec with tap := value.getLsbD 0 } })) ∧
          (addr = 0x1020 → st x = 0 ∧ t.lane x = l ∧ q.get x = { k.sels.get x with stn := value.setWidth 12 }) ∧
          (addr = 0x1910 → st x = 0 ∧ t.lane x = l ∧ q.get x = { k.sels.get x with nb := value.setWidth 3 }) ∧
          (addr = 0x1C44 → st x = 0 ∧ t.lane x = l ∧ q.get x = { k.sels.get x with frc := value.setWidth 8 }) ∧
          (addr = 0x2018 → st x = 0 ∧ t.lane x = l ∧ q.get x = { k.sels.get x with meter := value.setWidth 3 }) ∧
          (addr = 0x2C10 → st x = 0 ∧ t.lane x = l ∧ q.get x = { k.sels.get x with slot := value.setWidth 16 }) ∧
          (addr.toNat ∉ [0x2824, 0x1020, 0x1910, 0x1C44, 0x2018, 0x2C10] → q.get x = k.sels.get x ∧
            match l.writeW1c addr.toNat value 0 with
            | some m => st x = 0 ∧ t.lane x = m
            | none => st x = 4 ∧ t.lane x = l))

/-- CYC_DROP_CAUSE, SEAT_NF, SEAT_FAULT, CVU_FAULT, CLK FORCED, PWR_STATUS, SUP WARN and STS_FAULT clear in every
addressed lane that acts where the written bit is 1 and its event does not coincide (operand hold), and stand
otherwise. SEC_TAP.EN is written only while no lane counts the module as armed. (R43, R44, R101, R121, R130, R338, R354, R387,
R321) -/
def Obligations.ClearsByWriting : Prop :=
  ∀ (s : State) (lanes : LaneSet) (value hold : Word),
    let on (b : Nat) (l m : Lane) : Lane := if value.getLsbD b = true ∧ hold.getLsbD b = false then m else l
    exec (.cycDropCauseClr lanes value hold) s = .next (writeTo s lanes fun l =>
      on 0 l { l with align := { l.align with dcHeld := false, dcCyc := 0, dcCause := 0, dcPhase := 0 } }) ∧
    exec (.seatNfClr lanes value hold) s = .next (writeTo s lanes fun l =>
      on 0 l { l with codes := { l.codes with nfCode := 0, nfSeat := 0, nfPhase := 0, nfIdx := 0, nfOp := 0, nfCyc := 0,
                                              nfOff := 0, nfHeld := false } }) ∧
    exec (.seatFaultClr lanes value hold) s = .next (writeTo s lanes fun l =>
      on 0 l { l with codes := { l.codes with sfCause := 0, sfSeat := 0 } }) ∧
    exec (.cvuFaultClr lanes value hold) s = .next (writeTo s lanes fun l =>
      on 0 l { l with codes := { l.codes with cfKind := 0, cfSeat := 0 } }) ∧
    exec (.clkForcedClr lanes value hold) s = .next (writeTo s lanes fun l =>
      on 5 l { l with clk := { l.clk with forced := false } }) ∧
    exec (.pwrStatusClr lanes value hold) s = .next (writeTo s lanes fun l =>
      on 0 l { l with pwr := { l.pwr with block := 0, rejF := false, rejV := false } }) ∧
    exec (.supWarnClr lanes value hold) s = .next (writeTo s lanes fun l =>
      on 4 l { l with pwr := { l.pwr with warn := false } }) ∧
    (∀ r : Byte, (∀ b, b < 8 → r.getLsbD b = (value.getLsbD b && !hold.getLsbD b)) →
      exec (.stsFaultClr lanes value hold) s = .next (writeTo s lanes fun l =>
        { l with codes := { l.codes with stsFault := l.codes.stsFault &&& ~~~r } })) ∧
    exec (.secTapEnWrite lanes value) s = .next (writeTo s lanes fun l =>
      if (laneList.any fun y => ((s.lane y).mode.accepted || (s.lane y).mode.armed) && (s.lane y).mode.mode != 5) = true then l
      else { l with sec := { l.sec with tap := value.getLsbD 0 } })

/-- A read of 1 to 64 mapped registers in lanes that hear the session answers, lane by lane in the order A, B, C, one
status byte and one word for each register as the register view of that lane gives it, and changes the latches of
the session alone. Reading the low register of CYC_NUM, STATE_EPOCH, the partner epoch or the record number latches
its high register in that lane for the session. (R276, R277, R379, R382, R386, R43) -/
def Obligations.RegisterReads : Prop :=
  (∀ (s : State) (sess : Nat) (req : Word) (sel : LaneSel) (addr : Word) (count : Nat) (k : Session) (y : LaneId),
     s.session sess = some k → s.respLane k = some y → sel.z = 0 → sel.voted = false → sel.lanes.count ≠ 0 →
     addr.toNat % 4 = 0 → 1 ≤ count → count ≤ 64 → (∀ i, i < count → mapped.contains (addr.toNat + 4 * i) = true) →
     s.readOf sess req = none →
     (∀ x, sel.lanes.has x = true → k.lanes.has x = true ∧ (s.lane x).boot.inReset = false) →
     ∃ (t : State) (u : LaneId → State),
       (∀ x, u x = { s with out := [], reads := (u x).reads, sessions := (u x).sessions }) ∧
       t = { s with out := [], sessions := t.sessions } ∧
       (∀ j, j ≠ sess → t.session j = s.session j) ∧
       (∃ q, t.session sess = some { k with latches := q }) ∧
       exec (.regRead sess req sel addr count) s = .next (t.reply sess req 1 0
         ((laneList.filter fun x => sel.lanes.has x).flatMap fun x =>
           (View.readBlock count { s := u x, x := x, sels := k.sels.get x, latches := k.latches.get x } addr.toNat).1.flatMap
             fun v => entryBytes 0 (v.getD 0)))) ∧
  (∀ (s : State) (sess : Nat) (l : LaneId) (k : Session),
     s.session sess = some k → k.lanes.has l = true → (s.lane l).boot.inReset = false →
     let high (c : Cycle) : Word := (c.extractLsb' 32 16).setWidth 32
     let latched (a : Nat) (v : Word) : State :=
       s.begin.setSession { k with latches := k.latches.put l (Mem.set 0 (k.latches.get l) a v) }
     exec (.loReadLatch sess l 0x810) s = .next (latched 0x814 (high (s.lane l).cyc.num)) ∧
     ((s.lane l).sec.loaded = true → exec (.loReadLatch sess l 0x180C) s = .next (latched 0x1810 (high (s.lane l).nv.se))) ∧
     exec (.loReadLatch sess l 0x1814) s = .next (latched 0x1818 (high (s.lane l).ptn.pse)) ∧
     exec (.loReadLatch sess l 0x2C04) s = .next (latched 0x2C08 (high (s.lane l).rcd.seq)))

/-- A voted read opens with the sampling cycle m + 1 and is sent to the other lanes. A lane in service samples at its
freeze, samples and timeouts arrive once for each lane, and the answer leaves when the read is complete. A lane
without samples is shown as 0x0E. An entry of the voted view is the value that two counted lanes sampled, and 0x08
where no two agree (ARM_REASON has a rule of its own and is excepted). (R13, R380, R381, R382, R280) -/
def Obligations.VotedReads : Prop :=
  (∀ (s : State) (sess : Nat) (req : Word) (sel : LaneSel) (addr : Word) (count : Nat) (k : Session) (y l z : LaneId)
     (r : VRead) (vs : List (Option Word)) (a : Word) (n : Nat) (m : Cycle),
     s.session sess = some k → s.respLane k = some y →
     (sel.z = 0 → sel.voted = true → addr.toNat % 4 = 0 → 1 ≤ count → count ≤ 64 →
       (∀ i, i < count → mapped.contains (addr.toNat + 4 * i) = true) → s.readOf sess req = none →
       (s.lane y).samplesAtFreeze y = true →
       let q : VRead :=
         { sess := sess, req := req, sel := sel, addr := addr, count := count, m := (s.lane y).cyc.num + 1, resp := y,
           got := noLanes.put y true, samples := PerLane.const none, counted := none, late := noLanes }
       exec (.regRead sess req sel addr count) s =
         .next (({ s with out := [], reads := s.reads ++ [q] } : State).xcast y
           (.voted (.request sess req addr count ((s.lane y).cyc.num + 1))))) ∧
     (s.readOf sess req = some r →
       (l ≠ r.resp → k.lanes.has l = true → (s.lane l).boot.inReset = false → r.sel.voted = true → r.samples.get l = none →
         (s.lane l).samplesAtFreeze l = true →
         exec (.votedViewRx l (.request sess req a n m)) s = .next { s with
           out := []
           reads := s.reads.map fun q => if q.sess = sess ∧ q.req = req then { r with got := r.got.put l true } else q }) ∧
       (z ≠ r.resp → vs.length = r.count → r.late.has z = false →
         exec (.votedViewRx r.resp (.samples sess req z vs)) s =
           .next (readGoesOn s { r with samples := r.samples.put z (some vs) })) ∧
       (r.samples.get l = none → r.late.has l = false →
         exec (.regSampleTimeout sess req l) s =
           .next (readGoesOn s { r with late := r.late.put l true, got := r.got.put l false })))) ∧
  (∀ (r : VRead) (i : Nat) (c : LaneSet), r.counted = some c → r.addr.toNat + 4 * i ≠ 0x408 →
     (∀ x : LaneId, r.sel.lanes.has x = true → r.samples.get x = none →
       r.laneBody x = (List.replicate r.count (0x0E :: bytesOf (0 : Word))).flatten) ∧
     (∀ v : Word, (∃ x y, x ≠ y ∧ c.has x = true ∧ c.has y = true ∧
         (∃ vs, r.samples.get x = some vs ∧ vs.getD i none = some v) ∧
         (∃ vs, r.samples.get y = some vs ∧ vs.getD i none = some v)) → r.votedEntry i = 0x00 :: bytesOf v) ∧
     ((¬ ∃ (v : Word) (x y : LaneId), x ≠ y ∧ c.has x = true ∧ c.has y = true ∧
         (∃ vs, r.samples.get x = some vs ∧ vs.getD i none = some v) ∧
         (∃ vs, r.samples.get y = some vs ∧ vs.getD i none = some v)) → r.votedEntry i = 0x08 :: bytesOf (0 : Word)))

/-- A post of an ordinary command for a cycle 1 to 256 ahead, before the freeze that closes it, joins the posts of every
addressed lane whose logic runs. One that comes too late is refused with 0x05, counted, and one beyond 256 cycles
with 0x06. WS_UNLOCK ends
the lock of one workstation once its 600 s are over, which a lane that runs cycles counts in them. CHALLENGE_EXPIRY marks the prepared commands of that
challenge as expired, counts them, and drops those of it that were expired or confirmed before. (R279, R280, R282,
R283) -/
def Obligations.Posts : Prop :=
  (∀ (s : State) (sess : Nat) (req : Word) (lanes : LaneSet) (slot value : Half) (m : Cycle) (k : Session) (l : LaneId)
     (ws : Word) (ch : BitVec 128), s.session sess = some k → k.maint = false → k.comm = false →
     (slot.toNat ≤ 3071 → (∀ x, (obeying s k lanes).has x = true → (s.lane x).runsLogic = true ∧
         (s.lane x).cyc.num.toNat < m.toNat ∧ m.toNat ≤ (s.lane x).cyc.num.toNat + 256 ∧
         ((s.lane x).cyc.frozen = true → m.toNat ≠ (s.lane x).cyc.num.toNat + 1)) →
       exec (.cmdPost sess req lanes slot value m) s = .next (s.begin.modLanes (obeying s k lanes) fun _ u =>
         { u with host := { u.host with posts := u.host.posts ++
           [{ sess := sess, req := req, cyc := m, op := 0, wsId := 0, kind := .pulse slot value }] } })) ∧
     exec (.wsUnlock l ws) s = .next (s.begin.modLane l fun u =>
       { u with host := { u.host with locks := u.host.locks.filter fun w =>
         !(w.1 == ws && (!u.inCycle || w.2.toNat ≤ u.cyc.num.toNat)) } }) ∧
     ∃ t, exec (.challengeExpiry l ch) s = .next t ∧
       t = s.begin.setLane l { s.lane l with host := { (s.lane l).host with
         prepared := (t.lane l).host.prepared, expired := (t.lane l).host.expired } } ∧
       (∀ p, p ∈ (t.lane l).host.prepared ↔ (p ∈ (s.lane l).host.prepared ∧ p.challenge ≠ ch) ∨
         ∃ q ∈ (s.lane l).host.prepared, q.challenge = ch ∧ q.expired = false ∧ q.confirmed = false ∧
           p = { q with expired := true }) ∧
       (t.lane l).host.expired = (s.lane l).host.expired + ((s.lane l).host.prepared.countP fun q =>
         q.challenge == ch && !q.expired && !q.confirmed)) ∧
  (∀ (s : State) (sess : Nat) (req : Word) (slot value : Half) (m : Cycle) (k : Session) (l : LaneId),
     s.session sess = some k → k.maint = false → k.comm = false → s.obeys k l = true → slot.toNat ≤ 3071 →
     (s.lane l).runsLogic = true → s.respLane k = some l →
     ∃ t, exec (.cmdPost sess req (noLanes.put l true) slot value m) s = .next t ∧
       ((m.toNat ≤ (s.lane l).cyc.num.toNat ∨ (m.toNat = (s.lane l).cyc.num.toNat + 1 ∧ (s.lane l).cyc.frozen = true) →
           .shp sess req 3 0x05 [] ∈ t.out) ∧
         ((s.lane l).cyc.num.toNat + 256 < m.toNat → .shp sess req 3 0x06 [] ∈ t.out)) ∧
       ((m.toNat ≤ (s.lane l).cyc.num.toNat ∨ (m.toNat = (s.lane l).cyc.num.toNat + 1 ∧ (s.lane l).cyc.frozen = true) ∨
           (s.lane l).cyc.num.toNat + 256 < m.toNat) →
         OnlySends (s.begin.modLane l fun u => { u with host := { u.host with late := u.host.late + 1 } }) t))

/-- A prepare with the right length, slot and cycle is kept by every addressed lane in place of an expired one of the
same challenge, and answered with the challenge: the first 16 bytes of SHA-384 over the tag, the scope, OP, WS_ID,
the prepare cycle and the parameters. (R281, R282) -/
def Obligations.PrepareGivesChallenge : Prop :=
  ∀ (s : State) (sess : Nat) (req : Word) (lanes : LaneSet) (op : Byte) (ws : Word) (m : Cycle) (params : List Byte)
    (k : Session), s.session sess = some k → k.comm = false → plenOk op params.length = true →
    (op = 1 ∨ op = 2 → 3072 ≤ beAt params 0 2 ∧ beAt params 0 2 ≤ 4095) →
    let scope (l : Lane) : List Byte :=
      if op = 1 ∨ op = 2 ∨ op = 3 then bytesOf l.boot.areaId ++ List.replicate 12 0 else midBytes
    let challenge (l : Lane) : BitVec 128 :=
      (sha384 ([0x4E, 0x44, 0x54, 0x43] ++ scope l ++ [op] ++ bytesOf ws ++ bytesOf m ++
        [BitVec.ofNat 8 params.length] ++ params)).extractLsb' 256 128
    (∀ x, (obeying s k lanes).has x = true → let l := s.lane x
      (l.mode.armed = false ∧ l.mode.mode = 0 → m = 0) ∧
      (l.mode.armed = true ∨ l.mode.mode ≠ 0 →
        l.cyc.num.toNat ≤ m.toNat + 256 ∧ m.toNat ≤ l.cyc.num.toNat + 256) ∧
      (∀ p ∈ l.host.prepared, p.challenge = challenge l → p.expired = true) ∧
      (∀ p ∈ l.host.prepared, p.waits = true → sess ∉ p.sessions) ∧ (l.host.prepared.countP fun p => p.waits) < 8) →
    ∃ t, exec (.critPrepare sess req lanes op ws m params) s = .next t ∧
      OnlySends (s.begin.modLanes (obeying s k lanes) fun _ l =>
        { l with host := { l.host with prepared := (l.host.prepared.filter fun p => p.challenge != challenge l) ++
          [{ challenge := challenge l, op := op, wsId := ws, prepCyc := m, params := params, sessions := [sess],
             expired := false, confirmed := false }] } }) t ∧
      (∀ y, s.respLane k = some y → (obeying s k lanes).has y = true →
        .shp sess req 4 0 (bytesOf (challenge (s.lane y))) ∈ t.out)

/-- KEEPALIVE answers and changes nothing. EVT_SUB sets the mask of the session. REC_READ answers for each record number
the 256 bytes of its slot with the status absent, good, bad or changing. IMG_READ answers the bytes of a section of
the loaded image. (R275, R277, R288, R375) -/
def Obligations.ObjectReads : Prop :=
  ∀ (s : State) (sess : Nat) (req : Word) (k : Session) (y x : LaneId) (mask first off : Word) (sel : LaneSel)
    (count len : Nat) (changing : List Nat) (sect : Byte) (img : Image) (b : List Byte),
    s.session sess = some k → k.comm = false → s.respLane k = some y →
    exec (.keepalive sess req) s = .next (s.begin.reply sess req 0x0B 0 []) ∧
    exec (.evtSub sess req mask) s = .next ((s.begin.setSession { k with mask := mask &&& 0x3FF }).reply sess req 6 0 []) ∧
    (sel.z = 0 → sel.voted = false → sel.lanes = noLanes.put x true → 1 ≤ count → count ≤ 16 → k.lanes.has x = true →
      (s.lane x).acts = true →
      exec (.recRead sess req sel first count changing) s = .next (s.begin.reply sess req 8 0
        ((List.range count).flatMap fun i =>
          let want := (first + BitVec.ofNat 32 i)
          let r := recBytes (s.lane x).nv.recs (256 * (want.toNat % 65536)) 256
          let st : Byte := match slotSeq (s.lane x).nv.recs (want.toNat % 65536) with
            | none => 1
            | some q => if q % 2 ^ 32 ≠ want.toNat then 1 else if i ∈ changing then 3
              else if crc32c (slice r 0 8 ++ slice r 12 240) = BitVec.ofNat 32 (beAt r 252 4) then 0 else 2
          st :: r))) ∧
    ((s.lane y).boot.img = some img → img.sections[sect.toNat]? = some b → len ≤ 4096 → off.toNat + len ≤ b.length →
      exec (.imgRead sess req sect off len) s =
        .next (s.begin.reply sess req 9 0 ((b.drop off.toNat).take len)))

/-- Where the confirm passes its steps in every addressed lane and its cycle is 1 to 256 ahead of a lane whose freeze
has not closed it, EMERGENCY_RELEASE, SECTION_RESET and the three force commands join the posts of each lane with
their parameters (a force command of another length with ACTION 0, which is none), and the challenge is confirmed. CRIT_CONFIRM has the same effect. (R281, R282, R291, R293) -/
def Obligations.AreaConfirmsPost : Prop :=
  ∀ (s : State) (m : ConfirmMsg) (k : Session) (p : Prepared), s.session m.sess = some k → k.comm = false →
    s.confirmed m = some p → p.op = 1 ∨ p.op = 2 ∨ p.op = 3 →
    (∀ x, (obeying s k m.lanes).has x = true → let l := s.lane x
      ConfirmPasses l m p ∧ l.runsLogic = true ∧ l.cyc.num.toNat < m.applyCyc.toNat ∧
      m.applyCyc.toNat ≤ l.cyc.num.toNat + 256 ∧ (l.cyc.frozen = true → m.applyCyc.toNat ≠ l.cyc.num.toNat + 1)) →
    let kind : PostKind :=
      if p.op = 3 then .force (if p.params.length = 7 then byteAt p.params 0 else 0) (beAt p.params 1 4) (BitVec.ofNat 16 (beAt p.params 5 2))
      else .pulse (BitVec.ofNat 16 (beAt p.params 0 2)) (BitVec.ofNat 16 (beAt p.params 2 2))
    let post : Post := { sess := m.sess, req := m.req, cyc := m.applyCyc, op := p.op, wsId := p.wsId, kind := kind }
    let t : State := s.begin.modLanes (obeying s k m.lanes) fun _ l =>
      { l with host := { l.host with prepared := confirmedList l p, posts := l.host.posts ++ [post] } }
    exec (.critConfirm m) s = .next t ∧
    (p.op = 1 → exec (.emergencyRelease m) s = .next t) ∧
    (p.op = 2 → exec (.sectionReset m) s = .next t) ∧
    (p.op = 3 → byteAt p.params 0 = 1 → exec (.forceSet m) s = .next t) ∧
    (p.op = 3 → byteAt p.params 0 = 2 → exec (.forceRemove m) s = .next t) ∧
    (p.op = 3 → byteAt p.params 0 = 3 → exec (.forceRemoveAll m) s = .next t)

/-- In lanes that run cycles a confirmed command of the module waits for the freeze. In a lane outside a cycle a mode
change to START restarts START, keeps the stores, and asks for the key, and a re-key begins the next generation of
the station at once. Both are answered with status 0. What a restart keeps is log entry 22. (R281, R282, R288, R289,
R315) -/
def Obligations.ModuleConfirms : Prop :=
  (∀ (s : State) (m : ConfirmMsg) (k : Session) (p : Prepared), s.session m.sess = some k → k.comm = false →
     s.confirmed m = some p → p.op = 5 ∨ p.op = 6 ∨ p.op = 7 → m.applyCyc = 0 →
     (∀ x, (obeying s k m.lanes).has x = true → let l := s.lane x
       ConfirmPasses l m p ∧ l.inCycle = true ∧ l.boot.img.isSome = true ∧ (p.op = 5 → l.ptn.role = 0)) →
     let c : ModCmd := { sess := m.sess, req := m.req, op := p.op, wsId := p.wsId, params := p.params }
     let t : State := s.begin.modLanes (obeying s k m.lanes) fun _ l =>
       { l with host := { l.host with prepared := confirmedList l p, modCmds := l.host.modCmds ++ [c] } }
     exec (.critConfirm m) s = .next t ∧
     (p.op = 5 → exec (.handover m) s = .next t) ∧
     (p.op = 6 → exec (.reKey m) s = .next t) ∧
     (p.op = 7 → exec (.modeChange m) s = .next t)) ∧
  (∀ (s : State) (m : ConfirmMsg) (k : Session) (p : Prepared) (x : LaneId) (g : GenRec) (img : Image),
     let l := s.lane x
     s.session m.sess = some k → k.comm = false → s.confirmed m = some p → m.applyCyc = 0 → m.lanes = noLanes.put x true →
     s.obeys k x = true → ConfirmPasses l m p → l.boot.img = some img → l.inCycle = false →
     (p.op = 7 → byteAt p.params 0 = 0 → l.mode.mode ≠ 0 →
       ∃ t, exec (.modeChange m) s = .next t ∧ t.keyWait = true ∧ (t.lane x).mode = ModeState.init ∧
         (t.lane x).cyc = CycState.init ∧ (t.lane x).boot = { l.boot with stage := 1 } ∧ (t.lane x).ptn.role = 5 ∧
         (t.lane x).store = l.store ∧ (t.lane x).nv = { l.nv with seStored := (t.lane x).nv.seStored } ∧ (t.lane x).host.confirmed = l.host.confirmed + 1 ∧
         (s.respLane k = some x → .shp m.sess m.req 5 0 [] ∈ t.out)) ∧
     (p.op = 6 → l.mode.armed = true → beAt p.params 0 2 < img.stations.length → l.gen (beAt p.params 0 2) = some g →
       g.pend = none → g.cur.toNat < 2 ^ 32 - 1 →
       ∃ t, exec (.reKey m) s = .next t ∧
         OnlySends (s.begin.setLane x { l with
           nv := { l.nv with gens := Mem.set none l.nv.gens (beAt p.params 0 2) (some { g with pend := some (g.cur + 1) }) }
           host := { l.host with
             prepared := confirmedList l p, lastOp := 6, lastSt := 0, lastWs := p.wsId.setWidth 16
             confirmed := l.host.confirmed + 1 } }) t ∧
         (s.respLane k = some x → .shp m.sess m.req 5 0 [] ∈ t.out)))

/-- Mode changes between SERVICE and MAINTENANCE, and to DORMANT from a standby, set the mode and flag a record. A
change back to SERVICE while a permissive force stands is refused with 0x0D and code 0x12, and one out of DORMANT
orders the wake. A re-key opens the
pending generation. A handover to a ready candidate, 256 cycles after a takeover, is announced for the cycle after the
next, and changes nothing else. (R288, R250, R290, R256, R258, R315) -/
def Obligations.ModuleCommandsSettle : Prop :=
  ∀ (s : State) (x : LaneId) (img : Image) (c : ModCmd) (g : GenRec) (h : Heartbeat), let l := s.lane x
    (c.op = 7 → byteAt c.params 0 = 4 → l.mode.mode = 1 →
      s.applyModule x img c = (s.setLane x (({ l with mode := { l.mode with mode := 4 } } : Lane).recordFlag 2), Verdict.ok)) ∧
    (c.op = 7 → byteAt c.params 0 = 1 → l.mode.mode = 4 → l.permissive img = false →
      s.applyModule x img c = (s.setLane x (({ l with mode := { l.mode with mode := 1 } } : Lane).recordFlag 2), Verdict.ok)) ∧
    (c.op = 7 → byteAt c.params 0 = 1 → l.mode.mode = 4 → l.permissive img = true →
      s.applyModule x img c = (s.setLane x { l with force := { l.force with lastCode := 0x12, lastNode := 0 } },
        { status := 0x0D, code := some 0x12 })) ∧
    (c.op = 7 → byteAt c.params 0 = 3 → l.mode.mode = 1 → l.ptn.role = 1 ∨ l.ptn.role = 2 →
      s.applyModule x img c = (s.setLane x (({ l with mode := { l.mode with mode := 3 } } : Lane).recordFlag 2), Verdict.ok)) ∧
    (c.op = 7 → byteAt c.params 0 = 1 → l.mode.mode = 3 →
      s.applyModule x img c = (s.setLane x { l with pwr := { l.pwr with wakeDue := true } }, Verdict.ok)) ∧
    (c.op = 6 → beAt c.params 0 2 < img.stations.length → l.gen (beAt c.params 0 2) = some g → g.pend = none →
      g.cur.toNat < 2 ^ 32 - 1 →
      s.applyModule x img c = (s.setLane x { l with nv := { l.nv with
        gens := Mem.set none l.nv.gens (beAt c.params 0 2) (some { g with pend := some (g.cur + 1) }) } }, Verdict.ok)) ∧
    (c.op = 5 → l.ptn.last = some h → l.ptn.prole = 4 → 256 ≤ l.ptn.bmatch → l.forced l.cyc.num = false →
      lanesOf h.lanes = 3 → l.ptn.path1 = true → l.ptn.path2 = true → l.fail.ho = .idle →
      (∀ k, l.fail.tookAt = some k → k.toNat + 256 < l.cyc.num.toNat) →
      ∃ t, s.applyModule x img c = (t, Verdict.ok) ∧ t.lane x = { l with fail := { l.fail with
          ho := .announced (l.cyc.num + 2) false, hoCarry := byteAt c.params 0 == 1
          hoUse := byteAt c.params 0 == 1, hoCode := 0 } } ∧
        t = { s.setLane x (t.lane x) with freeCtr := t.freeCtr })

/-- Where every addressed lane passes the arming check and they are at least MIN_LANES, each lane accepts the arming
with its role, clears its reason code and opens the vote among these lanes. Every lane of the module that takes part
raises its generation floor to that of the image, every lane closes its test port, and nothing else changes. Start marks leave on every usable link between them and the
command is answered with status 0. (R155, R156, R157, R158, R347) -/
def Obligations.ArmingAccepted : Prop :=
  ∀ (s : State) (m : ConfirmMsg) (k : Session) (p : Prepared) (role : LaneId → BitVec 4) (img : LaneId → Image) (gen : Word),
    s.session m.sess = some k → k.comm = false → s.confirmed m = some p → p.op = 4 →
    let v := obeying s k m.lanes
    (∃ x, v.has x = true) →
    (∀ x, v.has x = true → let l := s.lane x
      ConfirmPasses l m p ∧ l.boot.img = some (img x) ∧ l.roleTaken (img x) = .ok (role x) ∧ l.armCode s.fcu = (0, 0) ∧
      (img x).params.minLanes.toNat ≤ v.count ∧ (img x).hdr.gen = gen) →
    ∃ t, exec (.arming m) s = .next t ∧
      OnlySends ((s.begin.modLanes v fun x l => { l with
        boot := { l.boot with code := 0, index := 0 }
        mode := { l.mode with accepted := true, takes := role x, marks := noLanes }
        vote := { Vote.init with
          service := v
          codes := { a := if v.a then 1 else 0, b := if v.b then 1 else 0, c := if v.c then 1 else 0 } }
        pwr := { l.pwr with admitOps := admitPoints (img x).hdr }
        host := { l.host with
          prepared := confirmedList l p, lastOp := 4, lastSt := 0, lastWs := p.wsId.setWidth 16
          confirmed := l.host.confirmed + 1 } }).mapLanes fun _ l => { l with
        nv := { l.nv with genFloor := if l.live = true ∧ l.nv.genFloor.toNat < gen.toNat then gen else l.nv.genFloor }
        sec := { l.sec with tap := false } }) t ∧
      (∀ x y r, v.has x = true → y ≠ x → s.route x y = some r → .xl x y r .startMark ∈ t.out) ∧
      (∀ y, s.respLane k = some y → v.has y = true → .shp m.sess m.req 5 0 [] ∈ t.out)

/-- Each sub-command whose conditions hold in every addressed lane answers status 0 and changes exactly its own part of
the secure store: the claim list, nothing (CSR, which answers the request over the identity key), the chain, the
anchors with their number, the revocation list with its number. Anchors and revocations wait for the boundary to
close sessions where boundaries run, and in START the anchors are replaced at once (log entry 31). (R307, R308,
R311, R313, R319) -/
def Obligations.Provisioning : Prop :=
  (∀ (s : State) (sess : Nat) (req : Word) (k : Session) (b : ClaimBody) (chain : List Cert) (ra : AnchorRec) (rv : RevokeRec)
     (secret : LaneId → BitVec 384), s.session sess = some k → k.maint = true →
     let v := obeying s k allLanes
     let gives (t : State) (body : LaneId → List Byte) : Prop :=
       ∀ y, s.respLane k = some y → v.has y = true → .shp sess req 0x0A 0 (body y) ∈ t.out
     ((∀ x, v.has x = true → let l := s.lane x
         l.nothingWaits ∧ l.mode.armed = false ∧ l.mode.mode = 0 ∧
         match b.later with
         | none => l.nv.claims = [] ∧ k.ownJ10 = true
         | some (pub, sig) => l.nv.claims.length < 4 ∧ l.nv.claim = some (sha384 pub) ∧
           ecdsaVerify pub ([0x4E, 0x44, 0x41, 0x43] ++ midBytes ++ [BitVec.ofNat 8 l.nv.claims.length] ++ bytesOf b.hash)
             sig = true) →
       ∃ t, exec (.claim sess req b) s = .next t ∧
         OnlySends (s.begin.modLanes v fun _ l => { l with nv := { l.nv with claims := l.nv.claims ++ [b.hash] } }) t ∧
         gives t fun _ => []) ∧
     ((∀ x, v.has x = true → (s.lane x).nothingWaits ∧ (s.lane x).nv.secret = some (secret x)) →
       ∃ t, exec (.csr sess req) s = .next t ∧ OnlySends s.begin t ∧
         gives t fun x => Config.csrBytes (identitySeed (secret x)) midText) ∧
     ((∀ x, v.has x = true → (s.lane x).nothingWaits ∧ (s.lane x).nv.ownChain chain = true) →
       ∃ t, exec (.cert sess req chain) s = .next t ∧
         OnlySends (s.begin.modLanes v fun _ l => { l with nv := { l.nv with chain := chain } }) t ∧ gives t fun _ => []) ∧
     ((∀ x, v.has x = true → let l := s.lane x
         l.hasBoundaries = true ∧ 1 ≤ ra.certs.length ∧ ra.certs.length ≤ 4 ∧ l.signedBy (Config.anchorBytes ra.seq ra.certs) ra.sig ∧
         (l.nv.anchors ≠ [] → l.nv.anchSeq.toNat < ra.seq.toNat)) →
       ∃ t, exec (.anchor sess req ra) s = .next t ∧
         OnlySends (s.begin.modLanes v fun _ l => { l with
           nv := { l.nv with anchors := ra.certs, anchSeq := ra.seq }
           sec := { l.sec with closeAll := l.sec.closeAll || l.nv.anchors.isEmpty, recheck := true } }) t ∧
         gives t fun _ => []) ∧
     (k.comm = false → (∀ x, v.has x = true → let l := s.lane x
         l.hasBoundaries = true ∧ rv.entries.length ≤ 1024 ∧ (∀ e ∈ rv.entries, e.2.length ≤ 20) ∧
         l.signedBy (Config.revokeBytes rv.seq rv.entries) rv.sig ∧
         (∀ h, l.nv.revSeq = some h → h.toNat < rv.seq.toNat)) →
       ∃ t, exec (.revoke sess req rv) s = .next t ∧
         OnlySends (s.begin.modLanes v fun _ l => { l with
           nv := { l.nv with revoked := rv.entries, revSeq := some rv.seq }, sec := { l.sec with recheck := true } }) t ∧
         gives t fun _ => [])) ∧
  (∀ (s : State) (sess : Nat) (req : Word) (k : Session) (ra : AnchorRec), s.session sess = some k → k.maint = true →
     (∀ x, (obeying s k allLanes).has x = true → let l := s.lane x
       l.hasBoundaries = false ∧ 1 ≤ ra.certs.length ∧ ra.certs.length ≤ 4 ∧ l.signedBy (Config.anchorBytes ra.seq ra.certs) ra.sig ∧
       (l.nv.anchors ≠ [] → l.nv.anchSeq.toNat < ra.seq.toNat)) →
     ∃ t, exec (.anchor sess req ra) s = .next t ∧
       (∀ x, (obeying s k allLanes).has x = true → (t.lane x).nv.anchors = ra.certs ∧ (t.lane x).nv.anchSeq = ra.seq) ∧
       (∀ x, (obeying s k allLanes).has x = false → (t.lane x).nv = (s.lane x).nv))

/-- A record signed by the claimed authority with a number above the last one of the workstation waits for the boundary
where boundaries run. Outside them a registration replaces the key of the workstation by the unwrapped one, and a
revocation removes the key and every prepared command of the workstation that is not confirmed, and counts those
that still waited. Nothing else changes. (R286, R313, R314) -/
def Obligations.WorkstationKeys : Prop :=
  ∀ (s : State) (sess : Nat) (req : Word) (k : Session) (r : WsReg) (key : LaneId → BitVec 256),
    s.session sess = some k → k.maint = true → k.comm = false → r.eph.length = 97 → r.wrap.length = 40 →
    let v := obeying s k allLanes
    let seen (n : Nv) : List (Word × Word) := (n.wsSeq.filter fun p => p.1 != r.wsId) ++ [(r.wsId, r.seq)]
    (∀ x, v.has x = true → let l := s.lane x
      l.signedBy (bytesOf r.wsId ++ [r.action] ++ bytesOf r.seq ++ r.eph ++ r.wrap) r.sig ∧
      (∀ q, (l.nv.wsSeq.find? fun p => p.1 == r.wsId) = some q → q.2.toNat < r.seq.toNat) ∧
      (r.action = 1 → l.otherWs r.wsId < 64 ∧ l.nv.wsKeyOf r = some (key x))) →
    (r.action = 1 ∨ r.action = 2 → (∀ x, v.has x = true → (s.lane x).hasBoundaries = true) →
      ∃ t, exec (.wsReg sess req r) s = .next t ∧
        OnlySends (s.begin.modLanes v fun _ l => { l with
          nv := { l.nv with wsSeq := seen l.nv }, sec := { l.sec with pendWs := l.sec.pendWs ++ [r] } }) t ∧
        (∀ y, s.respLane k = some y → v.has y = true → .shp sess req 0x0A 0 [] ∈ t.out)) ∧
    (r.action = 1 → (∀ x, v.has x = true → (s.lane x).hasBoundaries = false ∧ (s.lane x).nothingWaits) →
      ∃ t, exec (.wsReg sess req r) s = .next t ∧
        OnlySends (s.begin.modLanes v fun x l => { l with nv := { l.nv with
          wsSeq := seen l.nv
          ws := (l.nv.ws.filter fun w => w.wsId != r.wsId) ++ [{ wsId := r.wsId, key := key x }] } }) t) ∧
    (r.action = 2 → (∀ x, v.has x = true → (s.lane x).hasBoundaries = false ∧ (s.lane x).nothingWaits) →
      ∃ t, exec (.wsReg sess req r) s = .next t ∧
        OnlySends (s.begin.modLanes v fun _ l => { l with
          nv := { l.nv with wsSeq := seen l.nv, ws := l.nv.ws.filter fun w => w.wsId != r.wsId }
          host := { l.host with
            prepared := l.host.prepared.filter fun p => p.wsId != r.wsId || p.confirmed
            expired := l.host.expired + l.host.prepared.countP fun p => p.wsId == r.wsId && !p.expired && !p.confirmed } }) t)

/-- A package request whose conditions hold in every lane that acts waits for the fields of the lanes. Each such lane
draws its field, an ephemeral public value and its key wrapped under the agreed secret, and sends it to the others
over the exchange links. A field that arrives is held, and once two lanes hold equal fields the signed package of
R173 leaves, the first one of a station creates its generation, and an export is noted. The field of a lane that
does not act is free (log entry 79). (R13, R171, R173, R307, R316, R317) -/
def Obligations.PackagesIssued : Prop :=
  (∀ (s : State) (sess : Nat) (req : Word) (k : Session) (pos : Half) (pend purpose : Byte) (qoc : List Byte) (area gen : Word)
     (chain : List Cert) (y : LaneId) (img : Image) (secret : BitVec 384) (stn : StationRec) (key : LaneId → BitVec 256),
     s.session sess = some k → k.maint = true → k.comm = false → s.respLane k = some y →
     let v := obeying s k allLanes
     v.has y = true →
     (∀ x, v.has x = true → (s.lane x).boot.img = some img ∧ (s.lane x).nv.secret = some secret ∧ (s.lane x).sec.trngOk = true) →
     let holds (label : List Byte) (stn gen : Word) : Prop :=
       ∀ x, v.has x = true → (s.lane x).keyFor x label stn gen = some (key x)
     let waits (i : Instr) (sub : Byte) (p : Package) (mark : PkgMark) : Prop :=
       ∃ t w, ∃ f : LaneId → List Byte, exec i s = .next t ∧
         w.sess = sess ∧ w.req = req ∧ w.sub = sub ∧ w.pkg = p ∧ w.mark = mark ∧
         OnlySends { s.begin with pkgs := (s.pkgs.filter fun u => !(u.sess == sess && u.req == req)) ++ [w] } t ∧
         (∀ x z, (w.held.get x).get z = if x = z ∨ v.has z = false then some (f z) else none) ∧
         ∀ x, v.has x = true → (∃ e : BitVec 448, f x = pubOf e ++ kwWrap ((sha384 (ecdh e p.pub ++ [0x4E, 0x44, 0x54, 0x57] ++
             [x.byte] ++ bytesOf p.stn ++ bytesOf p.gen)).extractLsb' 128 256) (bytesOf (key x))) ∧
           ∀ z r, z ≠ x → s.route x z = some r → .xl x z r (.voted (.fields sess req x (f x))) ∈ t.out
     (img.stations[pos.toNat]? = some stn → qoc.length = 97 → pend.toNat ≤ 1 →
       (∀ x, v.has x = true → let l := s.lane x
         (l.mode.armed = true ∨ l.atStage5 = true) ∧
         match l.gen pos.toNat with
         | none => pend = 0 ∧ gen = stn.keyGen
         | some g => if pend = 1 then g.pend = some gen else g.cur = gen) →
       holds [0x4E, 0x44, 0x54] stn.stnId gen →
       waits (.stnPkg sess req pos pend qoc) 7
         { magic := [0x4E, 0x44, 0x50, 0x4B], area := img.params.areaId, stn := stn.stnId, gen := gen, pub := qoc }
         (.station pos.toNat gen)) ∧
     (purpose = 0x42 ∨ purpose = 0x48 → (∀ x, v.has x = true → (s.lane x).nv.chainOk chain = true) →
       holds (if purpose = 0x48 then [0x4E, 0x44, 0x48] else [0x4E, 0x44, 0x42]) area gen →
       waits (.peerExport sess req purpose area gen chain) 8
         { magic := [0x4E, 0x44, 0x50, 0x50], area := area, stn := purpose ++ (0 : BitVec 24), gen := gen,
           pub := (chain.head?.map (·.pub)).getD [] }
         (.peer purpose area gen))) ∧
  (∀ (s : State) (sess : Nat) (req : Word) (k : Session) (l z x₁ x₂ y : LaneId) (field fs : List Byte) (w : PkgWait)
     (img : Image) (secret : BitVec 384),
     s.session sess = some k → l ≠ z → s.obeys k l = true →
     (s.pkgs.find? fun u => u.sess == sess && u.req == req) = some w →
     let g : PkgWait := { w with held := w.held.put l ((w.held.get l).put z (some field)) }
     ((∀ x y, x ≠ y → g.fieldsIn x = none ∨ g.fieldsIn y = none) →
       exec (.votedViewRx l (.fields sess req z field)) s =
         .next { s.begin with pkgs := s.pkgs.map fun u => if u.sess == sess && u.req == req then g else u }) ∧
     (x₁ ≠ x₂ → (∀ x, x = x₁ ∨ x = x₂ → g.fieldsIn x = some fs ∧ (s.lane x).boot.img = some img ∧
         (s.lane x).nv.secret = some secret) → s.respLane k = some y →
       ∃ t, exec (.votedViewRx l (.fields sess req z field)) s = .next t ∧
         OnlySends (({ s.begin with pkgs := s.pkgs.filter fun u => !(u.sess == sess && u.req == req) } : State).modLanes
           (obeying s k allLanes) fun _ m => match w.mark with
             | .station pos gen => (match m.gen pos with
               | some _ => m
               | none => { m with nv := { m.nv with gens := Mem.set none m.nv.gens pos (some { cur := gen, pend := none }) } })
             | .peer purpose area gen => { m with nv := { m.nv with
                 exported := (m.nv.exported.filter (· != (purpose, area, gen))) ++ [(purpose, area, gen)] } }) t ∧
         let b := packageBytes img w.pkg.magic w.pkg.area w.pkg.stn w.pkg.gen w.pkg.pub fs
         .shp sess req 0x0A 0 (b ++ ecdsaSign (identitySeed secret) b) ∈ t.out))

/-- An import of a well-formed package that each lane accepts replaces the keys of that slot, purpose and generation and
keeps the others. PEER_USE of an exported generation waits for the boundary. A failed health test stops the random
number generator of its lane. (R301, R316, R317, R318) -/
def Obligations.PeerKeys : Prop :=
  ∀ (s : State) (sess : Nat) (req : Word) (k : Session) (pkg : List Byte) (chain : List Cert) (purpose : Byte) (area gen : Word)
    (keys : LaneId → PerLane (BitVec 256)) (l : LaneId),
    s.session sess = some k → k.maint = true → k.comm = false →
    let v := obeying s k allLanes
    let slot := byteAt pkg 6
    let kind := byteAt pkg 0x1C
    let g := ofBytes 32 (slice pkg 0x20 4)
    let others (n : Nv) : List PeerKey := n.peers.filter fun q => !(q.slot == slot && q.purpose == kind && q.gen == g)
    (peerForm pkg = true → (∀ x, v.has x = true → let l := s.lane x
        l.nothingWaits ∧ ∃ img c, l.boot.img = some img ∧ l.nv.secret = some c ∧ l.peerOk img pkg chain = true ∧
        (∀ z, packageOpen (identitySeed c) pkg z = some ((keys x).get z)) ∧
        ((others l.nv).countP fun q => q.slot == slot && q.purpose == kind) < 2 ∧
        (((others l.nv).map (·.slot)).filter (· != slot)).eraseDups.length < 32) →
      ∃ t, exec (.peerImport sess req pkg chain) s = .next t ∧
        OnlySends (s.begin.modLanes v fun x l => { l with nv := { l.nv with
          peers := others l.nv ++ [{ slot := slot, purpose := kind, gen := g, keys := keys x }] } }) t) ∧
    ((∀ x, v.has x = true → (s.lane x).hasBoundaries = true ∧ (purpose, area, gen) ∈ (s.lane x).nv.exported) →
      ∃ t, exec (.peerUse sess req purpose area gen) s = .next t ∧
        OnlySends (s.begin.modLanes v fun _ l =>
          { l with sec := { l.sec with pendUse := l.sec.pendUse ++ [(purpose, area, gen)] } }) t) ∧
    exec (.randomHealthTestFail l) s = .next (s.begin.modLane l fun m => { m with sec := { m.sec with trngOk := false } })

/-- Reserved straps hold the lane in reset, and a calibration outside its bounds three times puts it in START-HOLD. Else
the lane is alive with its registers at their reset values, keeps its non-volatile stores, and stops with 0x22 for a
wrong key constant, 0x26 for a failed test, 0x10 for an absent key, or holds the image and digest that its key read
as. START_REPEAT does the same for every live lane that is not armed and leaves the others as they are. (R302, R325,
R326, R134, R150, R151, R154, R384) -/
def Obligations.StartReleases : Prop :=
  (∀ (s : State) (l : LaneId) (env : StartEnv),
     (env.straps = 3 → ∃ t, exec (.resetRelease l env) s = .next t ∧ (t.lane l).boot.inReset = true ∧
       (t.lane l).boot.alive = false) ∧
     (env.straps ≠ 3 → (∀ c ∈ env.clock.cals.take 3, c < 11719 ∨ 19531 < c) →
       ∃ t, exec (.resetRelease l env) s = .next t ∧ (t.lane l).boot.hold = 2 ∧ (t.lane l).boot.inReset = false ∧
         (t.lane l).boot.alive = false ∧ (∀ y, y ≠ l → t.lane y = s.lane y)) ∧
     (env.straps ≠ 3 → (clockSteps env.clock (s.lane l).nv.rcTrim Clk.init).2.1 = 0 → env.clock.monitors = true →
       ∃ t, exec (.resetRelease l env) s = .next t ∧ (∀ y, y ≠ l → t.lane y = s.lane y) ∧
         (∀ k ∈ t.sessions, k.lanes.has l = false) ∧
         t.fcu = (match env.fcuTests with
           | none => s.fcu
           | some ok => { Fcu.init with testsOk := ok, fault := !ok }) ∧
         t.sup = { s.sup with inReset := false, warnNow := s.sup.warnNow && !s.sup.inReset } ∧
         let m := t.lane l
         m.boot.alive = true ∧ m.boot.inReset = false ∧ m.boot.hold = 0 ∧ m.boot.straps = env.straps ∧
         m.boot.kchk = decide (Config.kOf env.straps * env.romInv = 1) ∧ m.bist.done = 0xFF ∧ m.bist.failed = env.testsFail ∧
         m.store = Store.init ∧ m.ring = Ring.init ∧ m.ptn = Ptn.init ∧
         m.nv = { (s.lane l).nv with se := (s.lane l).nv.seStored, master := m.nv.master } ∧
         ((s.lane l).nv.master.isSome = true → m.nv.master = (s.lane l).nv.master) ∧
         (m.boot.kchk = false → m.boot.stopped = true ∧ m.boot.stage = 8 ∧ m.boot.code = 0x22) ∧
         (m.boot.kchk = true → env.testsFail ≠ 0 → m.boot.stopped = true ∧ m.boot.stage = 8 ∧ m.boot.code = 0x26) ∧
         (m.boot.kchk = true → env.testsFail = 0 → env.keyClosed = false →
           m.boot.stopped = true ∧ m.boot.stage = 8 ∧ m.boot.code = 0x10 ∧ m.boot.tries = 1) ∧
         (∀ img dig, m.boot.kchk = true → env.testsFail = 0 → env.keyClosed = true →
           (loadKey env.straps (s.lane l).nv.claims env.reads).2.end_ = .ok (img, dig) →
           m.boot.img = some img ∧ m.boot.digest = some dig ∧ m.boot.areaId = img.params.areaId ∧
           m.boot.tries = (loadKey env.straps (s.lane l).nv.claims env.reads).1))) ∧
  (∀ (s : State) (reads : PerLane KeyReads), s.keyWait = true →
     ∃ t, exec (.startRepeat reads) s = .next t ∧ t.keyWait = false ∧
       (∀ x, ((s.lane x).live && !(s.lane x).mode.armed) = false → t.lane x = s.lane x) ∧
       (∀ x, ((s.lane x).live && !(s.lane x).mode.armed) = true → let l := s.lane x
         let m := t.lane x
         m.nv = { l.nv with master := m.nv.master } ∧ (l.nv.master.isSome = true → m.nv.master = l.nv.master) ∧
         m.store = Store.init ∧ m.host = HostSt.init ∧ m.force = Forces.init ∧ m.mode = ModeState.init ∧
         m.boot.straps = l.boot.straps ∧ m.boot.present = l.boot.present ∧
         (l.boot.kchk = true → l.boot.present = false →
           m.boot.stopped = true ∧ m.boot.stage = 8 ∧ m.boot.code = 0x10 ∧ m.boot.tries = 1 ∧ m.boot.img = none) ∧
         (∀ img dig, l.boot.kchk = true → l.boot.present = true →
           (loadKey l.boot.straps l.nv.claims (reads.get x)).2.end_ = .ok (img, dig) →
           m.boot.img = some img ∧ m.boot.digest = some dig)))

/-- An opened presence contact is counted, and in START it stops START in every live lane with 0x10. A closed one after
a stop asks for the repeat. A start mark is noted, a probe is answered at once, and an answer to the probe last sent
gives the latency of that link as half of the round trip less the turnaround. (R134, R152, R40, R13) -/
def Obligations.KeysMarksAndProbes : Prop :=
  (∀ (s : State) (l : LaneId),
     let counted (closed : Bool) : State := s.begin.modLane l fun m =>
       { m with boot := { m.boot with present := closed, presEvt := m.boot.presEvt + 1 } }
     let inStart : Prop := ∀ x, (s.lane x).mode.armed = false ∧ (s.lane x).mode.mode = 0
     (inStart → exec (.keyPresenceOpen l) s = .next ((counted false).mapLanes fun _ m =>
       if m.live then { m with
         boot := { m.boot with stopped := true, stage := 8, code := 0x10, index := 0 }
         mode := { m.mode with accepted := false } } else m)) ∧
     (¬ inStart → exec (.keyPresenceOpen l) s = .next (counted false)) ∧
     ((∀ x, (s.lane x).mode.armed = false) → (∃ x, (s.lane x).boot.stopped = true) →
       exec (.keyPresenceClose l) s = .next { counted true with keyWait := true }) ∧
     ((∃ x, (s.lane x).mode.armed = true) → exec (.keyPresenceClose l) s = .next (counted true))) ∧
  (∀ (s : State) (l y : LaneId) (num : Word) (trip turn : Nat), let m := s.lane l
     exec (.startMarkRx l y) s = .next (s.begin.setLane l { m with mode := { m.mode with marks := m.mode.marks.put y true } }) ∧
     (m.live = true → y ≠ l →
       exec (.linkProbe l y num) s = .next ((s.begin.setLane l { m with align := { m.align with
         probes := m.align.probes.put y (some num) } }).xsend l y (.probe num)) ∧
       exec (.linkProbeRx l y num false trip turn) s = .next (s.begin.xsend l y (.probeBack num turn)) ∧
       (m.align.probes.get y = some num →
         exec (.linkProbeRx l y num true trip turn) s = .next (s.begin.setLane l { m with align := { m.align with
           lat := m.align.lat.put y ((trip - turn) / 2), probes := m.align.probes.put y none } }))))

/-- A status frame is held. An equal slot stops the receiver with 0x23. With three equal digests and none stopped the
set is all lanes and a passed pre-check leads to stage 5. When the wait ends a lane whose digest at least one other
lane shares forms its set or stops with the code of its pre-check, and one that shares it with none stops with 0x19
or 0x1A. In a module with no armed lane a passed pre-check gives the FCU the local I/O map of the image; that
instant is the choice of the model (log entry 19). (R144, R152, R153, R154, R160, R215) -/
def Obligations.SetFormation : Prop :=
  ∀ (s : State) (l sender : LaneId) (f : StartStatus) (img : Image), let m := s.lane l
    m.live = true → m.mode.armed = false →
    (sender ≠ l →
      ∃ t, exec (.startStatusRx l sender f) s = .next t ∧ (t.lane l).boot.posts.get sender = some f ∧
        (∀ y, y ≠ l → t.lane y = s.lane y) ∧ (t.lane l).store = m.store ∧
        (t.lane l).nv = { m.nv with secret := (t.lane l).nv.secret } ∧ (m.sec.eph = none → (t.lane l).nv = m.nv) ∧
        (f.slot = m.boot.straps → m.boot.stopped = false → (t.lane l).boot.stopped = true ∧ (t.lane l).boot.code = 0x23) ∧
        (∀ dig, m.boot.stopped = false → m.boot.late = false → m.boot.img = some img → m.boot.stage = 3 →
          f.slot ≠ m.boot.straps → f.mid = mid → f.stopped = false → f.digest = some dig → m.boot.digest = some dig →
          (∃ g, m.boot.posts.get l = some g ∧ g.digest = some dig ∧ g.stopped = false) →
          (∃ g, m.boot.posts.get (l.third sender) = some g ∧ g.digest = some dig ∧ g.stopped = false ∧
            g.slot ≠ m.boot.straps ∧ g.slot ≠ f.slot) →
          (preCheck img m.nv.genFloor allLanes).1 = 0 →
          (t.lane l).boot.set = allLanes ∧ (t.lane l).boot.stage = 5 ∧ (t.lane l).boot.stopped = false)) ∧
    (m.boot.late = false → m.boot.img = some img → m.boot.stage = 3 →
      ∃ t, exec (.digestWaitExpiry l) s = .next t ∧ (∀ y, y ≠ l → t.lane y = s.lane y) ∧
        (2 ≤ (m.setOf l).count → (preCheck img m.nv.genFloor (m.setOf l)).1 = 0 →
          (t.lane l).boot.stage = 5 ∧ (t.lane l).boot.set = m.setOf l) ∧
        (2 ≤ (m.setOf l).count → (preCheck img m.nv.genFloor (m.setOf l)).1 ≠ 0 →
          (t.lane l).boot.stage = 8 ∧ (t.lane l).boot.code = (preCheck img m.nv.genFloor (m.setOf l)).1) ∧
        ((m.setOf l).count < 2 → 2 ≤ (m.setOf l.next).count → (t.lane l).boot.stage = 8 ∧ (t.lane l).boot.code = 0x19) ∧
        ((m.setOf l).count < 2 → (m.setOf l.next).count < 2 → (t.lane l).boot.stage = 8 ∧ (t.lane l).boot.code = 0x1A))

/-- The boundary of a running lane opens the next cycle. A voted, sealed cycle without notice or cause rotates the
banks, takes its number as that of the current bank and counts the state epoch. A voted cycle that was dropped, not
sealed or noticed leaves the bank pointer, both bank numbers and the epoch. No word of a bank changes. The first
boundary after an accepted arming opens cycle 1 with the role taken, seats 0 to 7 active, seat 8 the dummy and the
hands in order. (R24, R26, R38, R55, R56, R109, R158, R207) -/
def Obligations.Boundaries : Prop :=
  (∀ (s : State) (l : LaneId) (env : BoundaryEnv) (img : Image), let m := s.lane l
     RunsCycle s l img → m.boot.inReset = false → m.codeOf l = 1 → m.ptn.role = 0 → m.fail.standDown = false →
     m.fail.ho = .idle → m.pwr.mode.ult 2 = true →
     ∃ t, exec (.cycleBoundary l env) s = .next t ∧ (t.lane l).cyc.num = m.cyc.num + 1 ∧
       (∀ y, y ≠ l → (t.lane y).store = (s.lane y).store ∧ (t.lane y).cyc = (s.lane y).cyc ∧
         (t.lane y).seats = (s.lane y).seats) ∧
       (t.lane l).store.phys = m.store.phys ∧
       (m.cyc.voted = true → m.cyc.sealed = true → m.cyc.notice = false → m.cyc.drop = none →
         (t.lane l).store.cur = m.store.cur + 1 ∧ (t.lane l).store.bcnCur = m.cyc.num ∧
         (t.lane l).store.bcnPrev = m.store.bcnCur ∧ (t.lane l).nv.se = m.nv.se + 1) ∧
       (m.cyc.voted = true → m.cyc.drop.isSome = true ∨ m.cyc.sealed = false ∨ m.cyc.notice = true →
         (t.lane l).store.cur = m.store.cur ∧ (t.lane l).store.bcnCur = m.store.bcnCur ∧
         (t.lane l).store.bcnPrev = m.store.bcnPrev ∧ (t.lane l).nv.se = m.nv.se)) ∧
  (∀ (s : State) (l : LaneId) (env : BoundaryEnv) (img : Image), let m := s.lane l
     m.boot.img = some img → m.live = true → m.mode.armed = false → m.mode.accepted = true → m.mode.takes ≠ 3 →
     ∃ t, exec (.cycleBoundary l env) s = .next t ∧ (t.lane l).mode.armed = true ∧ (t.lane l).mode.accepted = false ∧
       (t.lane l).boot.stage = 7 ∧ (t.lane l).cyc.num = 1 ∧ (t.lane l).cyc.running = true ∧
       (t.lane l).ptn.role = m.mode.takes ∧ (t.lane l).mode.mode = (if m.mode.takes = 4 then 2 else 1) ∧
       (t.lane l).rot.dummy = some 8 ∧ (t.lane l).rot.phase = 0 ∧
       (∀ x : SeatId, ((t.lane l).seat x).code = (if x = 8 then 2 else 1)) ∧
       (∀ h : Fin 8, ((t.lane l).seat h.castSucc).hand = some h) ∧
       (∀ y, y ≠ l → (t.lane y).store = (s.lane y).store ∧ (t.lane y).cyc = (s.lane y).cyc))

/-- A freeze closes the inputs of the cycle, keeps the candidates and the store, leaves the other lanes as they are and
sends round-1 frames on every usable link. Posts that are not due stay. A due ordinary post becomes a pulse, and a
waiting mode change to MAINTENANCE takes effect, and both leave their lists. (R27, R28, R194, R279, R288) -/
def Obligations.FreezeClosesInputs : Prop :=
  ∀ (s : State) (l : LaneId) (img : Image) (q : Post) (c : ModCmd) (k v : Half), let m := s.lane l
    RunsCycle s l img → m.cyc.frozen = false → m.serves l = true → s.reads = [] →
    let cands := m.field.cands.filterMap fun p => p.2.map fun d => (p.1, (d.seq.setWidth 16 : Half))
    let closed (t : State) : Prop := exec (.freeze l) s = .next t ∧ (t.lane l).cyc.frozen = true ∧
      (t.lane l).cyc.phase = 4 ∧ (t.lane l).store = m.store ∧ (t.lane l).field.cands = m.field.cands ∧
      (∀ y, y ≠ l → (t.lane y).store = (s.lane y).store ∧ (t.lane y).cyc = (s.lane y).cyc ∧
        (t.lane y).field = (s.lane y).field ∧ (t.lane y).host = (s.lane y).host) ∧
      (∀ y r, y ≠ l → s.route l y = some r → .xl l y r (.round1 { cyc := m.cyc.num, cands := cands }) ∈ t.out)
    (m.host.modCmds = [] → (∀ p ∈ m.host.posts, p.cyc ≠ m.cyc.num + 1) →
      ∃ t, closed t ∧ (t.lane l).host = m.host ∧ (t.lane l).mode = m.mode ∧ (t.lane l).force = m.force) ∧
    (m.host.modCmds = [] → m.host.posts = [q] → q.cyc = m.cyc.num + 1 → q.kind = .pulse k v →
      ∃ t, closed t ∧ (t.lane l).host.posts = [] ∧ (t.lane l).host.pulses = m.host.pulses ++ [(q.cyc, k, v)] ∧
        (t.lane l).mode = m.mode ∧ (t.lane l).force = m.force) ∧
    (m.host.modCmds = [c] → m.host.posts = [] → c.op = 7 → byteAt c.params 0 = 4 → m.mode.mode = 1 →
      ∃ t, closed t ∧ (t.lane l).host.modCmds = [] ∧ (t.lane l).mode = { m.mode with mode := 4 } ∧
        (t.lane l).force = m.force)

/-- A slice that passes meets the condition of the rotation and keeps the times. A failed slice is counted with its seat
and slice and retires the seat. A slice that does not complete is counted, and one that follows three such in the
seat fails. A lane under test collects its slices and fails its test on a bad one. A lane in service with one
retired seat that reaches T_UNTESTED excludes itself. (R356, R357, R358, R207, R210) -/
def Obligations.SliceOutcomes : Prop :=
  ∀ (s : State) (l : LaneId) (x : SeatId) (first second : Bool) (us : Nat) (img : Image), let m := s.lane l
    let other (t : State) : Prop := KeepsOthers s t l ∧ (t.lane l).store = m.store ∧ (t.lane l).cyc = m.cyc ∧
      (t.lane l).vote = m.vote
    let failed (t : State) (k : Nat) : Prop := (t.lane l).bist.mismatch = m.bist.mismatch + 1 ∧ (t.lane l).bist.seat = x.val ∧
      (t.lane l).bist.slice = k ∧ (t.lane l).codes.stsFault = m.codes.stsFault ||| 4
    (m.runsSlice l x = true → m.underTest l = false →
      (first = true → second = false → ∃ t, exec (.seatSliceComplete l x first second us) s = .next t ∧ other t ∧
        (t.lane l).rot = { m.rot with met := true } ∧ (t.lane l).bist.last = us ∧
        (t.lane l).bist.longest = max m.bist.longest us ∧ (t.lane l).bist.mismatch = m.bist.mismatch ∧
        ((t.lane l).seat x).incRun = 0) ∧
      (first = false ∨ second = true → ∃ t, exec (.seatSliceComplete l x first second us) s = .next t ∧ other t ∧
        failed t m.rot.phase ∧ (t.lane l).rot = { m.rot with retire := m.rot.retire ++ [x] }) ∧
      ((m.seat x).incRun < 3 → ∃ t, exec (.seatSliceIncomplete l x) s = .next t ∧ other t ∧ (t.lane l).rot = m.rot ∧
        (t.lane l).bist = { m.bist with incompl := m.bist.incompl + 1, sliceRun := false } ∧
        ((t.lane l).seat x).incRun = (m.seat x).incRun + 1) ∧
      (3 ≤ (m.seat x).incRun → ∃ t, exec (.seatSliceIncomplete l x) s = .next t ∧ other t ∧
        failed t m.rot.phase ∧ (t.lane l).rot = { m.rot with retire := m.rot.retire ++ [x] } ∧
        (t.lane l).bist.incompl = m.bist.incompl + 1 ∧ ((t.lane l).seat x).incRun = 0)) ∧
    (m.runsSlice l x = true → m.underTest l = true → m.re.sliceSeats.length < 8 →
      first = true → second = false → ∃ t, exec (.seatSliceComplete l x first second us) s = .next t ∧ other t ∧
        (t.lane l).re = { m.re with sliceSeats := m.re.sliceSeats ++ [x] } ∧ (t.lane l).rot = m.rot) ∧
    (m.runsSlice l x = true → m.underTest l = true →
      first = false ∨ second = true → ∃ t, exec (.seatSliceComplete l x first second us) s = .next t ∧ other t ∧
        failed t m.re.slices ∧ (t.lane l).re.sliceBad = true ∧ ((t.lane l).seat x).code = 5) ∧
    (m.boot.img = some img → img.tableSound paramTable 0 = true → m.live = true → m.mode.armed = true → m.serves l = true →
      m.retired = 1 →
      img.params.tUntested.toNat * 36000000 / img.hdr.tCycle ≤ m.re.untested →
      exec (.untestedLimit l) s = .next (s.begin.setLane l { m with vote := { m.vote with selfExcl := some 6 } }))

/-- The end of the sweep is noted with its time, starts P5 when the agreement is settled, and drops the cycle with cause
0x1 when it comes after its deadline. The end of the correction does the same against D_corr. The check is over with a
full retire bitmap, in time or with cause 0x1, and at D_check the lowest missing bit is a code failure of site 4
with its index, cause 0x2. (R24, R29,
R30, R31, R36, R59, R119) -/
def Obligations.SweepAndCorrection : Prop :=
  ∀ (s : State) (l : LaneId) (t i : Nat) (img : Image), let m := s.lane l
    RunsCycle s l img → (m.handsDone = true →
      (m.cyc.sweep = false → m.cyc.p5 = false →
        ∃ u, exec (.sweepComplete l t) s = .next u ∧ KeepsOthers s u l ∧ (u.lane l).cyc.sweep = true ∧
          (u.lane l).cyc.p5 = m.cyc.agreed ∧ (u.lane l).stats.a.sweep = t ∧ (u.lane l).store.phys = m.store.phys ∧
          (t ≤ 10 * img.hdr.tFreeze + 30 * min (10 * img.hdr.tCycle) 500 / 500 → m.cyc.agreed = false →
            (u.lane l).cyc.drop = m.cyc.drop) ∧
          (10 * img.hdr.tFreeze + 30 * min (10 * img.hdr.tCycle) 500 / 500 < t →
            (u.lane l).cyc.drop = some (m.cyc.drop.getD { cause := 1, phase := 1 }))) ∧
      (m.cyc.p5 = true → m.cyc.corr = false → (∀ f ∈ m.force.table, f.out = false) →
        ∃ u, exec (.correctionComplete l t) s = .next u ∧ KeepsOthers s u l ∧ (u.lane l).cyc.corr = true ∧
          (u.lane l).cyc.phase = 6 ∧ (u.lane l).store = m.store ∧
          (u.lane l).cyc.drop = if t ≤ dCorr img.hdr then m.cyc.drop
            else some (m.cyc.drop.getD { cause := 1, phase := 5 }))) ∧
    (m.cyc.checked = false → (∀ x, (m.seat x).code ≠ 3) →
      ((∀ k, k < img.hdr.nodes → Mem.get false m.store.bitmap k = true) →
        ∃ u, exec (.checkDeadline { lane := l, t := t }) s = .next u ∧ KeepsOthers s u l ∧ (u.lane l).store = m.store ∧
          (u.lane l).cyc.checked = true ∧ (u.lane l).codes.cuFail = m.codes.cuFail ∧
          (u.lane l).cyc.drop = if t ≤ dCheck img.hdr then m.cyc.drop
            else some (m.cyc.drop.getD { cause := 1, phase := 6 })) ∧
      (i < img.hdr.nodes → i < 2 ^ 20 → Mem.get false m.store.bitmap i = false →
        (∀ k, k < i → Mem.get false m.store.bitmap k = true) →
        ∃ u, exec (.checkDeadline { lane := l, t := t }) s = .next u ∧ KeepsOthers s u l ∧ (u.lane l).store = m.store ∧
          (t < dCheck img.hdr → (u.lane l).cyc.checked = false ∧ (u.lane l).cyc.drop = m.cyc.drop ∧
            (u.lane l).codes = m.codes) ∧
          (dCheck img.hdr ≤ t → (u.lane l).cyc.checked = true ∧ (u.lane l).codes.cuFail = m.codes.cuFail + 1 ∧
            (u.lane l).codes.site = 4 ∧ (u.lane l).codes.siteIdx = i ∧
            (u.lane l).cyc.drop = some (m.cyc.drop.getD { cause := 2, phase := m.cyc.phase }))))

/-- A frame that is not of the form is counted and dropped. A word that the intake coder does not decode back costs the
telegram and is located. A wrong tag is counted as such and changes no candidate. A lane that only listens takes none. A
telegram after the freeze is held. A timely one becomes the candidate of its station, is kept in the fetch store and
counted for its network, and of two the newer sequence number stands and the other is counted as old. No other lane,
station or memory changes. (R163, R164, R166, R175, R176, R28, R57, R62, R65, R68,
R193) -/
def Obligations.TelegramsTaken : Prop :=
  ∀ (s : State) (l : LaneId) (net : NetId) (fr : FieldFrame) (img : Image) (p : Nat) (r : StationRec), let m := s.lane l
    m.boot.img = some img → img.tableSound netTable 0 = true →
    let d := fr.data
    let tel : Tel := m.codeTel p net d m.cyc.num fr.coderErr
    let counts (t : State) : Prop := KeepsOthers s t l ∧ (t.lane l).store = m.store ∧ (t.lane l).cyc = m.cyc ∧
      (t.lane l).stats.b.rxA = m.stats.b.rxA + (if net = .a then 1 else 0) ∧
      (t.lane l).stats.b.rxB = m.stats.b.rxB + (if net = .b then 1 else 0)
    (m.takesField = true ∨ m.hearsField = true → frameOk (img.netOf net) fr = false →
      exec (.statusTelegramRx l net fr) s = .next (s.begin.setLane l (m.statB fun b => { b with dFormat := b.dFormat + 1 }))) ∧
    (m.hearsField = true → frameOk (img.netOf net) fr = true → img.tableSound paramTable 0 = true →
      (∀ q, m.telStation img net fr.srcIp d = .ok q → stationSound img q = true) →
      ∃ t, exec (.statusTelegramRx l net fr) s = .next t ∧ counts t ∧ (t.lane l).field = m.field) ∧
    (m.takesField = true → frameOk (img.netOf net) fr = true → img.tableSound paramTable 0 = true →
      m.telStation img net fr.srcIp d = .ok p → stationSound img p = true → img.stations[p]? = some r →
      m.coderBack p tel d m.cyc.num = false → ∃ t, exec (.statusTelegramRx l net fr) s = .next t ∧ counts t ∧
        (t.lane l).field = m.field ∧
        (t.lane l).codes = { m.codes with site := 5, siteIdx := p % 2 ^ 20, stsFault := m.codes.stsFault ||| 1 }) ∧
    (m.takesField = true → frameOk (img.netOf net) fr = true → img.tableSound paramTable 0 = true →
      m.telStation img net fr.srcIp d = .ok p → stationSound img p = true → img.stations[p]? = some r →
      m.coderBack p tel d m.cyc.num = true →
      (m.telTagOk l r.stnId d = false → ∃ t, exec (.statusTelegramRx l net fr) s = .next t ∧ counts t ∧
        (t.lane l).stats.b.dTag = m.stats.b.dTag + 1 ∧ (t.lane l).field = m.field ∧ (t.lane l).codes = m.codes) ∧
      (m.telTagOk l r.stnId d = true → m.cyc.frozen = true →
        ∃ t, exec (.statusTelegramRx l net fr) s = .next t ∧ counts t ∧
          (t.lane l).field = { m.field with held := m.field.held ++ [(p, tel, net, fr)] }) ∧
      (m.telTagOk l r.stnId d = true → m.cyc.frozen = false → m.telLate p tel m.cyc.num = none → m.cand p = none →
        ∃ t, exec (.statusTelegramRx l net fr) s = .next t ∧ counts t ∧
          Mem.get none (t.lane l).field.cands p = some tel ∧ Mem.get none (t.lane l).field.store p = some (net, fr) ∧
          (∀ q, q ≠ p → Mem.get none (t.lane l).field.cands q = Mem.get none m.field.cands q) ∧
          (t.lane l).stats.b.validA = m.stats.b.validA + (if net = .a then 1 else 0) ∧
          (t.lane l).stats.b.validB = m.stats.b.validB + (if net = .b then 1 else 0) ∧
          (t.lane l).stats.b.dOld = m.stats.b.dOld) ∧
      (∀ c, m.telTagOk l r.stnId d = true → m.cyc.frozen = false → m.telLate p tel m.cyc.num = none → m.cand p = some c →
        ∃ t, exec (.statusTelegramRx l net fr) s = .next t ∧ counts t ∧ (t.lane l).stats.b.dOld = m.stats.b.dOld + 1 ∧
          Mem.get none (t.lane l).field.cands p =
            some (if tel.seq ≠ c.seq ∧ (tel.seq - c.seq).toNat < 2 ^ 31 then tel else c)))

/-- Round-1 frames are held, and round 1 is done when every frame is in or at its deadline: each station gets the newest
sequence number that was reported, and a lane without that telegram fetches it from one that reported it. A fetched
telegram that passes every check is held. Round 2 reports what is held. At the end a station is agreed on the target
that two lanes hold, else on the newest number that two reported, else on none, and P5 starts when the sweep is
complete. (R194, R195, R196, R30, R36, R218) -/
def Obligations.Agreement : Prop :=
  (∀ (s : State) (l sender : LaneId) (f1 : Round1) (f2 : Round2) (pos : Nat) (net : NetId) (fr : FieldFrame) (tel : Tel)
     (img : Image), let m := s.lane l
     RunsCycle s l img →
     (m.serves sender = true → sender ≠ l → f1.cyc = m.cyc.num → m.field.r1Done = false →
       let k : Lane := { m with field := { m.field with r1 := m.field.r1.put sender (some f1) } }
       (m.cyc.frozen = false ∨ k.heardAll l = false →
         exec (.round1FrameRx l sender f1) s = .next (s.begin.setLane l k)) ∧
       (m.cyc.frozen = true → k.heardAll l = true →
         ∃ t, exec (.round1FrameRx l sender f1) s = .next t ∧ KeepsOthers s t l ∧ (t.lane l).field.r1Done = true)) ∧
     (m.cyc.frozen = true → m.field.r1Done = false → m.field.targets = [] → m.field.hold = [] → m.field.fetches = [] →
       ∃ t, exec (.round1Deadline l) s = .next t ∧ KeepsOthers s t l ∧ (t.lane l).field.r1Done = true ∧
         (t.lane l).store = m.store ∧ (t.lane l).cyc = m.cyc ∧ (t.lane l).field.cands = m.field.cands ∧
         ∀ p, p < img.stations.length → let v := newest (reportsFor (m.reports l) p)
           Mem.get none (t.lane l).field.targets p = v ∧
           (∀ w, v = some w → Mem.get none (t.lane l).field.hold p = m.candIs p w ∧
             (m.candIs p w = none → p ∈ (t.lane l).field.fetches ∧
               ∃ y, reportOf (m.reports l) y p = some w ∧
                 ∀ b, s.route l y = some b → .xl l y b (.fetch p) ∈ t.out))) ∧
     (Mem.get none m.field.store pos = some (net, fr) →
       exec (.telegramFetchRx l sender pos) s = .next (s.begin.xsend l sender (.fetchReply pos net fr))) ∧
     (pos ∈ m.field.fetches → m.field.r2Sent = false → fr.coderErr = 0 → img.tableSound netTable 0 = true →
       img.tableSound paramTable 0 = true → frameOk (img.netOf net) fr = true →
       m.telStation img net fr.srcIp fr.data = .ok pos → stationSound img pos = true →
       m.telTagOk l ((img.stations[pos]?.map (·.stnId)).getD 0) fr.data = true →
       tel = m.codeTel pos net fr.data m.cyc.num 0 → m.telLate pos tel m.cyc.num = none →
       Mem.get none m.field.targets pos = some (tel.seq.setWidth 16) →
       ∃ t, exec (.fetchReplyRx l pos net fr) s = .next t ∧ KeepsOthers s t l ∧ (t.lane l).store = m.store ∧
         Mem.get none (t.lane l).field.hold pos = some tel ∧ (∀ q, q ∈ (t.lane l).field.fetches ↔ q ∈ m.field.fetches ∧ q ≠ pos) ∧
         (t.lane l).stats.a.fetched = m.stats.a.fetched + 1) ∧
     (m.field.r1Done = true → m.field.r2Sent = false → m.cyc.agreed = false → m.serves l = true →
       let k : Lane := { m with
         stats := { m.stats with b := { m.stats.b with fetchBad := m.stats.b.fetchBad + m.field.fetches.length } }
         field := { m.field with r2Sent := true, fetches := [] } }
       exec (.round2Send l) s =
         .next ((s.begin.setLane l k).xcast l (.round2 { cyc := m.cyc.num, held := m.field.hold.map (·.1) }))) ∧
     (m.serves sender = true → sender ≠ l → f2.cyc = m.cyc.num → m.cyc.agreed = false →
       exec (.round2FrameRx l sender f2) s =
         .next (s.begin.setLane l { m with field := { m.field with r2 := m.field.r2.put sender (some f2) } }))) ∧
  (∀ (s : State) (l : LaneId) (t walk : Nat) (img : Image), let m := s.lane l
     RunsCycle s l img → m.field.r2Sent = true → m.cyc.agreed = false →
     dAgree img.hdr ≤ t ∨ (∀ y, y ≠ l → m.serves y = true → (m.field.r2.get y).isSome = true) → m.field.agreed = [] →
     ∃ u, exec (.agreementEnd l t walk) s = .next u ∧ KeepsOthers s u l ∧ (u.lane l).cyc.agreed = true ∧
       (u.lane l).cyc.p5 = (m.cyc.p5 || m.cyc.sweep) ∧ (u.lane l).store.phys = m.store.phys ∧
       (dAgree img.hdr < t → (u.lane l).cyc.drop = some (m.cyc.drop.getD { cause := 1, phase := 4 })) ∧
       (m.lio.gotSet = false → (u.lane l).lio.missed = m.lio.missed + 1) ∧
       ∀ p, p < img.stations.length →
         let vs := reportsFor (m.reports l) p
         let pick : Option Half := match Mem.get none m.field.targets p with
           | none => none
           | some v => if 2 ≤ m.holders l p then some v else newest (vs.filter fun w => 2 ≤ vs.count w)
         (pick = none → Mem.get none (u.lane l).field.agreed p = none) ∧
         (∀ v, pick = some v → Mem.get none (u.lane l).field.agreed p = m.copyOf p v))

/-- A lane whose cycle holds sends its digest, and one whose digest cannot be formed drops with cause 0x2. Digests of
lanes in service and of lanes in shadow, tags and notices are held for the running cycle. The vote settles by the
ballots as the table of R201 has it, counts an outvote, and shows cause 0x6 for a module drop. A missed deadline
drops the cycle with cause 0x1 and its phase. (R32, R36, R44, R59, R200, R201, R183, R184) -/
def Obligations.DigestsAndVotes : Prop :=
  ∀ (s : State) (l sender : LaneId) (t : Nat) (img : Image) (f : DigestFrame) (g : SealFrame) (c : Cycle) (ph : BitVec 4),
    let m := s.lane l
    RunsCycle s l img →
    (m.cyc.corr = true → m.cyc.digSent = false → m.cyc.drop = none → m.missingRetire img.hdr.nodes = none →
      m.digest l img = some f →
      exec (.digestSend l) s = .next ((s.begin.setLane l { m with
        cyc := { m.cyc with digSent := true, phase := 7 }
        vote := { m.vote with own := some f } }).xcast l (.digest f))) ∧
    (m.cyc.corr = true → m.cyc.digSent = false → m.cyc.drop = none → m.missingRetire img.hdr.nodes = none →
      m.digest l img = none → ∃ u, exec (.digestSend l) s = .next u ∧ KeepsOthers s u l ∧ u.out = [] ∧
        (u.lane l).cyc = { m.cyc with drop := some { cause := 2, phase := m.cyc.phase } } ∧ (u.lane l).codes.site = 6) ∧
    (sender ≠ l → f.cyc = m.cyc.num →
      (f.shadow = false ∧ m.serves sender = true ∧ m.cyc.voted = false) ∨
        (f.shadow = true ∧ m.serves sender = false ∧ m.codeOf sender = 5) →
      exec (.outputDigestRx l sender f) s =
        .next (s.begin.setLane l { m with vote := { m.vote with digs := m.vote.digs.put sender (some f) } })) ∧
    (m.cyc.voted = false → m.ptn.role = 0 → m.fail.ho = .idle → t ≤ dVote img.hdr →
      m.ballotsIn l = true ∨ t = dVote img.hdr →
      let r := settleVote m.vote.service (m.ballots l)
      ∃ u, exec (.vote l t) s = .next u ∧ KeepsOthers s u l ∧ (u.lane l).store = m.store ∧ (u.lane l).cyc.voted = true ∧
        (u.lane l).cyc.phase = 8 ∧ (u.lane l).cyc.sealed = r.sealed ∧ (u.lane l).stats.b.outcome = r.outcome ∧
        (u.lane l).stats.b.nodig = r.nodig ∧ (u.lane l).vote.service = m.vote.service ∧
        (∀ y, r.outvoted = some y → (u.lane l).vote.wins.get y = m.vote.wins.get y ++ [m.cyc.num.toNat]) ∧
        (r.sealed = false → m.cyc.drop = none → m.align.noted = false → (u.lane l).align.dcCause = 6 ∧ (u.lane l).cyc.drop = none) ∧
        (r.outcome = 0 → (u.lane l).vote.pair =
          some (if m.cyc.num.toNat % 3 = 0 then .ab else if m.cyc.num.toNat % 3 = 1 then .bc else .ca))) ∧
    (sender ≠ l → g.cyc = m.cyc.num → m.cyc.guard = false →
      exec (.sealTagRx l sender g) s =
        .next (s.begin.setLane l { m with vote := { m.vote with tags := m.vote.tags.put sender (some g) } })) ∧
    (sender ≠ l → c = m.cyc.num →
      exec (.sealFailureNoticeRx l sender c) s =
        .next (s.begin.setLane l { m with
          cyc := { m.cyc with notice := true }
          re := { m.re with noticed := m.re.noticed ++ [c] } })) ∧
    (m.cyc.drop = none →
      exec (.deadlineMiss l ph) s = .next (s.begin.setLane l { m with
        cyc := { m.cyc with drop := some { cause := 1, phase := ph } }
        align := if m.align.noted then m.align else { m.align with
          noted := true
          dcHeld := true
          dcCyc := m.cyc.num.setWidth 16
          dcCause := 1
          dcPhase := ph }
        codes := { m.codes with stsFault := m.codes.stsFault ||| 0x20 } }))

/-- For every set of lanes in service and every three ballots the vote is sealed exactly when two different lanes in
service hold equal whole-cycle digests. All three agree exactly when every pair does. A lane is outvoted exactly
when all three are in service and the other two agree with each other and not with it. Every two lanes named as
agreeing hold equal digests. (R201, R37) -/
def Obligations.VoteNeedsTwo : Prop :=
  ∀ (service : LaneSet) (d : PerLane (Option DigestFrame)), let r := settleVote service d
    let agree (x y : LaneId) : Prop := service.has x = true ∧ service.has y = true ∧
      ∃ f g, d.get x = some f ∧ d.get y = some g ∧ f.whole = g.whole
    (r.sealed = true ↔ ∃ x y, x ≠ y ∧ agree x y) ∧
    (r.outcome = 0 ↔ ∀ x y, x ≠ y → agree x y) ∧
    (∀ z, r.outvoted = some z ↔ service = allLanes ∧ agree z.next z.prev ∧ ¬ agree z.next z) ∧
    (∀ x y, r.agree.has x = true → r.agree.has y = true → x ≠ y → agree x y)

/-- The guard is noted with the time used, known answers are counted, every 16th cycle runs a supervisor slice whose
second mismatch excludes the lane. A lane in service of an ACTIVE module sends COMMAND with the sealed local word,
or without a word when the cycle dropped, was not sealed, or its seal failed. A transmit lane with no pair to settle gives the notice
of a failed seal, and else records the pair. (R60, R119, R183, R184, R193, R220, R221, R359, R364) -/
def Obligations.GuardStarts : Prop :=
  ∀ (s : State) (l : LaneId) (t : Nat) (env : GuardEnv) (img : Image) (w : BitVec 32), let m := s.lane l
    RunsCycle s l img → m.cyc.guard = false → m.cyc.voted = true → t ≤ dSeal img.hdr → m.pwr.want = none →
    ∃ u, exec (.guardStart l t env) s = .next u ∧ KeepsOthers s u l ∧ (u.lane l).cyc.guard = true ∧
      (u.lane l).cyc.phase = 9 ∧ (u.lane l).store = m.store ∧ (u.lane l).stats.a.used = t ∧
      (u.lane l).bist.cuRuns = m.bist.cuRuns + 1 ∧ (u.lane l).bist.cuFails = m.bist.cuFails + env.kaWrong.toNat ∧
      (m.cyc.num.toNat % 16 = 0 → s.sup.warnNow = false → env.slice = .matched →
        (u.lane l).bist.supNext = (m.bist.supNext + 1) % 64 ∧ (u.lane l).bist.supBad = false) ∧
      (m.cyc.num.toNat % 16 = 0 → s.sup.warnNow = false → env.slice = .mismatched → m.bist.supBad = true →
        (u.lane l).vote.selfExcl = some 6) ∧
      (m.cyc.num.toNat % 16 ≠ 0 → (u.lane l).bist.supNext = m.bist.supNext ∧ (u.lane l).bist.supMis = m.bist.supMis) ∧
      (m.serves l = true → m.active = true → m.cyc.drop = none → m.cyc.sealed = true → m.cyc.notice = false →
        (m.sealsNow = true → m.transmits l = true → m.settlePair ≠ none) → m.localWord m.cyc.num = some w →
        .fcuCommand l { crcOk := true, seq := m.lio.seqC + 1, cyc := m.cyc.num, word := some w } ∈ u.out) ∧
      (m.serves l = true → m.active = true → m.cyc.drop.isSome = true ∨ m.cyc.sealed = false ∨ m.cyc.notice = true ∨
          (m.sealsNow = true ∧ m.transmits l = true ∧ m.settlePair = none) →
        .fcuCommand l { crcOk := true, seq := m.lio.seqC + 1, cyc := m.cyc.num, word := none } ∈ u.out) ∧
      (m.cyc.sealed = true → m.sealsNow = true → m.transmits l = true → m.settlePair = none →
        (u.lane l).cyc.notice = true ∧
          ∀ y r, y ≠ l → s.route l y = some r → .xl l y r (.notice m.cyc.num) ∈ u.out) ∧
      (∀ p b, m.cyc.sealed = true → m.sealsNow = true → m.transmits l = true → m.settlePair = some (p, b) →
        (u.lane l).vote.sealPair = some p ∧ (u.lane l).cyc.notice = m.cyc.notice)

/-- A status frame of the running cycle gives the set, the overload flag and the code of its sender, and one of the next
cycle is held (log entry 24). A link that goes down or comes up changes the link set, sets STS_FAULT of its live
ends, and a lane left alone is excluded. Port links change the port set, and J9 and J10 take their sessions with
them. Requests, bases, digests and deltas of a snapshot are held in the lane that returns, and a timeout asks
another source. (R13, R14, R21, R40, R203, R206, R207, R208, R209) -/
def Obligations.PeersLinksAndSnapshots : Prop :=
  (∀ (s : State) (l sender : LaneId) (f : LaneStatus) (k : XLink) (p : Port), let m := s.lane l
     (m.live = true → m.mode.armed = true → m.cyc.running = true → sender ≠ l →
       (f.cyc = m.cyc.num → ∃ t u, exec (.laneStatusRx l sender f) s = .next t ∧ KeepsOthers s u l ∧ OnlySends u t ∧
         (t.lane l).peers.get sender = some f ∧
         (t.lane l).vote.sets.get sender = some f.service ∧ (t.lane l).vote.overs.get sender = f.overs ∧
         (t.lane l).store = m.store ∧ (t.lane l).vote.service = m.vote.service ∧
         (m.serves sender = false → f.code ≠ 1 → (t.lane l).vote.codes.get sender = f.code)) ∧
       (f.cyc = m.cyc.num + 1 →
         exec (.laneStatusRx l sender f) s =
           .next (s.begin.setLane l { m with vote := { m.vote with early := m.vote.early.put sender (some f) } }))) ∧
     (exec (.xlLinkUp k) s = .next { s.begin with links := s.links ||| (1#3 <<< linkNum k) }) ∧
     (∃ t, exec (.xlLinkDown k) s = .next t ∧ t.links = s.links &&& ~~~(1#3 <<< linkNum k) ∧
       (∀ x, (t.lane x).store = (s.lane x).store ∧ (t.lane x).cyc = (s.lane x).cyc) ∧
       (∀ x, (x = (linkEnds k).1 ∨ x = (linkEnds k).2) → (s.lane x).live = true →
         (t.lane x).codes.stsFault = (s.lane x).codes.stsFault ||| 0x40) ∧
       (∀ x, t.links = 0 → (t.lane x).vote = (s.lane x).vote) ∧
       (∀ x y, t.isolatedLane = some x → (s.lane y).mode.armed = true → (s.lane y).serves x = true →
         (y ≠ x → (t.lane y).vote.excl.has x = true) ∧
         (y = x → (t.lane y).vote.selfExcl = some (if (s.lane y).vote.selfExcl = some 6 then 6 else 2)))) ∧
     (exec (.portLinkChange p true) s = .next { s.begin with ports := s.ports ||| (1#7 <<< portBit p) }) ∧
     (p ≠ .j9 → p ≠ .j10 →
       exec (.portLinkChange p false) s = .next { s.begin with ports := s.ports &&& ~~~(1#7 <<< portBit p) }) ∧
     (p = .j9 ∨ p = .j10 → ∃ t, exec (.portLinkChange p false) s = .next t ∧
       t.ports = s.ports &&& ~~~(1#7 <<< portBit p) ∧
       ∀ q ∈ t.sessions, q ∈ s.sessions ∧ (q.tunnel = none → q.ownJ10 = decide (p = .j9)))) ∧
  (∀ (s : State) (l sender : LaneId) (b : SnapBase) (dig : BitVec 256) (d : SnapDelta), let m := s.lane l
     (m.live = true → m.mode.armed = true → m.serves l = true → sender ≠ l →
       exec (.snapshotRequestRx l sender) s =
         .next (s.begin.setLane l { m with re := { m.re with asked := m.re.asked.put sender true } })) ∧
     (m.live = true → m.codeOf l = 3 ∨ m.codeOf l = 4 → m.re.source = some sender →
       (∃ t, exec (.snapshotRx l sender (.base b)) s = .next t ∧ OnlySends (s.begin.setLane l { m with
         vote := { m.vote with codes := m.vote.codes.put l 4 }
         re := { m.re with
           base := some b
           since := some b.cyc
           deltas := []
           baseOk := (match m.re.dig with
             | none => false
             | some e => Config.baseDigest b == e) } }) t) ∧
       exec (.snapshotRx l sender (.digest dig)) s = .next (s.begin.setLane l { m with re := { m.re with
           dig := some dig
           baseOk := (match m.re.base with
             | none => false
             | some c => Config.baseDigest c == dig) } }) ∧
       exec (.snapshotRx l sender (.delta d)) s =
         .next (s.begin.setLane l { m with re := { m.re with deltas := m.re.deltas ++ [d] } })) ∧
     (m.live = true → m.codeOf l = 4 → m.re.baseOk = false → m.re.base = some b → b.cyc.toNat + 64 ≤ m.cyc.num.toNat →
       ∃ t u, exec (.snapshotTimeout l) s = .next t ∧ KeepsOthers s u l ∧ OnlySends u t ∧ (t.lane l).vote.codes.get l = 3 ∧
         (t.lane l).re.base = none ∧ (t.lane l).re.deltas = [] ∧ (t.lane l).store = m.store ∧
         (t.lane l).re.source = m.snapSource l ∧
         ∀ y r, m.snapSource l = some y → s.route l y = some r → .xl l y r .snapReq ∈ t.out))

/-- A frame with a bad CRC changes nothing. A single BOUNDARY frame opens its cycle once the running one no longer awaits
frames, two within 0.5 ms open theirs, and the second in time gives b2 and the lanes present. Two present lanes hold
the ACTIVE role. Without a second frame b2 is the first arrival, and without any the cycle has no lane present and an
ACTIVE FCU goes dark. The cycle set leaves once with one number more. A COMMAND frame in sequence is held, out of
sequence only its number is. Outputs apply by the votes of two present lanes, and stand when two withhold their word. A
cycle set in sequence is taken by the lane and any other is counted as a link error. When a single frame opens is the
choice of the model (log entry 97). (R15, R217, R218, R220, R221, R222, R227, R231) -/
def Obligations.FcuFrames : Prop :=
  ∀ (s : State) (l : LaneId) (f : BoundaryFrame) (c : CommandFrame) (z : CycleSet) (t1 : Nat), let u := s.fcu
    let fcuOnly (t : State) : Prop := t = { s.begin with fcu := t.fcu }
    let inSeq : Prop := ∀ q, u.seqB.get l = some q → f.seq = q + 1
    (f.crcOk = false → exec (.fcuBoundaryRx l f) s = .next s.begin) ∧
    (f.crcOk = true → ¬ inSeq → exec (.fcuBoundaryRx l f) s = .next { s.begin with fcu := { u with
      seqB := u.seqB.put l (some f.seq) } }) ∧
    (f.crcOk = true → inSeq → (∀ y h, y ≠ l → u.held.get y = some h → h.cyc = f.cyc → h.at_us + 500 < f.at_us) →
      (∀ t0, u.first = some t0 → f.cyc ≠ u.cyc ∧ u.b2.getD t0 + 500 < f.at_us ∧ (u.b2.isSome = true → f.cyc.ult u.cyc = false)) →
      ∃ t, exec (.fcuBoundaryRx l f) s = .next t ∧ fcuOnly t ∧ t.fcu.first = some f.at_us ∧ t.fcu.cyc = f.cyc ∧
        t.fcu.b2 = none ∧ t.fcu.present = noLanes ∧ t.fcu.applied = false ∧ t.fcu.inputs = u.inputs ∧
        (f.cyc = u.cyc + 1 → u.b2.isSome = true → t.fcu.active = u.active ∧ t.fcu.chans = u.chans ∧ t.fcu.groups = u.groups) ∧
        (f.cyc ≠ u.cyc + 1 ∨ u.b2 = none → t.fcu.active = false)) ∧
    (∀ y h, f.crcOk = true → inSeq → y ≠ l → u.held.get y = some h → h.cyc = f.cyc → f.at_us ≤ h.at_us + 500 →
      (∀ k, u.held.get (l.third y) = some k → k.cyc ≠ f.cyc) → u.first = none ∨ f.cyc ≠ u.cyc →
      ∃ t, exec (.fcuBoundaryRx l f) s = .next t ∧ fcuOnly t ∧ t.fcu.first = some h.at_us ∧ t.fcu.cyc = f.cyc ∧
        t.fcu.b2 = some f.at_us) ∧
    (f.crcOk = true → inSeq → f.cyc = u.cyc → u.first = some t1 → u.b2 = none → f.at_us ≤ t1 + 500 →
      ∃ t, exec (.fcuBoundaryRx l f) s = .next t ∧ fcuOnly t ∧ t.fcu.b2 = some f.at_us ∧
        (∀ y, t.fcu.present.has y = true ↔ ∃ b, (u.held.put l (some f)).get y = some b ∧ b.cyc = u.cyc ∧
          b.excluded = false ∧ b.active = true ∧ b.at_us ≤ f.at_us + 500) ∧
        (2 ≤ t.fcu.present.count → t.fcu.active = true)) ∧
    (u.first = some t1 → u.b2 = none →
      ∃ t, exec .b2Timeout s = .next t ∧ fcuOnly t ∧ t.fcu.b2 = some t1 ∧ t.fcu.active = false ∧ t.fcu.applied = true) ∧
    (u.first = none ∨ (u.b2.isSome = true ∧ u.latched = true) →
      ∃ t, exec .b2Timeout s = .next t ∧ fcuOnly t ∧ t.fcu.cyc = u.cyc + 1 ∧ t.fcu.present = noLanes ∧ t.fcu.b2 = none ∧
        t.fcu.active = false ∧ t.fcu.applied = true ∧ (u.active = true → ∀ k : Fin 32, t.fcu.chans[k].on = false)) ∧
    (u.b2.isSome = true → u.latched = false → u.active = decide (2 ≤ u.present.count) →
      exec .cycleSetLatch s =
        .next ({ s.begin with fcu := { u with
          seqOut := u.seqOut + 1
          accFlag := false
          latched := true } }.emit (.cycleSet u.cycleSet)) ∧
      u.cycleSet.seq = u.seqOut + 1 ∧ u.cycleSet.cyc = u.cyc ∧ u.cycleSet.present = u.present ∧
      (∀ k : Fin 32, u.cycleSet.values.getLsbD k.val = u.inputs[liOf k].out ∧
        u.cycleSet.valid.getLsbD k.val = u.inputValid (liOf k))) ∧
    (c.crcOk = true →
      ((∀ q, u.seqC.get l = some q → c.seq = q + 1) → exec (.fcuCommandRx l c) s = .next { s.begin with fcu := { u with
        seqC := u.seqC.put l (some c.seq)
        cmds := u.cmds.put l (some c) } }) ∧
      ((∃ q, u.seqC.get l = some q ∧ c.seq ≠ q + 1) →
        exec (.fcuCommandRx l c) s = .next { s.begin with fcu := { u with seqC := u.seqC.put l (some c.seq) } })) ∧
    (u.b2.isSome = true → u.applied = false →
      let votes (p : Option (BitVec 32) → Bool) : Nat := (LaneSet.those fun y => u.present.has y &&
        (match u.cmds.get y with
         | none => false
         | some d => d.cyc + 1 == u.cyc && p d.word)).count
      ∃ t, exec .outputApply s = .next t ∧ fcuOnly t ∧ t.fcu.applied = true ∧
        (∀ g : Fin 4, t.fcu.groups[g] = u.groups[g] ∨
          (u.groups[g].st = .degraded ∧ t.fcu.groups[g].st = .normal ∧ t.fcu.covered g = true)) ∧
        ∀ k : Fin 32, let x := t.fcu.chans[k]
          let y := u.chans[k]
          x.cmd = (if 2 ≤ votes (fun w => w.isNone) then y.cmd
            else decide (2 ≤ votes fun w => match w with
              | none => false
              | some v => v.getLsbD k.val)) ∧ x.pulse = y.pulse ∧
          x.on = (x.cmd && u.follows (groupOf k) && !y.hold && (y.on || (y.pulse && !y.void) || !s.sup.warnNow) && !y.pulse)) ∧
    ((s.lane l).live = true → z.crcOk = true → (∀ q, (s.lane l).lio.seqIn = some q → z.seq = q + 1) →
      ∃ t, exec (.cycleSetRx l z) s = .next t ∧ (t.lane l).lio.set = some z ∧ (t.lane l).lio.seqIn = some z.seq ∧
        (t.lane l).lio.linkErr = (s.lane l).lio.linkErr ∧ (t.lane l).store = (s.lane l).store ∧
        (t.lane l).lio.gotSet = ((s.lane l).lio.gotSet || (z.cyc == (s.lane l).cyc.num && (s.lane l).cyc.running &&
          !(s.lane l).cyc.agreed)) ∧ t.fcu = s.fcu) ∧
    ((s.lane l).live = true → z.crcOk = false ∨ (∃ q, (s.lane l).lio.seqIn = some q ∧ z.seq ≠ q + 1) →
      ∃ t, exec (.cycleSetRx l z) s = .next t ∧ KeepsOthers s t l ∧ (t.lane l).lio.set = (s.lane l).lio.set ∧
        (t.lane l).lio.linkErr = (s.lane l).lio.linkErr + 1 ∧ (t.lane l).lio.gotSet = (s.lane l).lio.gotSet)

/-- A sample moves the level by the thresholds and the counter by one within its limit, and the filtered value at its
ends, and takes the L+ of the groups and the read-back of the channels. Two failed path tests make an input bad and
three passed ones good again, and read-back tests act likewise and may restore coverage. A press of 50 ms to 2 s after
100 ms open is accepted and releases each latched group without a present cause, and a jam is counted. An FCU fault
opens every VPR, darkens every channel and invalidates every input. (R214, R215, R216, R227, R229, R231, R232, R234) -/
def Obligations.FcuInputs : Prop :=
  ∀ (s : State) (volts : List (Option Int)) (mv : List Nat) (high : List Bool) (k : Fin 33) (ch : Fin 32) (off on : Nat),
    let u := s.fcu
    let i := u.inputs[k]
    let c := u.chans[ch]
    let put (v : FcuIn) : State := { s.begin with fcu := { u with inputs := u.inputs.set k.val v } }
    let tested (ok : Bool) (v : FcuCh) : Prop := ∃ t, exec (.readbackTest ch ok) s = .next t ∧
      t = { s.begin with fcu := { u with
        chans := u.chans.set ch.val v
        groups := t.fcu.groups } } ∧
      ∀ g : Fin 4, t.fcu.groups[g] = u.groups[g] ∨ (g = groupOf ch ∧ u.groups[g].st = .degraded ∧
        t.fcu.groups[g].st = .normal ∧ t.fcu.covered g = true)
    (∃ t, exec (.inputSample { volts := volts, mv := mv, high := high }) s = .next t ∧ t = { s.begin with fcu := { u with
        inputs := t.fcu.inputs
        groups := t.fcu.groups
        chans := t.fcu.chans
        jam := t.fcu.jam
        jamRest := t.fcu.jamRest } } ∧
      (∀ g : Fin 4, t.fcu.groups[g] = { u.groups[g] with mv := mv.getD g.val u.groups[g].mv }) ∧
      (t.fcu.chans[ch] = { c with rb := high.getD ch.val c.rb }) ∧
      (t.fcu.jam = (u.jam && (t.fcu.inputs[(32 : Fin 33)].out || decide (u.jamRest + 1 < 2000)))) ∧
      ((∀ v, volts[k.val]? ≠ some (some v)) ∨ u.limit k = none → t.fcu.inputs[k] = i) ∧
      ∀ v lim, volts[k.val]? = some (some v) → u.limit k = some lim → let j := t.fcu.inputs[k]
        (90 ≤ v → j.raw = true ∧ j.c = min (i.c + 1) lim) ∧ (v ≤ 80 → j.raw = false ∧ j.c = i.c - 1) ∧
        (80 < v → v < 90 → j.raw = i.raw ∧ j.c = if i.raw then min (i.c + 1) lim else i.c - 1) ∧
        (j.c = 0 → j.out = false) ∧ (0 < j.c → j.c = lim → j.out = true) ∧ (0 < j.c → j.c ≠ lim → j.out = i.out) ∧
        j.n = min (i.n + 1) lim) ∧
    (exec (.inputPathTest k false) s =
      .next (put { i with passRun := 0, failRun := i.failRun + 1, pathFail := i.pathFail || decide (1 ≤ i.failRun) })) ∧
    (i.pathFail = false ∨ i.passRun < 2 →
      exec (.inputPathTest k true) s = .next (put { i with failRun := 0, passRun := i.passRun + 1 })) ∧
    (i.pathFail = true → 2 ≤ i.passRun → u.fault = false → u.domainLow k = false →
      exec (.inputPathTest k true) s = .next (put { i with
        failRun := 0
        passRun := i.passRun + 1
        pathFail := false
        c := 0
        out := false
        n := 0 })) ∧
    tested false { c with
      rbPass := 0
      rbFail := c.rbFail + 1
      rbLost := c.rbLost || decide (1 ≤ c.rbFail) } ∧
    (c.rbLost = false ∨ c.rbPass < 2 → tested true { c with rbFail := 0, rbPass := c.rbPass + 1 }) ∧
    (c.rbLost = true → 2 ≤ c.rbPass → tested true { c with
      rbFail := 0
      rbPass := c.rbPass + 1
      rbLost := false
      fault := if c.fault = 4 then 0 else c.fault }) ∧
    (exec .restoreJam s = .next { s.begin with fcu := { u with
      jam := true
      jammed := u.jammed + 1
      jamRest := 0 } }) ∧
    (off < 100 → exec (.restorePress off on) s = .next s.begin) ∧
    (100 ≤ off → on < 50 ∨ 2000 ≤ on →
      exec (.restorePress off on) s = .next { s.begin with fcu := { u with jam := u.jam && decide (2000 ≤ on) } }) ∧
    (100 ≤ off → 50 ≤ on → on < 2000 → s.sup.warnNow = true →
      exec (.restorePress off on) s = .next { s.begin with fcu := { u with
        jam := false
        accepted := u.accepted + 1
        accFlag := true
        heldPress := true } }) ∧
    (100 ≤ off → 50 ≤ on → on < 2000 → s.sup.warnNow = false →
      ∃ t, exec (.restorePress off on) s = .next t ∧ t = { s.begin with fcu := t.fcu } ∧ t.fcu.jam = false ∧
        t.fcu.accepted = u.accepted + 1 ∧ t.fcu.inputs = u.inputs ∧
        ∀ g : Fin 4, (u.groups[g].st ≠ .latched ∨ u.causePresent g = true → t.fcu.groups[g] = u.groups[g]) ∧
          (u.groups[g].st = .latched → u.causePresent g = false → t.fcu.groups[g].cut = false ∧
            t.fcu.groups[g].st = if u.active then (if u.pathsGood g then .normal else .degraded) else .off)) ∧
    (∃ t, exec .fcuFault s = .next t ∧ t = { s.begin with fcu := t.fcu } ∧ t.fcu.fault = true ∧
      (∀ g : Fin 4, t.fcu.groups[g].vpr = false ∧ t.fcu.groups[g].st = u.groups[g].st) ∧
      (∀ x : Fin 32, t.fcu.chans[x].on = false) ∧ ∀ j : Fin 33, t.fcu.inputValid j = false)

/-- A channel found stuck on latches its group with its cut switch open, and outside NORMAL and DEGRADED only marks the
channel, and in SUPPLY-LOW or before the VPR reads energised after a press it is not judged. Failed-off and thermal
shutdown hold the channel off. A retry drives it again. A pulse opens the switch of one channel of a quiet group, and
one that is void ends without a judgement. A passed pulse counts, one that does not come back is failed-off, and one
that does not fall is stuck-on above the open-load threshold, and below it loses coverage, as does a pulse whose
read-back path is lost: the group degrades or latches. (R223, R227, R228, R229, R231, R235, R393) -/
def Obligations.OutputChannels : Prop :=
  ∀ (s : State) (ch : Fin 32) (current : Nat) (fall back : Bool), let u := s.fcu
    let c := u.chans[ch]
    let g := groupOf ch
    let x := u.groups[g]
    let isOn : Bool := c.on || (c.pulse && !c.void)
    let fcuOnly (t : State) : Prop := t = { s.begin with fcu := t.fcu } ∧ t.fcu.inputs = u.inputs
    let put (v : FcuCh) : State := { s.begin with fcu := { u with chans := u.chans.set ch.val v } }
    let held (t : State) (code : BitVec 4) : Prop := fcuOnly t ∧ t.fcu.groups = u.groups ∧ t.fcu.chans[ch].on = false ∧
      t.fcu.chans[ch].hold = true ∧ t.fcu.chans[ch].fault = code
    let latched (t : State) : Prop := fcuOnly t ∧ t.fcu.groups[g].st = .latched ∧ t.fcu.groups[g].cut = true ∧
      (∀ h : Fin 4, h ≠ g → t.fcu.groups[h] = u.groups[h]) ∧
      ∀ k : Fin 32, groupOf k = g → t.fcu.chans[k].on = false
    let lost (i : Instr) (code : BitVec 4) : Prop :=
      (u.degrades g = false → ∃ t, exec i s = .next t ∧ latched t ∧ t.fcu.chans[ch].fault = code) ∧
      (u.degrades g = true → ∃ t, exec i s = .next t ∧ fcuOnly t ∧ t.fcu.chans[ch].fault = code ∧
        t.fcu.chans[ch].passes = 0 ∧ t.fcu.groups[g] = { x with
          st := .degraded
          covLost := true
          degLeft := some (x.degLeft.getD (u.tDeg g)) })
    (isOn = false → x.waitVpr = false → x.st = .normal ∨ x.st = .degraded →
      ∃ t, exec (.stuckOnDetect ch) s = .next t ∧ latched t ∧ t.fcu.chans[ch].fault = 1) ∧
    (isOn = false → x.waitVpr = false → x.st = .off ∨ x.st = .latched →
      exec (.stuckOnDetect ch) s = .next (put { c with rb := true, fault := 1 })) ∧
    (isOn = true ∨ x.waitVpr = true ∨ x.st = .supplyLow → exec (.stuckOnDetect ch) s = .next s.begin) ∧
    (c.on = true → ∃ t, exec (.failedOffDetect ch) s = .next t ∧ held t 2) ∧
    (c.on = false → exec (.failedOffDetect ch) s = .next s.begin) ∧
    (∃ t, exec (.thermalShutdown ch) s = .next t ∧ held t 5) ∧
    (c.hold = true → c.cmd = true →
      ∃ t, exec (.overloadRetry ch true) s = .next t ∧ fcuOnly t ∧ t.fcu.groups = u.groups ∧
        t.fcu.chans[ch].hold = false ∧ t.fcu.chans[ch].fault = 0 ∧
        t.fcu.chans[ch].on = (u.follows g && (isOn || !(s.sup.warnNow || c.dip)) && !c.pulse)) ∧
    (exec (.overloadRetry ch false) s = .next s.begin) ∧
    (c.on = true → (∀ k : Fin 32, groupOf k = g → u.chans[k].pulse = false) → s.sup.warnNow = false →
      exec (.pepperPulseStart ch current) s = .next (put { c with
        on := false
        pulse := true
        void := false
        cur := current })) ∧
    (c.on = false ∨ s.sup.warnNow = true ∨ (∃ k : Fin 32, groupOf k = g ∧ u.chans[k].pulse = true) →
      exec (.pepperPulseStart ch current) s = .next s.begin) ∧
    (c.pulse = false → exec (.pepperPulseEnd ch fall back) s = .next s.begin) ∧
    (c.pulse = true → c.void = true →
      exec (.pepperPulseEnd ch fall back) s = .next (put { c with on := false, pulse := false, void := false })) ∧
    (c.pulse = true → c.void = false → c.rbLost = false →
      (∃ t, exec (.pepperPulseEnd ch true true) s = .next t ∧ fcuOnly t ∧ (x.st ≠ .degraded → t.fcu.groups = u.groups) ∧
        t.fcu.chans[ch] = { c with
          on := true
          pulse := false
          void := false
          passes := c.passes + 1
          fault := if c.fault = 3 then 0 else c.fault }) ∧
      (∃ t, exec (.pepperPulseEnd ch true false) s = .next t ∧ held t 2) ∧
      (Config.openLoad ≤ c.cur →
        ∃ t, exec (.pepperPulseEnd ch false back) s = .next t ∧ latched t ∧ t.fcu.chans[ch].fault = 1) ∧
      (c.cur < Config.openLoad → x.st = .normal ∨ x.st = .degraded → lost (.pepperPulseEnd ch false back) 3)) ∧
    (c.pulse = true → c.void = false → c.rbLost = true → x.st = .normal ∨ x.st = .degraded →
      lost (.pepperPulseEnd ch fall back) 4)

/-- A clean off-check makes a group NORMAL and one with a high channel latches it. A VPR is energised by two togglers
and not otherwise, and a group DEGRADED then latches while two lanes are present, and is OFF while fewer are (log
entry 96). L+ below 19.2 V warns, below 16.8 V makes the group dark and SUPPLY LOW, and a recovery above 19.2 V leads
to DEGRADED where MODE permits and the limit has not expired, else to LATCHED. An expired degrade limit latches in the
FCU and stops the toggle in the lane. Other groups stand. (R222, R225, R226, R231, R233, R234) -/
def Obligations.OutputGroups : Prop :=
  ∀ (s : State) (l : LaneId) (g : Fin 4) (high : BitVec 8) (mv : Nat), let u := s.fcu
    let x := u.groups[g]
    let fcuOnly (t : State) : Prop := t = { s.begin with fcu := t.fcu } ∧
      ∀ h : Fin 4, h ≠ g → t.fcu.groups[h] = u.groups[h]
    let put (v : FcuGrp) : State := { s.begin with fcu := { u with groups := u.groups.set g.val v } }
    let dark (t : State) : Prop := ∀ k : Fin 32, groupOf k = g → t.fcu.chans[k].on = false
    let feeds : Prop := 2 ≤ s.togglers g ∧ x.cut = false ∧ u.fault = false
    (u.active = true → x.st = .off → x.check = true →
      (∃ t, exec (.groupOffCheck g 0) s = .next t ∧ fcuOnly t ∧ t.fcu.groups[g] = { x with st := .normal, check := false }) ∧
      (high ≠ 0 → ∃ t, exec (.groupOffCheck g high) s = .next t ∧ fcuOnly t ∧ dark t ∧
        t.fcu.groups[g] = { x with
          st := .latched
          check := false
          cut := true
          degLeft := none
          degUs := 0 } ∧
        ∀ k : Fin 8, high.getLsbD k.val = true →
          ∀ c : Fin 32, c.val = 8 * g.val + k.val → t.fcu.chans[c].fault = 1)) ∧
    (u.active = false ∨ x.st ≠ .off ∨ x.check = false → exec (.groupOffCheck g high) s = .next s.begin) ∧
    (exec (.toggleStop l g) s = .next (s.begin.setLane l { s.lane l with
      lio := { (s.lane l).lio with toggle := (s.lane l).lio.toggle &&& ~~~(1#4 <<< g.val) } })) ∧
    (feeds →
      (∃ t, exec (.vprEnergise g) s = .next t ∧ fcuOnly t ∧ t.fcu.groups[g] = { x with vpr := true, waitVpr := false } ∧
        ∀ k : Fin 32, groupOf k = g → let y := u.chans[k]
          t.fcu.chans[k].on = (y.cmd && decide (x.st = .normal ∨ x.st = .degraded) && !y.hold &&
            (y.on || (y.pulse && !y.void) || !(s.sup.warnNow || y.dip)) && !y.pulse)) ∧
      exec (.vprDeenergise g) s = .next s.begin) ∧
    (¬ feeds → exec (.vprEnergise g) s = .next s.begin ∧
      (u.b2 = none ∨ 2 ≤ u.present.count ∨ u.active = false →
        ∃ t, exec (.vprDeenergise g) s = .next t ∧ fcuOnly t ∧ dark t ∧ t.fcu.groups[g].vpr = false ∧
          (x.st ≠ .degraded → t.fcu.groups[g].st = x.st) ∧ (x.st = .degraded → t.fcu.groups[g].st = .latched)) ∧
      (u.b2.isSome = true → u.present.count < 2 → u.active = true →
        ∃ t, exec (.vprDeenergise g) s = .next t ∧ t = { s.begin with fcu := t.fcu } ∧ dark t ∧ t.fcu.active = false ∧
          t.fcu.groups[g].vpr = false ∧ (x.st ≠ .latched → x.st ≠ .supplyLow → t.fcu.groups[g].st = .off))) ∧
    (exec (.lplusWarning g mv) s = .next (put { x with
      warn := decide (mv < 19200) || (x.warn && decide (mv = 19200))
      mv := mv })) ∧
    (16800 ≤ mv → exec (.lplusUndervoltage g mv) s = .next s.begin) ∧
    (mv < 16800 → x.st = .off ∨ x.st = .supplyLow ∨ x.st = .latched →
      exec (.lplusUndervoltage g mv) s = .next (put { x with
        uv := true
        warn := true
        mv := mv })) ∧
    (mv < 16800 → x.st = .normal ∨ x.st = .degraded →
      ∃ t, exec (.lplusUndervoltage g mv) s = .next t ∧ fcuOnly t ∧ dark t ∧ t.fcu.groups[g].st = .supplyLow ∧
        t.fcu.groups[g].uv = true ∧ t.fcu.groups[g].warn = true ∧ t.fcu.groups[g].mv = mv ∧
        (u.degrades g = true → t.fcu.groups[g].degLeft = some (x.degLeft.getD (u.tDeg g)))) ∧
    (x.uv = false ∨ mv ≤ 19200 → exec (.lplusRecovery g mv high) s = .next s.begin) ∧
    (x.uv = true → 19200 < mv → x.st ≠ .supplyLow →
      ∃ t, exec (.lplusRecovery g mv high) s = .next t ∧ fcuOnly t ∧ t.fcu.chans = u.chans ∧
        t.fcu.groups[g] = { x with
          uv := false
          warn := false
          mv := mv }) ∧
    (x.uv = true → 19200 < mv → x.st = .supplyLow →
      (high ≠ 0 ∨ u.degrades g = false ∨ x.degExp = true →
        ∃ t, exec (.lplusRecovery g mv high) s = .next t ∧ fcuOnly t ∧ dark t ∧ t.fcu.groups[g].st = .latched ∧
          t.fcu.groups[g].uv = false) ∧
      (u.degrades g = true → x.degExp = false →
        ∃ t, exec (.lplusRecovery g mv 0) s = .next t ∧ fcuOnly t ∧ t.fcu.groups[g].st = .degraded ∧
          t.fcu.groups[g].uv = false ∧ t.fcu.groups[g].warn = false)) ∧
    (x.degLeft = none → exec (.degradeLimitFcu g) s = .next s.begin) ∧
    (x.degLeft.isSome = true →
      (x.st = .degraded → ∃ t, exec (.degradeLimitFcu g) s = .next t ∧ fcuOnly t ∧ dark t ∧
        t.fcu.groups[g].st = .latched ∧ t.fcu.groups[g].degExp = true) ∧
      (x.st ≠ .degraded → exec (.degradeLimitFcu g) s = .next (put { x with
        degExp := true
        degLeft := some 0
        degUs := 0 }))) ∧
    ((s.lane l).lio.deg g.val ≠ some 0 → exec (.degradeLimitLane l g) s = .next s.begin) ∧
    ((s.lane l).lio.deg g.val = some 0 →
      exec (.degradeLimitLane l g) s = .next (s.begin.setLane l { s.lane l with lio := { (s.lane l).lio with
        expired := (s.lane l).lio.expired ||| (1#4 <<< g.val)
        toggle := (s.lane l).lio.toggle &&& ~~~(1#4 <<< g.val) } }))

/-- A true heartbeat gives the role, epochs and last frame of the partner and marks its path as heard in the running
cycle. An ACTIVE module that hears an ACTIVE partner of a higher epoch stands down. One whose tags fail or whose
frame is bad changes nothing, and one of the next cycle waits for the boundary of the lane (log entry 115). A ring copy is
taken once. The role of the lane, its store, its silence counts and the other lanes stand. A heartbeat of ROLE 5 names
no epoch (log entry 33). (R241, R245, R248, R250, R265) -/
def Obligations.HeartbeatsHeard : Prop :=
  ∀ (s : State) (l : LaneId) (r : RingRx) (arrival : Int) (bytes : List Byte) (img : Image) (h : Heartbeat),
    let m := s.lane l
    let q : RingRx := { r with lanes := noLanes.put l true }
    m.live = true → m.boot.img = some img → m.hasPartner = true → parseHeartbeat bytes = some h → m.ptn.role ≠ 4 →
    let early : Prop := m.tooEarly h = true
    let heard (t : State) : Prop := KeepsOthers s t l ∧ (t.lane l).store = m.store ∧
      (t.lane l).ptn.silent1 = m.ptn.silent1 ∧ (t.lane l).ptn.silent2 = m.ptn.silent2 ∧
      (t.lane l).ptn.role = m.ptn.role ∧ (t.lane l).ptn.prole = h.role.setWidth 4 ∧ (t.lane l).ptn.pse = h.sepoch ∧
      (t.lane l).ptn.last = some h ∧ (t.lane l).ptn.pEpoch = (if h.role = 5 then m.ptn.pEpoch else h.epoch) ∧
      (m.ptn.role ≠ 3 → (t.lane l).cyc = m.cyc) ∧
      (m.mode.armed = true → m.ptn.role = 0 → m.fail.ho = .idle → h.role = 0 → m.ptn.epoch.toNat < h.epoch.toNat →
        (t.lane l).fail.standDown = true)
    (m.meter.portDown.getLsbD 8 = false → m.heartbeatTrue img h bytes = true → ¬ early →
      ∃ t, exec (.heartbeatRx l none true arrival bytes) s = .next t ∧ heard t ∧ t.out = [] ∧ (t.lane l).ptn.path1 = true ∧
        (m.cyc.num = h.cyc → m.cyc.judged = false → arrival ≤ (dAgree img.hdr : Nat) * 100 → h.cyc ≠ 0 →
          (t.lane l).ptn.got1 = true) ∧
        (m.mode.armed = true → m.ptn.role ≠ 3 → m.cyc.judged = true ∨ (dAgree img.hdr : Nat) * 100 < arrival →
          (t.lane l).ptn.got1 = m.ptn.got1)) ∧
    (m.meter.portDown.getLsbD 8 = false → m.heartbeatTrue img h bytes = true → early →
      ∃ t, exec (.heartbeatRx l none true arrival bytes) s = .next t ∧ KeepsOthers s t l ∧ t.out = [] ∧
        (t.lane l).ptn.early = m.ptn.early ++ [(.link, arrival, h)] ∧ (t.lane l).ptn.path1 = true ∧
        (t.lane l).ptn.last = m.ptn.last ∧ (t.lane l).fail = m.fail ∧ (t.lane l).cyc = m.cyc ∧ (t.lane l).store = m.store) ∧
    (m.heartbeatTrue img h bytes = false → exec (.heartbeatRx l none true arrival bytes) s = .next s.begin) ∧
    (exec (.heartbeatRx l none false arrival bytes) s = .next s.begin) ∧
    (r.fcsOk = true → r.hdr.cls = 0x10 → TakesFrame s q l → m.heartbeatTrue img h bytes = true → ¬ early →
      ∃ t, exec (.heartbeatRx l (some r) true arrival bytes) s = .next t ∧ heard t ∧ (t.lane l).ptn.path2 = true ∧
        r.hdr.seq ∈ (t.lane l).ring.window r.hdr.src)

/-- A lane that wants a base joins its segments, takes deltas after them and accepts the base when the tags of SNAP_END
and the digest hold. The active holds the last HEALTH record and a module in DOZE the last state. Frames that fail
their check, or come while the partner link is down in the lane, change nothing. A stage-5 event sends heartbeats and counts the silence (log entry 30). (R158, R241,
R242, R250, R251, R252, R259, R333) -/
def Obligations.PartnerFrames : Prop :=
  ∀ (s : State) (l : LaneId) (last : Bool) (seg b : SnapBase) (d : SnapDelta) (e : SnapEnd) (img : Image)
    (bytes : List Byte) (dig : BitVec 256), let m := s.lane l
    let withRe (r : Reentry) : State := s.begin.setLane l { m with re := r }
    let up : Prop := m.meter.portDown.getLsbD 8 = false
    (up → m.wantsBase l = true →
      (m.re.base = none → exec (.snapBaseRx l true last seg) s = .next (withRe { m.re with
        base := some seg
        baseOk := false
        deltas := []
        since := if last then some seg.cyc else none })) ∧
      (m.re.base = some b → b.cyc = seg.cyc → m.re.since = none →
        exec (.snapBaseRx l true last seg) s = .next (withRe { m.re with
          base := some (joinBase b seg)
          since := if last then some seg.cyc else none })) ∧
      (m.re.base = some b → b.cyc ≠ seg.cyc ∨ m.re.since.isSome = true →
        exec (.snapBaseRx l true last seg) s = .next (withRe { m.re with
          base := some seg
          baseOk := false
          deltas := []
          since := if last then some seg.cyc else none })) ∧
      (m.re.base.isSome = true →
        exec (.snapDeltaRx l true d) s = .next (withRe { m.re with deltas := m.re.deltas ++ [d] })) ∧
      (m.boot.img = some img → m.re.base = some b → m.re.since = some b.cyc → m.endTrue img e = true →
        (Config.baseDigest b = e.digest → exec (.snapEndRx l true e) s = .next (s.begin.setLane l { m with
          re := { m.re with baseOk := true }
          fail := { m.fail with snapAge := 0 } })) ∧
        (Config.baseDigest b ≠ e.digest → exec (.snapEndRx l true e) s = .next s.begin))) ∧
    (up → m.live = true → m.mode.armed = true → m.ptn.role = 0 → bytes.length = 80 →
      exec (.healthRx l true bytes) s = .next (s.begin.setLane l { m with fail := { m.fail with hlt := bytes } })) ∧
    (up → m.live = true → m.mode.armed = true → m.ptn.role = 3 → m.pwr.mode = 2 → m.pwr.wakeDue = false →
      Config.baseDigest b = dig →
      exec (.dozeSnapRx l true b dig) s =
        .next (s.begin.setLane l { m with fail := { m.fail with doze := some b, snapAge := 0 } })) ∧
    (¬ up → exec (.snapBaseRx l true last seg) s = .next s.begin ∧ exec (.snapDeltaRx l true d) s = .next s.begin ∧
      exec (.snapEndRx l true e) s = .next s.begin ∧ exec (.healthRx l true bytes) s = .next s.begin ∧
      exec (.dozeSnapRx l true b dig) s = .next s.begin) ∧
    (exec (.snapBaseRx l false last seg) s = .next s.begin ∧ exec (.snapDeltaRx l false d) s = .next s.begin ∧
      exec (.snapEndRx l false e) s = .next s.begin ∧ exec (.healthRx l false bytes) s = .next s.begin ∧
      exec (.dozeSnapRx l false b dig) s = .next s.begin) ∧
    (∃ t, exec .stage5Heartbeat s = .next t ∧
      OnlySends (s.begin.mapLanes fun _ k => match k.boot.img with
        | none => k
        | some img => if k.waits && k.hasPartner then { k.stage5Silence with ptn := { k.stage5Silence.ptn with
            hbHead := k.stage5Silence.heartbeatHead img } } else k) t)

/-- Lanes that may cross to SLUMBER stop their crystal and voltage and keep store and partner state. A wake leads from
DOZE or SLUMBER to full power, of a dormant lane only when it is due, and a wake whose clock fails takes the lane out. WAIT enters its
target, or is unwound by a wake event. The handshake asks 15 blocks in turn, an accept goes on, a refusal or a
timeout is counted with its block and rolls back, and a new request waits 1 ms. (R346, R348, R349, R350, R351, R352) -/
def Obligations.PowerModes : Prop :=
  ∀ (s : State) (l : LaneId) (env : WakeEnv) (us : Nat) (k : Fin 4) (target : WaitTarget) (b : Nat),
    let m := s.lane l
    let put (p : Pwr) : State := s.begin.setLane l { m with pwr := p }
    (∃ t, exec .slumberEntry s = .next t ∧ t.out = [] ∧ ∀ x, let n := s.lane x
      (n.mayCrossToSlumber = false → t.lane x = n) ∧
      (n.mayCrossToSlumber = true → (t.lane x).pwr.mode = 3 ∧ (t.lane x).pwr.mv = 0 ∧ (t.lane x).clk.lock = false ∧
        (t.lane x).clk.xtalOk = false ∧ (t.lane x).cyc.running = false ∧ (t.lane x).store = n.store ∧
        (t.lane x).ptn = n.ptn)) ∧
    (m.live = true → m.ptn.role ≠ 3 ∨ m.pwr.wakeDue = true →
      m.pwr.mode = 2 ∨ (m.pwr.mode = 3 ∧ (crystalSteps env.clock m.clk).2 = 0 ∧ env.clock.monitors = true) →
      ∃ t, exec (.wakeEvent l env) s = .next t ∧ KeepsOthers s t l ∧ (t.lane l).pwr.mode = 0 ∧ (t.lane l).pwr.mv = 900 ∧
        (t.lane l).clk.seatCur = 6 ∧ (t.lane l).store = m.store ∧ (t.lane l).ptn = m.ptn ∧ (t.lane l).mode = m.mode) ∧
    (m.live = false ∨ m.pwr.mode.ult 2 = true ∨ (m.ptn.role = 3 ∧ m.pwr.wakeDue = false) →
      exec (.wakeEvent l env) s = .next s.begin) ∧
    (m.live = true → m.ptn.role ≠ 3 ∨ m.pwr.wakeDue = true → m.pwr.mode = 3 → m.mode.armed = true →
      (crystalSteps env.clock m.clk).2 ≠ 0 ∨ env.clock.monitors = false →
      ∃ t, exec (.wakeEvent l env) s = .next t ∧ KeepsOthers s t l ∧ (t.lane l).boot.alive = false ∧
        (t.lane l).vote.selfExcl = some 6 ∧ (t.lane l).pwr.sleepMs = (env.count - 1) * 10000000 / 327712768) ∧
    (m.mayWait = true →
      (∃ t, exec (.wait l target none) s = .next t ∧ KeepsOthers s t l ∧ (t.lane l).cyc.running = false ∧
        (t.lane l).pwr.mode = (match target with
          | .doze => 2
          | .slumber => 3) ∧
        (t.lane l).pwr.ap = 4 ∧ (t.lane l).pwr.target = 7 ∧ (t.lane l).store = m.store ∧ (t.lane l).mode = m.mode) ∧
      exec (.wait l target (some k)) s =
        .next (put { m.pwr with ap := BitVec.ofNat 3 k.val, unwound := m.pwr.unwound + 1, target := 7 })) ∧
    (m.handshakes l = true → m.pwr.hs = .idle →
      (m.pwr.rolled = false ∨ 1000 ≤ us → exec (.handshakeRequest l us) s = .next (put { m.pwr with hs := .asking 0 })) ∧
      (m.pwr.rolled = true → us < 1000 → exec (.handshakeRequest l us) s =
        .next (put { m.pwr with hs := .idle, refusals := m.pwr.refusals + 1, block := 0x1F, rolled := true }))) ∧
    (m.pwr.hs = .asking b →
      (b < 14 → exec (.handshakeAnswer l .accept) s = .next (put { m.pwr with hs := .asking (b + 1) })) ∧
      (14 ≤ b → exec (.handshakeAnswer l .accept) s = .next (put { m.pwr with hs := .idle })) ∧
      (exec (.handshakeAnswer l .delay) s = .next s.begin) ∧
      (∀ i : Instr, i = .handshakeAnswer l .refuse ∨ i = .handshakeTimeout l → exec i s = .next (put { m.pwr with
        hs := .idle
        refusals := m.pwr.refusals + 1
        block := BitVec.ofNat 5 (b + 1)
        rolled := true })))

/-- CENSUS leaves on both sides with the fields of R267. A CENSUS of the own slot with another MID notes a duplicate
until it expires. A delay request is sent with its probe, answered with the turnaround, and the answer gives the
delay as half of the round trip less the turnaround. A BORDER frame that passes the checks joins the set of its
neighbour and one that fails is counted by the reason. (R263, R264, R265, R266, R267, R269, R271, R272) -/
def Obligations.RingFrames : Prop :=
  ∀ (s : State) (r : RingRx) (c : Census) (p : RingPort) (probe : Word) (turn trip : Nat) (body : List Byte) (x : LaneId)
    (img : Image) (q : Fin 8) (g : BorderSeg) (e : BorderFail), let m := s.lane x
    let noted (t : State) : Prop := (t.lane x).store = m.store ∧ (t.lane x).vote = m.vote ∧
      r.hdr.seq ∈ (t.lane x).ring.window r.hdr.src ∧ (t.lane x).stats.b.taken = m.stats.b.taken + 1
    (([Port.j6, .j7].filterMap s.txLane).head? = some x → m.boot.img = some img →
      ∃ t, exec .censusSend s = .next t ∧ OnlySends s.begin t ∧
        let v : Census := { mid := mid, areaId := img.params.areaId, partner := img.partnerSlot, role := m.ptn.role.setWidth 8,
                            gen := m.boot.gen, stage := m.boot.stage }
        ((s.txLane .j6).isSome = true → .ring .east (ringHdr img.own 1 0xFE 0 27 (s.ringSeq + 1)) (.census v) ∈ t.out) ∧
        ((s.txLane .j7).isSome = true → .ring .west (ringHdr img.own 1 0xFE 1 27 (s.ringSeq + 1)) (.census v) ∈ t.out)) ∧
    (r.hdr.cls = 1 → TakesFrame s r x → ∃ t, exec (.censusRx r c) s = .next t ∧ noted t ∧ (t.lane x).ring.dup = m.ring.dup) ∧
    (r.hdr.cls = 1 → r.lanes.has x = true → m.onRing = true → m.ringAdmits r = true → m.boot.img = some img →
      r.hdr.src = img.own → c.mid ≠ mid → ∃ t, exec (.censusRx r c) s = .next t ∧ (t.lane x).ring.dup = true) ∧
    (exec .dupSlotExpiry s = .next (s.begin.mapLanes fun _ k => { k with ring := { k.ring with dup := false } })) ∧
    (s.txLane (ringPortOf p) = some x → m.boot.img = some img →
      ∃ t, exec (.delayReqSend p probe) s = .next t ∧
        (∀ y, (s.lane y).onRing = true → (t.lane y).ring.probe p = some probe) ∧
        ∃ h : RingHdr, h.cls = 2 ∧ h.dst = 0xFD ∧ h.src = img.own ∧ h.len = 4 ∧ .ring p h (.probe probe) ∈ t.out) ∧
    (r.hdr.cls = 2 → TakesFrame s r x → s.txLane (ringPortOf r.port) = some x → m.boot.img = some img →
      ∃ t, exec (.delayReqRx r probe turn) s = .next t ∧ noted t ∧
        ∃ h : RingHdr, h.cls = 3 ∧ h.dst = 0xFD ∧ h.src = img.own ∧ h.len = 8 ∧
          .ring r.port h (.probeBack probe turn) ∈ t.out) ∧
    (r.hdr.cls = 3 → TakesFrame s r x → m.ring.probe r.port = some probe →
      ∃ t, exec (.delayRespRx r probe turn trip) s = .next t ∧ noted t ∧ (t.lane x).ring.delay r.port = (trip - turn) / 2 ∧
        (t.lane x).ring.probe r.port = none) ∧
    (r.hdr.cls = 0x20 → TakesFrame s r x → m.boot.img = some img → m.takesBorder = true → 0x2C ≤ body.length →
      (∀ k w, borderNb img body = some (k, w) → nbSound img k.val = true) →
      (m.borderCheck img r.hdr.src body = .ok (q, g) → ∃ t, exec (.borderRx r body) s = .next t ∧ noted t ∧
        (t.lane x).ring.nbs = m.ring.nbs.set q.val (m.ring.nbs[q].takeSeg g m.cyc.frozen) ∧
        (t.lane x).ring.dTag = m.ring.dTag) ∧
      (m.borderCheck img r.hdr.src body = .error e → ∃ t, exec (.borderRx r body) s = .next t ∧ noted t ∧
        (t.lane x).ring.nbs = m.ring.nbs ∧
        (t.lane x).ring.dFormat = m.ring.dFormat + (if e = .format then 1 else 0) ∧
        (t.lane x).ring.dTag = m.ring.dTag + (if e = .tag then 1 else 0) ∧
        (t.lane x).ring.dOld = m.ring.dOld + (if e = .old then 1 else 0)))

/-- Data at the expected offset reaches the connection of its gateway end. An OPEN is a new connection while fewer than
8 are terminated. A retransmission counts the frames sent again and a timeout closes its end. A host connection is
held by its own module, tunnelled to another slot, or closed. A handshake with the right suite, scheme and group
opens a session in the lanes that accept, with the certificates of the module and the signature of its identity key, another group asks for a retry, any other closes. The choices are log
entries 40, 84 and 87. (R273, R274, R278, R309, R310, R311) -/
def Obligations.TunnelsAndConnections : Prop :=
  ∀ (s : State) (r : RingRx) (b : TunnelBody) (x : LaneId) (t : Tunnel) (gw : Byte) (tid : Fin 16) (conn : Nat)
    (maint : Bool) (slot own k : Byte) (tuple data : List Byte) (c : Conn) (h : TlsHello) (secret : BitVec 384),
    let id : Byte := BitVec.ofNat 8 tid.val
    let conns : List Conn := s.conns.filter fun d => d.id != conn
    (r.hdr.cls = 0x30 → TakesFrame s r x → b.data.length ≤ 1400 → s.tunnelOf r.hdr.src b = some t → b.cls = false →
      t.gateway = true → b.data ≠ [] → b.off = t.recv →
      ∃ u, exec (.tunnelRx r b) s = .next u ∧ .stream t.conn b.data ∈ u.out ∧ u.sessions = s.sessions ∧ u.conns = s.conns ∧
        ∃ v ∈ u.tunnels, v.same t = true ∧ v.recv = t.recv + BitVec.ofNat 32 b.data.length) ∧
    (r.hdr.cls = 0x30 → TakesFrame s r x → b.opn = true → b.cls = false → b.data = [] → b.tid.toNat < 16 →
      s.tunnelOf r.hdr.src b = none → s.terminated < 8 →
      ∃ u, exec (.tunnelRx r b) s = .next u ∧ u.sessions = s.sessions ∧
        ∃ d : Conn, u.conns = s.conns ++ [d] ∧ d.maint = b.mnt ∧ d.tunnel = some (r.hdr.src, b.tid)) ∧
    (s.tunnelNamed gw id = some t →
      (∃ u, exec (.tunnelRetransmit gw tid) s = .next u ∧ OnlySends { s.begin with
        tunRetx := s.tunRetx + (t.unacked.length + 1399) / 1400 } u ∧ u.tunnels = s.tunnels) ∧
      (t.gateway = true → ∃ u, exec (.tunnelTimeout gw tid) s = .next u ∧ .connClosed t.conn ∈ u.out ∧
        u.tunnels = (s.tunnels.filter fun v => !v.same t) ∧ u.sessions = s.sessions)) ∧
    (s.txLane (if maint then .j10 else .j9) = some x → s.connUsed conn = false →
      (slot.toNat < 64 → slot = (s.lane x).ownSlot →
        exec (.hostConnect maint conn tuple (preambleTag ++ [slot]) data) s = .next { s.begin with conns := s.conns ++
          [{ id := conn, maint := maint, ownJ10 := maint, tunnel := none, tuple := tuple }] }) ∧
      (64 ≤ slot.toNat → exec (.hostConnect maint conn tuple (preambleTag ++ [slot]) data) s =
        .next (s.begin.emit (.connClosed conn))) ∧
      (slot.toNat < 64 → slot ≠ (s.lane x).ownSlot → s.ringOwn = some own → s.freeTid slot = some k →
        ∃ u, exec (.hostConnect maint conn tuple (preambleTag ++ [slot]) data) s = .next u ∧ u.sessions = s.sessions ∧
          u.conns = s.conns ∧ ∃ v : Tunnel, u.tunnels = s.tunnels ++ [v] ∧ v.gateway = true ∧ v.peer = slot ∧ v.tid = k ∧
            v.conn = conn)) ∧
    ((s.conns.find? fun d => d.id == conn) = some c →
      (h.suite ≠ 0x1302 ∨ h.scheme ≠ 0x0503 → ∃ u, exec (.tlsHandshake conn h) s = .next u ∧ u.conns = conns ∧
        u.sessions = s.sessions ∧ .connClosed conn ∈ u.out) ∧
      (h.suite = 0x1302 → h.scheme = 0x0503 → h.group ≠ 0x0018 →
        exec (.tlsHandshake conn h) s = .next (s.begin.emit (.hello conn 0 [] true))) ∧
      (h.suite = 0x1302 → h.scheme = 0x0503 → h.group = 0x0018 → s.txLane c.port = some x →
        (s.lane x).nv.secret = some secret →
        s.sessions.length + (s.conns.filter fun d => d.tunnel.isSome && d.id != conn).length < 8 →
        ((s.sessionOf c h).maint = true → (s.sessions.filter (·.maint)).length < 2) →
        (∃ y, (s.lane y).accepts y c h = true) →
        let own : List (List Byte) := if (s.lane x).nv.anchors = [] ∨ (s.lane x).nv.chain = [] then
            [Config.selfCert (identitySeed secret) midText] else (s.lane x).nv.chain.map (·.raw)
        ∃ u, exec (.tlsHandshake conn h) s = .next u ∧ u.conns = conns ∧
          u.sessions = s.sessions ++ [{ s.sessionOf c h with own := own }] ∧
          .hello conn (serverRandom secret h) (serverShare secret c h) false ∈ u.out ∧
          .serverCert conn own
            (certVerify secret h (bytesOf (serverRandom secret h) ++ serverShare secret c h) own) ∈ u.out) ∧
      (∃ u, exec (.tlsHandshakeTimeout conn) s = .next u ∧ u.conns = conns ∧ u.sessions = s.sessions ∧
        .connClosed conn ∈ u.out))

/-- A session that idles or closes takes its waiting reads and its unshared prepared commands with it, which count as
discarded, and leaves posts, modes and stores. KEYUPDATE steps the key generation of the addressed lanes. An ACTIVE
module answers ARP for its own address and refreshes the addresses of stations, and keeps the address it hears.
(R275, R286, R309, R164, R21) -/
def Obligations.SessionsEnd : Prop :=
  ∀ (s : State) (id : Nat) (k : Session) (lanes : LaneSet) (net : NetId) (target : Word) (pos : Nat) (mac : BitVec 48)
    (x : LaneId) (img : Image) (r : StationRec),
    (s.session id = some k →
      (∀ i : Instr, i = .sessionIdleTimeout id ∨ i = .sessionClose id → ∃ t, exec i s = .next t ∧
        t.sessions = (s.sessions.filter fun j => j.id != id) ∧ .closed id ∈ t.out ∧
        t.reads = (s.reads.filter fun v => v.sess != id) ∧ t.pkgs = (s.pkgs.filter fun w => w.sess != id) ∧
        (∀ y, (t.lane y).store = (s.lane y).store ∧ (t.lane y).cyc = (s.lane y).cyc ∧ (t.lane y).mode = (s.lane y).mode ∧
          (t.lane y).host.posts = (s.lane y).host.posts ∧
          (t.lane y).host.expired = (s.lane y).host.expired + ((s.lane y).host.prepared.countP fun p =>
            decide (id ∈ p.sessions ∧ ∀ j ∈ p.sessions, j = id) && !p.expired && !p.confirmed) ∧
          ∀ p ∈ (t.lane y).host.prepared, id ∉ p.sessions)) ∧
      (exec (.keyupdate id lanes) s = .next (s.begin.setSession { k with keyGen :=
        { a := if lanes.a && k.lanes.a then k.keyGen.a + 1 else k.keyGen.a,
          b := if lanes.b && k.lanes.b then k.keyGen.b + 1 else k.keyGen.b,
          c := if lanes.c && k.lanes.c then k.keyGen.c + 1 else k.keyGen.c } }))) ∧
    (s.txLane (if net = .a then .j4 else .j5) = some x → (s.lane x).boot.img = some img →
      ((s.lane x).active = true → img.tableSound netTable 0 = true → target = (if net = .a then img.netA.modIp else img.netB.modIp) →
        exec (.arpRx net target) s = .next (s.begin.emit (.arpReply net target))) ∧
      (img.tableSound netTable 0 = true → (s.lane x).active = false ∨ target ≠ (if net = .a then img.netA.modIp else img.netB.modIp) →
        exec (.arpRx net target) s = .next s.begin) ∧
      ((s.lane x).active = false → exec (.arpRefresh net pos mac) s = .next s.begin) ∧
      ((s.lane x).active = true → img.stations[pos]? = some r → stationSound img pos = true →
        ∃ t, exec (.arpRefresh net pos mac) s = .next t ∧ t.out = [.arpRequest net (r.ipOn net)] ∧
          ∀ y, ((s.lane y).active = false → t.lane y = s.lane y) ∧
            ((s.lane y).active = true →
              ((t.lane y).stn pos).macA = (if net = .a then some mac else ((s.lane y).stn pos).macA) ∧
              ((t.lane y).stn pos).macB = (if net = .b then some mac else ((s.lane y).stn pos).macB) ∧
              ((t.lane y).stn pos).e = ((s.lane y).stn pos).e ∧ (t.lane y).store = (s.lane y).store)))

/-- A trip of domains 0 to 4 takes the lane out, drops its cycle and excludes it, and one of domains 5 to 8 puts its
port down. A calibration within 5 percent and its bounds is taken, and one outside is a trip. A crystal failure
coasts at the lowest speed. A divider steps by one towards its target. A gate of the meter gives the deviation, its
run above 2000 and the converter check of 10 percent, whose second failure excludes an armed lane. (R329, R330,
R331, R332, R333, R334, R335, R336, R337) -/
def Obligations.ClocksInService : Prop :=
  ∀ (s : State) (l : LaneId) (d : Fin 9) (src : Fin 10) (cal count : Nat) (bad : Bool) (fault : CrystalFault) (ch : Fin 6), let m := s.lane l
    let event (t : State) (kind : BitVec 4) : Prop := (t.lane l).meter.evKind = kind ∧
      (t.lane l).meter.evCnt = m.meter.evCnt + 1 ∧ (t.lane l).codes.stsFault.getLsbD 3 = true
    let stopped (t : State) : Prop := (t.lane l).boot.alive = false ∧
      (m.mode.armed = true → (t.lane l).vote.selfExcl = some 6) ∧
      (m.cyc.running = true → (t.lane l).cyc.drop = some (m.cyc.drop.getD { cause := 1, phase := m.cyc.phase }))
    (m.clocked = true → m.clk.watched d.val = true → ∃ t, exec (.monitorTrip l d) s = .next t ∧ KeepsOthers s t l ∧
      event t 2 ∧ (t.lane l).meter.evDom = d.val ∧ (t.lane l).clk.trips = m.clk.trips + 1 ∧ (t.lane l).clk.tripDom = d.val ∧
      (t.lane l).store = m.store ∧ (d.val ≤ 4 → stopped t) ∧
      (5 ≤ d.val → (t.lane l).meter.portDown = m.meter.portDown ||| (1#9 <<< d.val) ∧ (t.lane l).boot = m.boot ∧
        (t.lane l).vote = m.vote ∧ (t.lane l).cyc = m.cyc)) ∧
    (m.clocked = false ∨ m.clk.watched d.val = false → exec (.monitorTrip l d) s = .next s.begin) ∧
    (m.live = true → 11719 ≤ cal → cal ≤ 19531 →
      20 * (cal - m.clk.cal) ≤ m.clk.cal ∧ 20 * (m.clk.cal - cal) ≤ m.clk.cal →
      exec (.monitorCalibration l cal) s = .next (s.begin.setLane l { m with clk := { m.clk with cal := cal } })) ∧
    (m.live = true → cal < 11719 ∨ 19531 < cal → ∃ t, exec (.monitorCalibration l cal) s = .next t ∧ KeepsOthers s t l ∧
      event t 2 ∧ (t.lane l).clk.tripDom = 1 ∧ (t.lane l).clk.cal = cal ∧ stopped t) ∧
    (m.clocked = true → ∃ t, exec (.crystalFail l fault) s = .next t ∧ KeepsOthers s t l ∧ stopped t ∧
      (t.lane l).clk.coast = true ∧ (t.lane l).clk.op = 5 ∧ (t.lane l).clk.seatCur = 16 ∧ (t.lane l).clk.supCur = 16 ∧
      (fault ≠ .stopped → event t 3 ∧ (t.lane l).clk.forced = m.clk.forced) ∧
      (fault = .stopped → (t.lane l).clk.forced = true ∧ (t.lane l).meter.evKind = 1 ∧ (t.lane l).meter.evDom = 2 ∧
        (t.lane l).meter.evCnt = m.meter.evCnt + 2 ∧ (t.lane l).codes.stsFault.getLsbD 3 = true) ∧
      (fault = .lockLost → (t.lane l).clk.lock = false) ∧ (fault ≠ .lockLost → (t.lane l).clk.xtalOk = false)) ∧
    (m.acts = true → ∃ t, exec (.sourceSwitchForced l src) s = .next t ∧ KeepsOthers s t l ∧ event t 1 ∧
      (t.lane l).meter.evDom = src.val ∧ (t.lane l).clk = { m.clk with forced := true } ∧ (t.lane l).cyc = m.cyc) ∧
    (m.acts = false ∨ m.clk.coast = true → exec (.dividerStep l bad) s = .next s.begin) ∧
    (m.acts = true → m.clk.coast = false → exec (.dividerStep l true) s = .next (s.begin.setLane l { m with clk := { m.clk with seatCur :=
      if m.clk.seatCur.toNat < m.clk.seatTgt.toNat then m.clk.seatCur + 1
      else if m.clk.seatTgt.toNat < m.clk.seatCur.toNat then m.clk.seatCur - 1 else m.clk.seatCur } })) ∧
    (m.acts = true → m.clk.coast = false → exec (.dividerStep l false) s = .next (s.begin.setLane l { m with clk := { m.clk with supCur :=
      if m.clk.supCur.toNat < m.clk.supTgt.toNat then m.clk.supCur + 1
      else if m.clk.supTgt.toNat < m.clk.supCur.toNat then m.clk.supCur - 1 else m.clk.supCur } })) ∧
    (m.clocked = true → ∃ t, exec (.meterGateEnd l ch count bad) s = .next t ∧ KeepsOthers s t l ∧
      (t.lane l).meter.counts = m.meter.counts.set ch.val count ∧ (t.lane l).store = m.store ∧ (t.lane l).cyc = m.cyc ∧
      (ch.val ≤ 1 → bad = true ∨ m.pwr.mode = 3 → (t.lane l).meter = { m.meter with counts := (t.lane l).meter.counts }) ∧
      (ch = 0 → bad = false → m.pwr.mode ≠ 3 → ∃ v : Int, (t.lane l).meter.devNext = some v ∧
        2 * (v * 83886080 - ((count : Int) - 83886080) * 10000000).natAbs ≤ 83886080 ∧
        (2000 < v.natAbs → (t.lane l).meter.runNext = m.meter.runNext + 1 ∧ event t 4) ∧
        (v.natAbs ≤ 2000 → (t.lane l).meter.runNext = 0)) ∧
      (ch = 1 → bad = false → m.pwr.mode ≠ 3 → ∃ v : Int, (t.lane l).meter.devPrev = some v ∧
        2 * (v * 83886080 - ((count : Int) - 83886080) * 10000000).natAbs ≤ 83886080 ∧
        (2000 < v.natAbs → (t.lane l).meter.runPrev = m.meter.runPrev + 1 ∧ event t 4) ∧
        (v.natAbs ≤ 2000 → (t.lane l).meter.runPrev = 0)) ∧
      (ch = 2 → 100 * (count - 1006633) ≤ 2 * 1006633 → 100 * (1006633 - count) ≤ 2 * 1006633 →
        (t.lane l).meter = { m.meter with counts := (t.lane l).meter.counts }) ∧
      (ch = 2 → 2 * 1006633 < 100 * (count - 1006633) ∨ 2 * 1006633 < 100 * (1006633 - count) → event t 7) ∧
      (3 ≤ ch.val → 100 * (count - meterExpected ch.val) ≤ 10 * meterExpected ch.val →
        100 * (meterExpected ch.val - count) ≤ 10 * meterExpected ch.val →
        (∀ k : Fin 3, (t.lane l).clk.convRun[k] = if k.val + 3 = ch.val then 0 else m.clk.convRun[k]) ∧
        ((t.lane l).clk.conv = true ↔ ∃ k : Fin 3, (t.lane l).clk.convRun[k] ≠ 0) ∧ (t.lane l).vote = m.vote) ∧
      (3 ≤ ch.val → 10 * meterExpected ch.val < 100 * (count - meterExpected ch.val) ∨
          10 * meterExpected ch.val < 100 * (meterExpected ch.val - count) →
        (t.lane l).clk.conv = true ∧ event t 5 ∧
        (m.mode.armed = true → 1 ≤ m.clk.convRun.toList.getD (ch.val - 3) 0 → (t.lane l).vote.selfExcl = some 6)))

/-- A gate opens only under an open parent and closes only over closed children, and a refused request is counted with
its reason. A voltage is taken when the divider in force needs no more, and a divider when the voltage suffices, and
else the rejection is shown. A hot lane asks for the next lower admitted point or shows that it is limited, and one
at 95 degrees or less for the next higher one. (R336, R344, R345, R347, R354) -/
def Obligations.RailsGatesAndPoints : Prop :=
  ∀ (s : State) (l : LaneId) (g : Fin 17) (mv : Nat) (dv : BitVec 6) (p : BitVec 2), let m := s.lane l
    let clk (c : Clk) : State := s.begin.setLane l { m with clk := c }
    let pwr (q : Pwr) : State := s.begin.setLane l { m with pwr := q }
    (m.acts = true →
      (∀ k, gateParent g.val = some k → m.clk.gates.getLsbD k = false → exec (.gateRequest l g true) s = .next (clk { m.clk with
        gResult := 2
        gReq := true
        gGate := BitVec.ofNat 5 g.val
        gRefused := m.clk.gRefused + 1 })) ∧
      ((∀ k, gateParent g.val = some k → m.clk.gates.getLsbD k = true) → exec (.gateRequest l g true) s = .next (clk { m.clk with
        gResult := 0
        gReq := true
        gGate := BitVec.ofNat 5 g.val
        gates := m.clk.gates ||| (1#17 <<< g.val) })) ∧
      ((∃ k < 17, gateParent k = some g.val ∧ m.clk.gates.getLsbD k = true) → exec (.gateRequest l g false) s = .next (clk { m.clk with
        gResult := 1
        gReq := false
        gGate := BitVec.ofNat 5 g.val
        gRefused := m.clk.gRefused + 1 })) ∧
      ((∀ k < 17, gateParent k = some g.val → m.clk.gates.getLsbD k = false) → exec (.gateRequest l g false) s = .next (clk { m.clk with
        gResult := 0
        gReq := false
        gGate := BitVec.ofNat 5 g.val
        gates := m.clk.gates &&& ~~~(1#17 <<< g.val) })) ∧
      (let need (d : Nat) : Nat := if d < 8 then 900 else if d < 15 then 800 else 700
       let d := min m.clk.seatCur.toNat m.clk.seatTgt.toNat
       (need d ≤ mv → exec (.voltageRequest l (.volt mv)) s = .next (pwr { m.pwr with mv := mv })) ∧
       (mv < need d → exec (.voltageRequest l (.volt mv)) s = .next (pwr { m.pwr with rejV := true })) ∧
       (m.clk.coast = true → exec (.voltageRequest l (.seatDiv dv)) s = .next s.begin ∧
         exec (.voltageRequest l (.supDiv dv)) s = .next s.begin) ∧
       (m.clk.coast = false → 4 ≤ dv.toNat → dv.toNat ≤ 60 →
         (need dv.toNat ≤ m.pwr.mv →
           exec (.voltageRequest l (.seatDiv dv)) s = .next (clk { m.clk with seatTgt := dv })) ∧
         (m.pwr.mv < need dv.toNat →
           exec (.voltageRequest l (.seatDiv dv)) s = .next (pwr { m.pwr with rejF := true })) ∧
         exec (.voltageRequest l (.supDiv dv)) s = .next (clk { m.clk with supTgt := dv })))) ∧
    (m.live = true → m.mode.armed = true → m.pwr.hot = true → m.pwr.op ≠ 3 →
      (m.pwr.lowerPoint = some p → exec (.thermalStepDown l) s = .next (pwr { m.pwr with want := some p })) ∧
      (m.pwr.lowerPoint = none → exec (.thermalStepDown l) s = .next (pwr { m.pwr with thermLim := true })) ∧
      (m.pwr.op = 0 → m.pwr.admitOps = 7 → m.pwr.lowerPoint = some 1) ∧
      (m.pwr.op = 1 → m.pwr.admitOps = 7 → m.pwr.lowerPoint = some 2) ∧ (m.pwr.op = 2 → m.pwr.lowerPoint = none)) ∧
    (m.live = true → m.mode.armed = true → m.pwr.tempSeen = true → m.pwr.tempNow ≤ 95 → m.pwr.op = 1 ∨ m.pwr.op = 2 →
      exec (.thermalStepUp l) s = .next (pwr { m.pwr with want := some (m.pwr.op - 1) }))

/-- Inputs come and go by their thresholds and the source follows them. Losing both sets hold-up and stores the epochs.
A bus reset leaves each lane with its non-volatile stores alone and ends every session. A dip warns, and is counted
at its end by its length. A failed rail resets its lane and is remembered. Scrubbing corrects and counts single
errors in place, and counts double ones, whose words are poisoned from there on. (R60, R61, R339, R340, R341, R342, R343) -/
def Obligations.SuppliesAndScrub : Prop :=
  ∀ (s : State) (l : LaneId) (i : SupIn) (v w t : Nat) (r : Rail) (ph : Fin 3) (ix : BitVec 20), let p := s.sup
    let m := s.lane l
    let quiet (u : State) : Prop := ∀ x, (u.lane x).store = (s.lane x).store ∧ (u.lane x).cyc = (s.lane x).cyc ∧
      (u.lane x).vote = (s.lane x).vote
    (168 ≤ v → v ≤ (if p.ov i then 1540 else 1600) → ∃ u, exec (.inputPresent i v) s = .next u ∧ quiet u ∧
      u.sup.has i = true ∧ u.sup.ov i = false ∧ u.sup.holdup = false ∧ (i = .main → 180 < v → p.pref = true → u.sup.onBk = false) ∧
      (i = .main → v ≤ 180 → u.sup.pref = false)) ∧
    (v < 160 → ∃ u, exec (.inputAbsent i v w) s = .next u ∧ quiet u ∧ u.sup.has i = false ∧
      (i = .main → p.bkP = true → u.sup.onBk = true) ∧ (i = .backup → p.mainP = true → u.sup.onBk = false)) ∧
    (1600 < v → ∃ u, exec (.inputOvervoltage i v) s = .next u ∧ quiet u ∧ u.sup.has i = false ∧ u.sup.ov i = true ∧
      (i = .main → p.bkP = true → u.sup.onBk = true)) ∧
    (p.mainP = true → 180 < p.mainV → ∃ u, exec .mainPreferenceRestore s = .next u ∧ quiet u ∧ u.sup.pref = true ∧
      u.sup.onBk = false ∧ (p.onBk = true → m.boot.inReset = false → (u.lane l).sup.toMain = m.sup.toMain + 1)) ∧
    (p.mainP = false → p.bkP = false → p.holdup = false → ∃ u, exec .holdupSet s = .next u ∧ quiet u ∧
      u.sup = { p with holdup := true } ∧
      (m.boot.inReset = false → (u.lane l).nv = { m.nv with seStored := m.nv.se } ∧
        (u.lane l).codes.stsFault = m.codes.stsFault ||| 0x10)) ∧
    (∃ u, exec .busReset s = .next u ∧ u.fcu = Fcu.init ∧ u.sessions = [] ∧ u.conns = [] ∧ u.tunnels = [] ∧ u.reads = [] ∧
      u.pkgs = [] ∧ u.sup = { p with inReset := true, warnNow := true } ∧ u.pending = s.pending ∧
      ∀ x, u.lane x = { Lane.init with nv := (s.lane x).nv }) ∧
    (exec .dipStart s = .next (({ s.begin with sup := { p with warnNow := true } } : State).mapLanes fun _ k =>
      if k.boot.inReset then k else { k with pwr := { k.pwr with warn := true } })) ∧
    (p.warnNow = true → p.inReset = false → ∃ u, exec (.dipEnd t v) s = .next u ∧ quiet u ∧
      u.sup = { p with warnNow := false } ∧
      u.fcu = (if s.fcu.heldPress then ({ s.fcu with heldPress := false } : Fcu).restore else s.fcu) ∧
      (m.boot.inReset = false → (u.lane l).sup.dips = m.sup.dips + 1 ∧ (u.lane l).sup.longest = max m.sup.longest t ∧
        (u.lane l).sup.d0 = m.sup.d0 + (if t < 10 then 1 else 0) ∧
        (u.lane l).sup.d1 = m.sup.d1 + (if 10 ≤ t ∧ t < 100 then 1 else 0) ∧
        (u.lane l).sup.d10 = m.sup.d10 + (if 100 ≤ t ∧ t < 1000 then 1 else 0) ∧
        (u.lane l).sup.d100 = m.sup.d100 + (if 1000 ≤ t then 1 else 0))) ∧
    (∃ u, exec (.railFail l r) s = .next u ∧ KeepsOthers s u l ∧ u.fcu = s.fcu ∧
      u.lane l = { Lane.init with nv := { m.nv with railFail := m.nv.railFail ||| railBit r } } ∧
      ∀ k ∈ u.sessions, k.lanes.has l = false) ∧
    (m.live = true →
      exec (.scrub l (.bank ph ix) .clean) s = .next s.begin ∧
      (let old := Mem.get MemWord.zero m.store.phys[ph] ix.toNat
       let put (e : Ecc) (a b : Nat) : State := s.begin.setLane l { m with
         store := { m.store with
           phys := m.store.phys.set ph.val (Mem.set MemWord.zero m.store.phys[ph] ix.toNat { old with ecc := e }) }
         codes := { m.codes with corr := m.codes.corr + a, uncorr := m.codes.uncorr + b } }
       exec (.scrub l (.bank ph ix) .single) s = .next (put .ok 1 0) ∧
       exec (.scrub l (.bank ph ix) .double) s = .next (put .double 0 1)) ∧
      (∀ c : DramCell, exec (.scrub l (.cell c) .clean) s = .next s.begin ∧
        exec (.scrub l (.cell c) .single) s = .next (s.begin.setLane l { m with
          codes := { m.codes with corr := m.codes.corr + 1 } })) ∧
      (let codes : Codes := { m.codes with uncorr := m.codes.uncorr + 1 }
       (∀ c : DramCell, (∀ a b, c ≠ .table a b) → (∀ n, c ≠ .force n) →
         exec (.scrub l (.cell c) .double) s = .next (s.begin.setLane l { m with
           store := { m.store with poison := c :: m.store.poison.filter (· != c) }
           codes := codes })) ∧
       (∀ a b, exec (.scrub l (.cell (.table a b)) .double) s = .next (s.begin.setLane l { m with
         boot := { m.boot with img := m.boot.img.map fun j => { j with bad := (a, b) :: j.bad } }
         codes := codes })) ∧
       (∀ n, exec (.scrub l (.cell (.force n)) .double) s = .next (s.begin.setLane l { m with
         force := { m.force with table := m.force.table.map fun f => if f.node = n then { f with bad := true } else f }
         codes := codes }))) ∧
      ∀ (prog : Half) (wrap : Bool), exec (.scrub l (.dram prog wrap) .single) s = .next (s.begin.setLane l { m with
        bist := { m.bist with scrProg := prog, scrPass := if wrap then m.bist.scrPass + 1 else m.bist.scrPass }
        codes := { m.codes with corr := m.codes.corr + 1 } }))

/-- At reset no command waits, no session, connection or tunnel is open, every lane is in reset and not armed in SERVICE
code 0, the banks are in canonical form with nothing listed, and the floors of the secure store are 0. The secure
store and the banks being empty are the choice of the model (log entries 1 and 2). (R274, R303, R325, R368) -/
def Obligations.ResetState : Prop :=

  let s := State.reset
  s.pending = [] ∧ sessionLimits s ∧ s.sessions = [] ∧ s.conns = [] ∧ s.tunnels = [] ∧
    ∀ l : LaneId, (s.lane l).boot.inReset = true ∧ (s.lane l).boot.alive = false ∧ (s.lane l).mode.armed = false ∧
      (s.lane l).mode.mode = 0 ∧ (s.lane l).store.banksOk = true ∧ (s.lane l).nv.genFloor = 0 ∧ (s.lane l).nv.epFloor = 0

/-- For every state in which at most 8 sessions are open, of which at most 2 have maintainer rights, every step leaves a
state within the same limits. From every state whatever a step answers a next state, so no command is refused or
faults. (R274) -/
def Obligations.SessionLimitsKept : Prop :=
  (∀ s s' : State, sessionLimits s → step s = .next s' → sessionLimits s') ∧ ∀ s : State, ∃ t, step s = .next t

/-- The commands that close or renew a session, answer ARP, form the image set, register a workstation, or act on the
local outputs complete with their own effect. Each effect here is that of the statements WorkstationKeys, SetFormation,
OutputChannels, OutputGroups and SessionsEnd in its shortest form, under conditions on the state and the operands
alone. (08_field_telegrams.md, 10_local_vital_io.md, 12_cluster_and_host.md, 14_keys_and_trust.md) -/
def Obligations.SessionSetAndOutputCommandsComplete : Prop :=
  ∀ (s : State) (l sender : LaneId) (ch : Fin 32) (g : Fin 4), let m := s.lane l
    let u := s.fcu
    let c := u.chans[ch]
    let x := u.groups[g]
    let chanIs (i : Instr) (p : FcuCh → Prop) : Prop := ∃ t, exec i s = .next t ∧ p t.fcu.chans[ch]
    let grpIs (i : Instr) (p : FcuGrp → Prop) : Prop := ∃ t, exec i s = .next t ∧ p t.fcu.groups[g]
    (∀ (sess : Nat) (k : Session), s.session sess = some k →
      (∀ i : Instr, i = .sessionIdleTimeout sess ∨ i = .sessionClose sess →
        ∃ t, exec i s = .next t ∧ .closed sess ∈ t.out ∧ ∀ j ∈ t.sessions, j.id ≠ sess) ∧
      (∃ t, exec (.keyupdate sess allLanes) s = .next t ∧ ∀ j ∈ t.sessions, j.id = k.id →
        j.keyGen.get l = k.keyGen.get l + if k.lanes.has l then 1 else 0) ∧
      (∀ (req : Word) (r : WsReg), k.maint = true → k.comm = false → r.action = 2 → r.eph.length = 97 → r.wrap.length = 40 →
        (∀ y, (obeying s k allLanes).has y = true →
          (s.lane y).signedBy (bytesOf r.wsId ++ [r.action] ++ bytesOf r.seq ++ r.eph ++ r.wrap) r.sig ∧
          ∀ q, ((s.lane y).nv.wsSeq.find? fun p => p.1 == r.wsId) = some q → q.2.toNat < r.seq.toNat) →
        ∃ t, exec (.wsReg sess req r) s = .next t ∧
          ∀ y, (obeying s k allLanes).has y = true → (r.wsId, r.seq) ∈ (t.lane y).nv.wsSeq)) ∧
    (∀ (net : NetId) (y : LaneId) (img : Image) (target : Word) (pos : Nat) (mac : BitVec 48) (r : StationRec),
      s.txLane (if net = .a then .j4 else .j5) = some y → (s.lane y).boot.img = some img → (s.lane y).active = true →
      (img.tableSound netTable 0 = true → target = (if net = .a then img.netA.modIp else img.netB.modIp) →
        ∃ t, exec (.arpRx net target) s = .next t ∧ t.out = [.arpReply net target]) ∧
      (img.stations[pos]? = some r → stationSound img pos = true →
        ∃ t, exec (.arpRefresh net pos mac) s = .next t ∧ t.out = [.arpRequest net (r.ipOn net)])) ∧
    (m.live = true → m.mode.armed = false →
      (∀ f, sender ≠ l → ∃ t, exec (.startStatusRx l sender f) s = .next t ∧ (t.lane l).boot.posts.get sender = some f) ∧
      (∀ img, m.boot.late = false → m.boot.img = some img → m.boot.stage = 3 → 2 ≤ (m.setOf l).count →
        ∃ t, exec (.digestWaitExpiry l) s = .next t ∧ (t.lane l).boot.set = m.setOf l)) ∧
    (c.on = false → c.pulse = false → u.groups[groupOf ch].waitVpr = false → u.groups[groupOf ch].st ≠ .supplyLow →
      chanIs (.stuckOnDetect ch) fun v => v.fault = 1 ∧ v.rb = true) ∧
    (c.on = true → chanIs (.failedOffDetect ch) fun v => v.hold = true ∧ v.fault = 2 ∧ v.on = false) ∧
    (chanIs (.thermalShutdown ch) fun v => v.hold = true ∧ v.fault = 5 ∧ v.on = false) ∧
    (c.hold = true → c.cmd = true → chanIs (.overloadRetry ch true) fun v => v.hold = false ∧ v.fault = 0) ∧
    (∀ current : Nat, c.on = true → (∀ k : Fin 32, groupOf k = groupOf ch → u.chans[k].pulse = false) →
      s.sup.warnNow = false →
      chanIs (.pepperPulseStart ch current) fun v => v.pulse = true ∧ v.on = false ∧ v.cur = current) ∧
    (c.pulse = true → c.void = false → c.rbLost = false →
      chanIs (.pepperPulseEnd ch true true) fun v => v.pulse = false ∧ v.on = true ∧ v.passes = c.passes + 1) ∧
    (u.active = true → x.st = .off → x.check = true → grpIs (.groupOffCheck g 0) fun v => v.st = .normal) ∧
    (∃ t, exec (.toggleStop l g) s = .next t ∧ (t.lane l).lio.toggle = m.lio.toggle &&& ~~~(1#4 <<< g.val)) ∧
    (2 ≤ s.togglers g → x.cut = false → u.fault = false → grpIs (.vprEnergise g) fun v => v.vpr = true ∧ v.waitVpr = false) ∧
    (s.togglers g < 2 ∨ x.cut = true → grpIs (.vprDeenergise g) fun v => v.vpr = false) ∧
    (∀ mv : Nat,
      (mv < 19200 → grpIs (.lplusWarning g mv) fun v => v.warn = true ∧ v.mv = mv) ∧
      (mv < 16800 → x.st = .normal ∨ x.st = .degraded →
        grpIs (.lplusUndervoltage g mv) fun v => v.st = .supplyLow ∧ v.uv = true) ∧
      (x.uv = true → 19200 < mv → grpIs (.lplusRecovery g mv 0) fun v => v.uv = false)) ∧
    (x.st = .degraded → x.degLeft.isSome = true → grpIs (.degradeLimitFcu g) fun v => v.st = .latched ∧ v.degExp = true) ∧
    (m.lio.deg g.val = some 0 →
      ∃ t, exec (.degradeLimitLane l g) s = .next t ∧ (t.lane l).lio.expired.getLsbD g.val = true)
end

