-- ==== Sys2Proof/Laws/Bytes.lean ====
section
/-!
SUPPORT. Bytes of numbers and of bit vectors: what is written as bytes, in either order, is read back.
-/
namespace Sys2Proof.Machine

/-- A number written as bytes has that many of them. -/
@[simp] theorem length_toLe (n v : Nat) : (toLe n v).length = n := by
  induction n generalizing v with
  | zero => rfl
  | succ n ih => simp [toLe, ih]

/-- As many bytes as a bit vector has octets. -/
@[simp] theorem length_bytesOf {w : Nat} (v : BitVec w) : (bytesOf v).length = w / 8 := by simp [bytesOf, toBe]

/-- Bytes written least significant first are read back. -/
@[simp] theorem leNat_toLe (n v : Nat) : leNat (toLe n v) = v % 256 ^ n := by
  induction n generalizing v with
  | zero => simp [toLe, leNat, Nat.mod_one]
  | succ n ih =>
    rw [toLe, leNat, ih, BitVec.toNat_ofNat, show (256 : Nat) ^ (n + 1) = 256 * 256 ^ n from pow_succ' 256 n, Nat.mod_mul]

/-- A most significant byte behind the others adds its place value. -/
theorem beNat_append_singleton (b : List Byte) (x : Byte) : beNat (b ++ [x]) = beNat b * 256 + x.toNat := by
  induction b with
  | nil => simp [beNat]
  | cons y r ih =>
    simp only [List.cons_append, beNat, ih, List.length_append, List.length_singleton, pow_succ]
    ring

/-- Bytes read from the other end are those in the other order. -/
@[simp] theorem beNat_reverse (b : List Byte) : beNat b.reverse = leNat b := by
  induction b with
  | nil => rfl
  | cons x r ih =>
    rw [List.reverse_cons, beNat_append_singleton, ih, leNat]
    omega

/-- The bytes of a bit vector spell it. -/
@[simp] theorem ofBytes_bytesOf {w : Nat} (v : BitVec w) (h : w % 8 = 0) : ofBytes w (bytesOf v) = v := by
  apply BitVec.eq_of_toNat_eq
  have e : 256 ^ (w / 8) = 2 ^ w := by
    rw [show (256 : Nat) = 2 ^ 8 from rfl, ← pow_mul]
    congr 1
    omega
  simp [ofBytes, bytesOf, toBe, e, Nat.mod_eq_of_lt v.isLt]

/-- A running value goes from byte to byte. -/
@[simp] theorem polyBytes_cons (p : Poly) (r : Coded) (b : Byte) (bs : List Byte) :
    polyBytes p r (b :: bs) = polyBytes p (polyByte p r b) bs := by
  rw [polyBytes]
  split
  · next h => rw [BitVec.eq_of_toNat_eq (x := polyByte p r b) (y := 0) h]
  · next n h => rw [← Nat.succ_eq_add_one, ← h, BitVec.ofNat_toNat, BitVec.setWidth_eq]

@[simp] theorem polyBytes_nil (p : Poly) (r : Coded) : polyBytes p r [] = r := rfl

end Sys2Proof.Machine
end

