-- ==== Sys2Proof/Laws/Code.lean ====
section
/-!
SUPPORT. The coded word (spec/03_coded_state.md R49): a word decodes to a value exactly when it is that value's word under
the same signature and cycle number.
-/
namespace Sys2Proof.Machine
open Config

/-- K_lane · K_lane^-1 = 1 for every lane slot (R49, R50). -/
theorem k_mul_kInv (slot : BitVec 2) : kOf slot * kInvOf slot = 1 := by
  revert slot; decide

/-- The word of a value decodes to the value (R49). -/
@[simp] theorem decode_encode (slot : BitVec 2) (v : Half) (sig : Coded) (m : Cycle) :
    decode slot (encode slot v sig m) sig m = some v := by
  have hu : (encode slot v sig m - sig - dTerm slot m) * kInvOf slot = v.setWidth 64 := by
    have h := k_mul_kInv slot
    have e : (encode slot v sig m - sig - dTerm slot m) * kInvOf slot
        = v.setWidth 64 * (kOf slot * kInvOf slot) := by unfold encode; ring
    rw [e, h, mul_one]
  unfold decode
  rw [hu]
  have hv : (v.setWidth 64).toNat < 2 ^ 16 := by have := v.isLt; rw [BitVec.toNat_setWidth]; omega
  rw [if_pos hv]
  congr 1
  apply BitVec.eq_of_toNat_eq
  have := v.isLt
  rw [BitVec.toNat_setWidth, BitVec.toNat_setWidth]; omega

/-- A word that decodes to a value is the value's word (R49): no second word of a value passes. -/
theorem eq_encode_of_decode {slot : BitVec 2} {c sig : Coded} {m : Cycle} {v : Half}
    (h : decode slot c sig m = some v) : c = encode slot v sig m := by
  unfold decode at h
  generalize hu : (c - sig - dTerm slot m) * kInvOf slot = u at h
  have hk := k_mul_kInv slot
  simp only at h
  split at h
  · rename_i hlt
    have hv : v.setWidth 64 = u := by
      have he : u.setWidth 16 = v := Option.some.inj h
      subst he
      apply BitVec.eq_of_toNat_eq
      rw [BitVec.toNat_setWidth, BitVec.toNat_setWidth]; omega
    have e : u * kOf slot = (c - sig - dTerm slot m) * (kOf slot * kInvOf slot) := by rw [← hu]; ring
    rw [hk, mul_one] at e
    unfold encode
    rw [hv, e]
    ring
  · cases h

/-- Decoding and encoding agree (R49). -/
theorem decode_eq_some_iff {slot : BitVec 2} {c sig : Coded} {m : Cycle} {v : Half} :
    decode slot c sig m = some v ↔ c = encode slot v sig m :=
  ⟨eq_encode_of_decode, fun h => by subst h; exact decode_encode slot v sig m⟩

/-- Two values never share a word (R49). -/
theorem encode_injective {slot : BitVec 2} {v w : Half} {sig : Coded} {m : Cycle}
    (h : encode slot v sig m = encode slot w sig m) : v = w := by
  have := decode_encode slot v sig m
  rw [h, decode_encode] at this
  exact (Option.some.inj this).symm

end Sys2Proof.Machine
end

