-- ==== Sys2Proof/Laws/Fields.lean ====
section
/-!
SUPPORT. Fields of telegram buffers bit by bit (spec/04_node_programs.md R90, R93): what the seat's extraction and
insertion do to each bit of the buffer.
-/
namespace Sys2Proof.Machine

/-- Bit `i` of a field counts from its last bit of the buffer (R90). -/
theorem bufferField_testBit (h : Nat → Half) (b w i : Nat) :
    (bufferField h b w).testBit i = (decide (i < w) && bufferBit h (b + w - 1 - i)) := by
  induction w generalizing i with
  | zero => simp [bufferField]
  | succ w ih =>
    cases i with
    | zero =>
      simp only [bufferField, Nat.testBit_zero]
      cases hq : bufferBit h (b + w) <;> simp [hq, Nat.add_mod]
    | succ i =>
      have e : (2 * bufferField h b w + (bufferBit h (b + w)).toNat) / 2 = bufferField h b w := by
        have : (bufferBit h (b + w)).toNat < 2 := by cases bufferBit h (b + w) <;> decide
        omega
      rw [bufferField, Nat.testBit_succ, e, ih]
      have e1 : b + (w + 1) - 1 - (i + 1) = b + w - 1 - i := by omega
      have e2 : decide (i + 1 < w + 1) = decide (i < w) := by simp
      rw [e1, e2]

theorem bufferField_lt (h : Nat → Half) (b w : Nat) : bufferField h b w < 2 ^ w := by
  induction w with
  | zero => simp [bufferField]
  | succ w ih =>
    have : (bufferBit h (b + w)).toNat < 2 := by cases bufferBit h (b + w) <;> decide
    unfold bufferField; omega

/-- Bit `i` of the value that UNPK extracts with byte order 0 (R90). -/
theorem fieldGet_bit (h : Nat → Half) (b w i : Nat) (h1 : 1 ≤ w) (h2 : w ≤ 16) :
    (fieldGet (h (b / 16)) (h ((b + w - 1) / 16)) (b % 16) w false).getLsbD i =
      (decide (i < w) && bufferBit h (b + w - 1 - i)) := by
  unfold fieldGet
  simp only [Bool.false_eq_true, if_false, BitVec.getLsbD_and, BitVec.getLsbD_setWidth, BitVec.getLsbD_ushiftRight,
    BitVec.getLsbD_allOnes, BitVec.getLsbD_append]
  by_cases hi : i < w
  · have hm : b % 16 < 16 := Nat.mod_lt _ (by omega)
    have e1 : decide (i < 16) = true := by simp; omega
    have e2 : decide (16 - w + i < 16) = true := by simp; omega
    simp only [hi, e1, e2, decide_true, Bool.true_and, Bool.and_true]
    unfold bufferBit
    by_cases hp : b % 16 + w - 1 - i < 16
    · have c1 : ¬ (32 - b % 16 - w + i < 16) := by omega
      have d1 : (b + w - 1 - i) / 16 = b / 16 := by omega
      have d2 : 32 - b % 16 - w + i - 16 = 15 - (b + w - 1 - i) % 16 := by omega
      simp only [c1, d1, d2, if_false]
    · have c1 : 32 - b % 16 - w + i < 16 := by omega
      have d1 : (b + w - 1 - i) / 16 = (b + w - 1) / 16 := by omega
      have d2 : 32 - b % 16 - w + i = 15 - (b + w - 1 - i) % 16 := by omega
      simp only [c1, d1, if_true]
      rw [d2]
  · have e2 : decide (16 - w + i < 16) = false := by simp; omega
    simp [hi, e2]

/-- The value that UNPK extracts is the field's (R90, R91). -/
theorem fieldGet_eq (f : FmtF) (h : Nat → Half) (n : Nat) (hf : fitsBuffer f n) :
    fieldGet (h (firstHalf f)) (h (lastHalf f)) (f.off.toNat % 16) (f.wid.toNat + 1) (f.e == 1) =
      BitVec.ofNat 16 (fieldIn f h) := by
  have hw : f.wid.toNat < 16 := f.wid.isLt
  have base : ∀ w, 1 ≤ w → w ≤ 16 → fieldGet (h (f.off.toNat / 16)) (h ((f.off.toNat + w - 1) / 16)) (f.off.toNat % 16) w false
      = BitVec.ofNat 16 (bufferField h f.off.toNat w) := by
    intro w h1 h2
    apply BitVec.eq_of_getLsbD_eq
    intro i hi
    rw [fieldGet_bit h _ w i h1 h2, BitVec.getLsbD_ofNat, bufferField_testBit]
    simp [hi]
  have hl : lastHalf f = (f.off.toNat + (f.wid.toNat + 1) - 1) / 16 := by unfold lastHalf; congr 1
  unfold fieldIn firstHalf
  rw [hl]
  by_cases he : f.e = 1
  · obtain ⟨h8, hw15⟩ := hf.2 he
    have h16 : f.wid.toNat + 1 = 16 := by rw [hw15]; rfl
    rw [h16]
    simp only [he, if_true, beq_self_eq_true]
    apply BitVec.eq_of_getLsbD_eq
    intro i hi
    have hb : ∀ j, (fieldGet (h (f.off.toNat / 16)) (h ((f.off.toNat + 16 - 1) / 16)) (f.off.toNat % 16) 16 true).getLsbD j =
        (((fieldGet (h (f.off.toNat / 16)) (h ((f.off.toNat + 16 - 1) / 16)) (f.off.toNat % 16) 16 false).extractLsb' 0 8 ++
          (fieldGet (h (f.off.toNat / 16)) (h ((f.off.toNat + 16 - 1) / 16)) (f.off.toNat % 16) 16 false).extractLsb' 8 8 :
          BitVec 16)).getLsbD j := by intro j; rfl
    rw [hb, BitVec.getLsbD_append, BitVec.getLsbD_extractLsb', BitVec.getLsbD_extractLsb',
      fieldGet_bit h _ 16 _ (by omega) (by omega), fieldGet_bit h _ 16 _ (by omega) (by omega), BitVec.getLsbD_ofNat]
    have h256 : bufferField h f.off.toNat 8 + 256 * bufferField h (f.off.toNat + 8) 8 =
        bufferField h f.off.toNat 8 + 2 ^ 8 * bufferField h (f.off.toNat + 8) 8 := by norm_num
    rw [h256, Nat.add_comm (bufferField h f.off.toNat 8), Nat.testBit_two_pow_mul_add _ (bufferField_lt h f.off.toNat 8)]
    by_cases h8i : i < 8
    · have e1 : i + 8 < 16 := by omega
      have e2 : f.off.toNat + 16 - 1 - (8 + i) = f.off.toNat + 8 - 1 - i := by omega
      have e3 : 8 + i < 16 := by omega
      have e4 : f.off.toNat + 15 - (8 + i) = f.off.toNat + 7 - i := by omega
      simp [h8i, hi, bufferField_testBit, e3, e4]
    · have e1 : i - 8 < 8 := by omega
      have e2 : f.off.toNat + 16 - 1 - (0 + (i - 8)) = f.off.toNat + 8 + 8 - 1 - (i - 8) := by omega
      simp [h8i, hi, bufferField_testBit, e1]
      have e3 : f.off.toNat + 16 - 1 - (i - 8) = f.off.toNat + 8 + 8 - 1 - (i - 8) := by omega
      have e4 : i - 8 < 16 := by omega
      simp [e4]
  · have : (f.e == 1) = false := by simpa using he
    rw [this]
    simp only [he, if_false]
    exact base _ (by omega) (by omega)

/-- The half-words of a buffer in which PACK has replaced the first and the last one of a field. -/
def packed (h : Nat → Half) (f : FmtF) (v : Half) : Nat → Half := fun j =>
  let p := fieldPut (h (firstHalf f)) (h (lastHalf f)) (f.off.toNat % 16) (f.wid.toNat + 1) (f.e == 1) v
  if j = firstHalf f then p.1 else if j = lastHalf f then p.2 else h j

/-- Bit `j` of the 32-bit window after an insertion (R90, R93). -/
theorem fieldPut_bit (h0 h1 v : Half) (b w j : Nat) (hb : b < 16) (h1w : 1 ≤ w) (hw : w ≤ 16) (hbw : b + w ≤ 32) (hj : j < 32) :
    (((h0 ++ h1 : Word) &&& ~~~(((BitVec.allOnes 16 >>> (16 - w)).setWidth 32) <<< (32 - b - w)) |||
      ((v.setWidth 32 <<< (32 - b - w)) &&& (((BitVec.allOnes 16 >>> (16 - w)).setWidth 32) <<< (32 - b - w)))) : Word).getLsbD j =
    if 32 - b - w ≤ j ∧ j < 32 - b then v.getLsbD (j - (32 - b - w)) else (h0 ++ h1 : Word).getLsbD j := by
  simp only [BitVec.getLsbD_or, BitVec.getLsbD_and, BitVec.getLsbD_not, BitVec.getLsbD_shiftLeft, BitVec.getLsbD_setWidth,
    BitVec.getLsbD_ushiftRight, BitVec.getLsbD_allOnes]
  by_cases c1 : j < 32 - b - w
  · have : ¬ (32 - b - w ≤ j ∧ j < 32 - b) := by omega
    rw [if_neg this]; simp [c1, hj]
  · by_cases c2 : j < 32 - b
    · have e : 32 - b - w ≤ j ∧ j < 32 - b := by omega
      have e2 : 16 - w + (j - (32 - b - w)) < 16 := by omega
      have e3 : j - (32 - b - w) < 32 := by omega
      simp [c1, hj, e, e2, e3]
    · have e : ¬ (32 - b - w ≤ j ∧ j < 32 - b) := by omega
      have e2 : ¬ (16 - w + (j - (32 - b - w)) < 16) := by omega
      rw [if_neg e]; simp [c1, hj, e2]

/-- The value that PACK lays into the field, most significant bit first (R90). -/
def packOrder (f : FmtF) (v : Half) : Half := if f.e = 1 then v.extractLsb' 0 8 ++ v.extractLsb' 8 8 else v

/-- A bit of the buffer after PACK: the field's bits are the value's, all others stay (R93). -/
theorem packed_bit (h : Nat → Half) (f : FmtF) (v : Half) (q : Nat) :
    bufferBit (packed h f v) q =
      if f.off.toNat ≤ q ∧ q ≤ f.off.toNat + f.wid.toNat then (packOrder f v).getLsbD (f.off.toNat + f.wid.toNat - q)
      else bufferBit h q := by
  have hw : f.wid.toNat < 16 := f.wid.isLt
  have hm : f.off.toNat % 16 < 16 := Nat.mod_lt _ (by omega)
  have hx : (if (f.e == 1) = true then v.extractLsb' 0 8 ++ v.extractLsb' 8 8 else v) = packOrder f v := by
    unfold packOrder; simp
  have bit := fun j hj => fieldPut_bit (h (firstHalf f)) (h (lastHalf f)) (packOrder f v) (f.off.toNat % 16) (f.wid.toNat + 1) j
    hm (by omega) (by omega) (by omega) hj
  unfold bufferBit packed fieldPut
  simp only [hx]
  by_cases c1 : q / 16 = firstHalf f
  · rw [if_pos c1]
    simp only [BitVec.getLsbD_extractLsb']
    have d1 : 15 - q % 16 < 16 := by omega
    simp only [d1, decide_true, Bool.true_and]
    rw [bit _ (by omega)]
    unfold firstHalf at c1
    by_cases c2 : f.off.toNat ≤ q ∧ q ≤ f.off.toNat + f.wid.toNat
    · have c3 : 32 - f.off.toNat % 16 - (f.wid.toNat + 1) ≤ 16 + (15 - q % 16) ∧ 16 + (15 - q % 16) < 32 - f.off.toNat % 16 := by
        omega
      rw [if_pos c2, if_pos c3]; congr 1; omega
    · have c3 : ¬ (32 - f.off.toNat % 16 - (f.wid.toNat + 1) ≤ 16 + (15 - q % 16) ∧ 16 + (15 - q % 16) < 32 - f.off.toNat % 16) := by
        omega
      rw [if_neg c2, if_neg c3, BitVec.getLsbD_append]
      have c4 : ¬ (16 + (15 - q % 16) < 16) := by omega
      simp only [c4, if_false]
      have : 16 + (15 - q % 16) - 16 = 15 - q % 16 := by omega
      rw [this, c1]; rfl
  · rw [if_neg c1]
    by_cases c5 : q / 16 = lastHalf f
    · rw [if_pos c5]
      simp only [BitVec.getLsbD_extractLsb']
      have d1 : 15 - q % 16 < 16 := by omega
      simp only [d1, decide_true, Bool.true_and, Nat.zero_add]
      rw [bit _ (by omega)]
      unfold firstHalf at c1
      unfold lastHalf at c5
      have c1' : ¬ q / 16 = f.off.toNat / 16 := c1
      by_cases c2 : f.off.toNat ≤ q ∧ q ≤ f.off.toNat + f.wid.toNat
      · have c3 : 32 - f.off.toNat % 16 - (f.wid.toNat + 1) ≤ 15 - q % 16 ∧ 15 - q % 16 < 32 - f.off.toNat % 16 := by omega
        rw [if_pos c2, if_pos c3]; congr 1; omega
      · have c3 : ¬ (32 - f.off.toNat % 16 - (f.wid.toNat + 1) ≤ 15 - q % 16 ∧ 15 - q % 16 < 32 - f.off.toNat % 16) := by omega
        rw [if_neg c2, if_neg c3, BitVec.getLsbD_append]
        have c4 : 15 - q % 16 < 16 := by omega
        simp only [c4, if_true]
        rw [c5]; rfl
    · rw [if_neg c5, if_neg]
      unfold firstHalf at c1; unfold lastHalf at c5; omega

theorem bufferField_congr {h g : Nat → Half} {b : Nat} : ∀ {w : Nat}, (∀ q, b ≤ q → q < b + w → bufferBit h q = bufferBit g q) →
    bufferField h b w = bufferField g b w
  | 0, _ => rfl
  | w + 1, e => by
    unfold bufferField
    rw [bufferField_congr fun q h1 h2 => e q h1 (by omega), e (b + w) (by omega) (by omega)]

/-- A field reads as the value packed into it (R90, R93). -/
theorem fieldIn_packed (h : Nat → Half) (f : FmtF) (v : Half) (n : Nat) (hf : fitsBuffer f n)
    (hv : v.toNat < 2 ^ (f.wid.toNat + 1)) : fieldIn f (packed h f v) = v.toNat := by
  have hw : f.wid.toNat < 16 := f.wid.isLt
  unfold fieldIn
  by_cases he : f.e = 1
  · obtain ⟨h8, hw15⟩ := hf.2 he
    have h15 : f.wid.toNat = 15 := by rw [hw15]; rfl
    rw [if_pos he]
    apply Nat.eq_of_testBit_eq
    intro i
    have h256 : ∀ a c : Nat, a + 256 * c = 2 ^ 8 * c + a := by intro a c; omega
    rw [h256, Nat.testBit_two_pow_mul_add _ (bufferField_lt _ _ 8)]
    have ho : packOrder f v = v.extractLsb' 0 8 ++ v.extractLsb' 8 8 := by simp [packOrder, he]
    by_cases c : i < 8
    · rw [if_pos c, bufferField_testBit, packed_bit, if_pos (by omega), ho, BitVec.getLsbD_append,
        BitVec.getLsbD_extractLsb', BitVec.getLsbD_extractLsb']
      have e1 : ¬ (f.off.toNat + f.wid.toNat - (f.off.toNat + 8 - 1 - i) < 8) := by omega
      have e2 : f.off.toNat + f.wid.toNat - (f.off.toNat + 8 - 1 - i) - 8 = i := by omega
      have e3 : i < 16 := by omega
      simp only [c, e1, e2, decide_true, Bool.true_and, if_false, Nat.zero_add]; rfl
    · rw [if_neg c, bufferField_testBit]
      by_cases c' : i - 8 < 8
      · rw [packed_bit, if_pos (by omega), ho, BitVec.getLsbD_append, BitVec.getLsbD_extractLsb', BitVec.getLsbD_extractLsb']
        have e1 : f.off.toNat + f.wid.toNat - (f.off.toNat + 8 + 8 - 1 - (i - 8)) < 8 := by omega
        have e2 : 8 + (f.off.toNat + f.wid.toNat - (f.off.toNat + 8 + 8 - 1 - (i - 8))) = i := by omega
        simp only [c', e1, e2, decide_true, Bool.true_and, if_true]; rfl
      · simp only [c', decide_false, Bool.false_and]
        have : v.toNat < 2 ^ i := Nat.lt_of_lt_of_le v.isLt (Nat.pow_le_pow_right (by omega) (by omega))
        exact (Nat.testBit_lt_two_pow this).symm
  · rw [if_neg he]
    have ho : packOrder f v = v := if_neg he
    apply Nat.eq_of_testBit_eq
    intro i
    rw [bufferField_testBit]
    by_cases c : i < f.wid.toNat + 1
    · rw [packed_bit, if_pos (by omega), ho]
      have : f.off.toNat + f.wid.toNat - (f.off.toNat + (f.wid.toNat + 1) - 1 - i) = i := by omega
      simp only [c, this, decide_true, Bool.true_and]; rfl
    · simp only [c, decide_false, Bool.false_and]
      have : v.toNat < 2 ^ i := Nat.lt_of_lt_of_le hv (Nat.pow_le_pow_right (by omega) (by omega))
      exact (Nat.testBit_lt_two_pow this).symm

end Sys2Proof.Machine
end

