-- ==== Sys2Proof/Laws/Mem.lean ====
section
/-!
SUPPORT. The laws of an addressed memory: a read after a write gives what was written, a write leaves every other address
alone, and every operation keeps the canonical form.
-/
namespace Sys2Proof.Mem
variable {α : Type}

theorem above_mono {j k : Nat} (h : j ≤ k) : ∀ {m : Mem α}, above k m = true → above j m = true
  | [], _ => rfl
  | (a, v) :: m, hm => by
    simp only [above, Bool.and_eq_true, decide_eq_true_eq] at hm ⊢
    exact ⟨by omega, above_mono h hm.2⟩

/-- An address below every listed one reads as an unlisted address does. -/
theorem get_of_above (d : α) {k : Nat} : ∀ {m : Mem α}, above k m = true → get d m k = d
  | [], _ => rfl
  | (a, v) :: m, hm => by
    simp only [above, Bool.and_eq_true, decide_eq_true_eq] at hm
    simp only [get]
    rw [if_neg (by omega), get_of_above d hm.2]

theorem get_put_same (d : α) (k : Nat) (v : α) : ∀ m : Mem α, get d (put m k v) k = v
  | [] => by simp [put, get]
  | (a, w) :: m => by
    unfold put
    split
    · simp [get]
    · split
      · simp [get]
      · rename_i h; simp [get, h, get_put_same d k v m]

theorem get_put_other (d : α) {j k : Nat} (v : α) (h : j ≠ k) : ∀ m : Mem α, get d (put m k v) j = get d m j
  | [] => by simp [put, get, Ne.symm h]
  | (a, w) :: m => by
    unfold put
    split
    · simp [get, Ne.symm h]
    · split
      · rename_i e; subst e; simp [get, Ne.symm h]
      · simp [get, get_put_other d v h m]

theorem get_erase_other (d : α) {j k : Nat} (h : j ≠ k) : ∀ m : Mem α, get d (erase m k) j = get d m j
  | [] => rfl
  | (a, w) :: m => by
    unfold erase
    split
    · rename_i e; subst e; simp [get, Ne.symm h]
    · simp [get, get_erase_other d h m]


theorem above_put {j k : Nat} {v : α} (h : j < k) : ∀ {m : Mem α}, above j m = true → above j (put m k v) = true
  | [], _ => by simp [put, above, h]
  | (a, w) :: m, hm => by
    have h1 := hm
    simp only [above, Bool.and_eq_true, decide_eq_true_eq] at h1
    unfold put
    split
    · simp [above, h, h1.1, h1.2]
    · split
      · simp [above, h, h1.2]
      · simp [above, h1.1, above_put h h1.2]

theorem above_erase {j k : Nat} : ∀ {m : Mem α}, above j m = true → above j (erase m k) = true
  | [], _ => rfl
  | (a, w) :: m, hm => by
    simp only [above, Bool.and_eq_true, decide_eq_true_eq] at hm
    unfold erase
    split
    · exact hm.2
    · simp [above, hm.1, above_erase hm.2]

section
variable [DecidableEq α]

theorem get_erase_same (d : α) (k : Nat) : ∀ {m : Mem α}, wf d m = true → get d (erase m k) k = d
  | [], _ => rfl
  | (a, w) :: m, hm => by
    simp only [wf, Bool.and_eq_true] at hm
    unfold erase
    split
    · rename_i e; subst e; exact get_of_above d hm.1.1
    · rename_i e; simp [get, e, get_erase_same d k hm.2]

/-- A read after a write gives the value written. -/
@[simp] theorem get_set_same (d : α) {m : Mem α} (k : Nat) (v : α) (h : wf d m = true) : get d (set d m k v) k = v := by
  unfold set
  split
  · rename_i e; rw [get_erase_same d k h, e]
  · exact get_put_same d k v m

/-- A write leaves every other address alone. -/
theorem get_set_other (d : α) {m : Mem α} {j k : Nat} (v : α) (h : j ≠ k) : get d (set d m k v) j = get d m j := by
  unfold set
  split
  · exact get_erase_other d h m
  · exact get_put_other d v h m

theorem wf_erase (d : α) (k : Nat) : ∀ {m : Mem α}, wf d m = true → wf d (erase m k) = true
  | [], _ => rfl
  | (a, w) :: m, hm => by
    simp only [wf, Bool.and_eq_true] at hm
    unfold erase
    split
    · exact hm.2
    · simp only [wf, Bool.and_eq_true]; exact ⟨⟨above_erase hm.1.1, hm.1.2⟩, wf_erase d k hm.2⟩

theorem wf_put (d : α) (k : Nat) {v : α} (hv : v ≠ d) : ∀ {m : Mem α}, wf d m = true → wf d (put m k v) = true
  | [], _ => by simp [put, wf, above, hv]
  | (a, w) :: m, hm => by
    have h1 := hm
    simp only [wf, Bool.and_eq_true] at h1
    unfold put
    split
    · rename_i hk
      simp only [wf, above, Bool.and_eq_true, decide_eq_true_eq]
      exact ⟨⟨⟨hk, above_mono (by omega) h1.1.1⟩, hv⟩, ⟨h1.1.1, by simpa using h1.1.2⟩, h1.2⟩
    · split
      · rename_i e; subst e
        simp only [wf, Bool.and_eq_true, decide_eq_true_eq]; exact ⟨⟨h1.1.1, hv⟩, h1.2⟩
      · rename_i h2 h3
        simp only [wf, Bool.and_eq_true]
        exact ⟨⟨above_put (by omega) h1.1.1, h1.1.2⟩, wf_put d k hv h1.2⟩

/-- A write keeps the canonical form. -/
theorem wf_set (d : α) {m : Mem α} (k : Nat) (v : α) (h : wf d m = true) : wf d (set d m k v) = true := by
  unfold set
  split
  · exact wf_erase d k h
  · rename_i hv; exact wf_put d k hv h

/-- Writes in order keep the canonical form. -/
theorem wf_setAll (d : α) : ∀ (r : List (Nat × α)) {m : Mem α}, wf d m = true → wf d (setAll d m r) = true
  | [], _, h => h
  | (k, v) :: r, _, h => by unfold setAll; exact wf_setAll d r (wf_set d k v h)

theorem above_mapEntries (d : α) (f : Nat → α → α) {k : Nat} :
    ∀ {m : Mem α}, above k m = true → above k (mapEntries d f m) = true
  | [], _ => rfl
  | (a, w) :: m, hm => by
    simp only [above, Bool.and_eq_true, decide_eq_true_eq] at hm
    have ih := above_mapEntries d f hm.2
    unfold mapEntries at ih ⊢
    simp only [List.map_cons, List.filter_cons]
    split
    · simp only [above, Bool.and_eq_true, decide_eq_true_eq]; exact ⟨hm.1, ih⟩
    · exact ih

/-- A change of every listed entry keeps the canonical form. -/
theorem wf_mapEntries (d : α) (f : Nat → α → α) : ∀ {m : Mem α}, wf d m = true → wf d (mapEntries d f m) = true
  | [], _ => rfl
  | (a, w) :: m, hm => by
    simp only [wf, Bool.and_eq_true] at hm
    have ih := wf_mapEntries d f hm.2
    have ha := above_mapEntries d f hm.1.1
    unfold mapEntries at ih ha ⊢
    simp only [List.map_cons, List.filter_cons]
    split
    · rename_i hv
      simp only [wf, Bool.and_eq_true]; exact ⟨⟨ha, hv⟩, ih⟩
    · exact ih

/-- Two memories in canonical form that read alike at every address are equal data. -/
theorem eq_of_get (d : α) : ∀ {m n : Mem α}, wf d m = true → wf d n = true → (∀ k, get d m k = get d n k) → m = n
  | [], [], _, _, _ => rfl
  | [], (a, v) :: n, _, hn, h => by
    simp only [wf, Bool.and_eq_true, decide_eq_true_eq] at hn
    have := h a
    simp only [get, if_true] at this
    exact absurd this.symm hn.1.2
  | (a, v) :: m, [], hm, _, h => by
    simp only [wf, Bool.and_eq_true, decide_eq_true_eq] at hm
    have := h a
    simp only [get, if_true] at this
    exact absurd this hm.1.2
  | (a, v) :: m, (b, w) :: n, hm, hn, h => by
    have hm' := hm; have hn' := hn
    simp only [wf, Bool.and_eq_true, decide_eq_true_eq] at hm' hn'
    have hab : a = b := by
      rcases Nat.lt_trichotomy a b with lt | e | gt
      · have := h a
        simp only [get, if_true] at this
        rw [if_neg (by omega), get_of_above d (above_mono (by omega) hn'.1.1)] at this
        exact absurd this hm'.1.2
      · exact e
      · have := h b
        simp only [get, if_true] at this
        rw [if_neg (by omega), get_of_above d (above_mono (by omega) hm'.1.1)] at this
        exact absurd this.symm hn'.1.2
    subst hab
    have hv : v = w := by have := h a; simpa [get] using this
    subst hv
    congr 1
    refine eq_of_get d hm'.2 hn'.2 fun k => ?_
    by_cases e : a = k
    · subst e; rw [get_of_above d hm'.1.1, get_of_above d hn'.1.1]
    · have := h k; simpa [get, e] using this

end

end Sys2Proof.Mem
end

