-- ==== Sys2Proof/Laws/State.lean ====
section
/-!
SUPPORT. What each access and update of the state leaves in every field, so that no proof unfolds a record update.
-/
namespace Sys2Proof.Machine

@[simp] theorem State.lane_a (s : State) : s.lane .a = s.la := rfl
@[simp] theorem State.lane_b (s : State) : s.lane .b = s.lb := rfl
@[simp] theorem State.lane_c (s : State) : s.lane .c = s.lc := rfl

@[simp] theorem State.begin_pending (s : State) : s.begin.pending = s.pending := rfl
@[simp] theorem State.begin_freeCtr (s : State) : s.begin.freeCtr = s.freeCtr := rfl
@[simp] theorem State.begin_la (s : State) : s.begin.la = s.la := rfl
@[simp] theorem State.begin_lb (s : State) : s.begin.lb = s.lb := rfl
@[simp] theorem State.begin_lc (s : State) : s.begin.lc = s.lc := rfl
@[simp] theorem State.begin_fcu (s : State) : s.begin.fcu = s.fcu := rfl
@[simp] theorem State.begin_sup (s : State) : s.begin.sup = s.sup := rfl
@[simp] theorem State.begin_links (s : State) : s.begin.links = s.links := rfl
@[simp] theorem State.begin_ports (s : State) : s.begin.ports = s.ports := rfl
@[simp] theorem State.begin_sessions (s : State) : s.begin.sessions = s.sessions := rfl
@[simp] theorem State.begin_conns (s : State) : s.begin.conns = s.conns := rfl
@[simp] theorem State.begin_tunnels (s : State) : s.begin.tunnels = s.tunnels := rfl
@[simp] theorem State.begin_reads (s : State) : s.begin.reads = s.reads := rfl
@[simp] theorem State.begin_pkgs (s : State) : s.begin.pkgs = s.pkgs := rfl
@[simp] theorem State.begin_tunRetx (s : State) : s.begin.tunRetx = s.tunRetx := rfl
@[simp] theorem State.begin_lampCmd (s : State) : s.begin.lampCmd = s.lampCmd := rfl
@[simp] theorem State.begin_lamps (s : State) : s.begin.lamps = s.lamps := rfl
@[simp] theorem State.begin_keyWait (s : State) : s.begin.keyWait = s.keyWait := rfl
@[simp] theorem State.begin_out (s : State) : s.begin.out = [] := rfl
@[simp] theorem State.begin_lane (s : State) (l : LaneId) : s.begin.lane l = s.lane l := by cases l <;> rfl
@[simp] theorem State.begin_begin (s : State) : s.begin.begin = s.begin := rfl

@[simp] theorem State.emit_pending (s : State) (o : Out) : (s.emit o).pending = s.pending := rfl
@[simp] theorem State.emits_pending (s : State) (os : List Out) : (s.emits os).pending = s.pending := rfl
@[simp] theorem State.emit_freeCtr (s : State) (o : Out) : (s.emit o).freeCtr = s.freeCtr := rfl
@[simp] theorem State.emits_freeCtr (s : State) (os : List Out) : (s.emits os).freeCtr = s.freeCtr := rfl
@[simp] theorem State.emit_la (s : State) (o : Out) : (s.emit o).la = s.la := rfl
@[simp] theorem State.emits_la (s : State) (os : List Out) : (s.emits os).la = s.la := rfl
@[simp] theorem State.emit_lb (s : State) (o : Out) : (s.emit o).lb = s.lb := rfl
@[simp] theorem State.emits_lb (s : State) (os : List Out) : (s.emits os).lb = s.lb := rfl
@[simp] theorem State.emit_lc (s : State) (o : Out) : (s.emit o).lc = s.lc := rfl
@[simp] theorem State.emits_lc (s : State) (os : List Out) : (s.emits os).lc = s.lc := rfl
@[simp] theorem State.emit_fcu (s : State) (o : Out) : (s.emit o).fcu = s.fcu := rfl
@[simp] theorem State.emits_fcu (s : State) (os : List Out) : (s.emits os).fcu = s.fcu := rfl
@[simp] theorem State.emit_sup (s : State) (o : Out) : (s.emit o).sup = s.sup := rfl
@[simp] theorem State.emits_sup (s : State) (os : List Out) : (s.emits os).sup = s.sup := rfl
@[simp] theorem State.emit_links (s : State) (o : Out) : (s.emit o).links = s.links := rfl
@[simp] theorem State.emits_links (s : State) (os : List Out) : (s.emits os).links = s.links := rfl
@[simp] theorem State.emit_ports (s : State) (o : Out) : (s.emit o).ports = s.ports := rfl
@[simp] theorem State.emits_ports (s : State) (os : List Out) : (s.emits os).ports = s.ports := rfl
@[simp] theorem State.emit_sessions (s : State) (o : Out) : (s.emit o).sessions = s.sessions := rfl
@[simp] theorem State.emits_sessions (s : State) (os : List Out) : (s.emits os).sessions = s.sessions := rfl
@[simp] theorem State.emit_conns (s : State) (o : Out) : (s.emit o).conns = s.conns := rfl
@[simp] theorem State.emits_conns (s : State) (os : List Out) : (s.emits os).conns = s.conns := rfl
@[simp] theorem State.emit_tunnels (s : State) (o : Out) : (s.emit o).tunnels = s.tunnels := rfl
@[simp] theorem State.emits_tunnels (s : State) (os : List Out) : (s.emits os).tunnels = s.tunnels := rfl
@[simp] theorem State.emit_reads (s : State) (o : Out) : (s.emit o).reads = s.reads := rfl
@[simp] theorem State.emits_reads (s : State) (os : List Out) : (s.emits os).reads = s.reads := rfl
@[simp] theorem State.emit_pkgs (s : State) (o : Out) : (s.emit o).pkgs = s.pkgs := rfl
@[simp] theorem State.emits_pkgs (s : State) (os : List Out) : (s.emits os).pkgs = s.pkgs := rfl
@[simp] theorem State.emit_tunRetx (s : State) (o : Out) : (s.emit o).tunRetx = s.tunRetx := rfl
@[simp] theorem State.emits_tunRetx (s : State) (os : List Out) : (s.emits os).tunRetx = s.tunRetx := rfl
@[simp] theorem State.emit_lampCmd (s : State) (o : Out) : (s.emit o).lampCmd = s.lampCmd := rfl
@[simp] theorem State.emits_lampCmd (s : State) (os : List Out) : (s.emits os).lampCmd = s.lampCmd := rfl
@[simp] theorem State.emit_lamps (s : State) (o : Out) : (s.emit o).lamps = s.lamps := rfl
@[simp] theorem State.emits_lamps (s : State) (os : List Out) : (s.emits os).lamps = s.lamps := rfl
@[simp] theorem State.emit_keyWait (s : State) (o : Out) : (s.emit o).keyWait = s.keyWait := rfl
@[simp] theorem State.emits_keyWait (s : State) (os : List Out) : (s.emits os).keyWait = s.keyWait := rfl
@[simp] theorem State.emit_out (s : State) (o : Out) : (s.emit o).out = s.out ++ [o] := rfl
@[simp] theorem State.emits_out (s : State) (os : List Out) : (s.emits os).out = s.out ++ os := rfl
@[simp] theorem State.emit_lane (s : State) (o : Out) (l : LaneId) : (s.emit o).lane l = s.lane l := by cases l <;> rfl
@[simp] theorem State.emits_lane (s : State) (os : List Out) (l : LaneId) : (s.emits os).lane l = s.lane l := by cases l <;> rfl

@[simp] theorem State.setLane_pending (s : State) (l : LaneId) (v : Lane) : (s.setLane l v).pending = s.pending := by cases l <;> rfl
@[simp] theorem State.modLane_pending (s : State) (l : LaneId) (g : Lane → Lane) : (s.modLane l g).pending = s.pending := by cases l <;> rfl
@[simp] theorem State.modLanes_pending (s : State) (t : LaneSet) (g : LaneId → Lane → Lane) : (s.modLanes t g).pending = s.pending := rfl
@[simp] theorem State.mapLanes_pending (s : State) (g : LaneId → Lane → Lane) : (s.mapLanes g).pending = s.pending := rfl
@[simp] theorem State.setLane_out (s : State) (l : LaneId) (v : Lane) : (s.setLane l v).out = s.out := by cases l <;> rfl
@[simp] theorem State.modLane_out (s : State) (l : LaneId) (g : Lane → Lane) : (s.modLane l g).out = s.out := by cases l <;> rfl
@[simp] theorem State.modLanes_out (s : State) (t : LaneSet) (g : LaneId → Lane → Lane) : (s.modLanes t g).out = s.out := rfl
@[simp] theorem State.mapLanes_out (s : State) (g : LaneId → Lane → Lane) : (s.mapLanes g).out = s.out := rfl
@[simp] theorem State.setLane_freeCtr (s : State) (l : LaneId) (v : Lane) : (s.setLane l v).freeCtr = s.freeCtr := by cases l <;> rfl
@[simp] theorem State.modLane_freeCtr (s : State) (l : LaneId) (g : Lane → Lane) : (s.modLane l g).freeCtr = s.freeCtr := by cases l <;> rfl
@[simp] theorem State.modLanes_freeCtr (s : State) (t : LaneSet) (g : LaneId → Lane → Lane) : (s.modLanes t g).freeCtr = s.freeCtr := rfl
@[simp] theorem State.mapLanes_freeCtr (s : State) (g : LaneId → Lane → Lane) : (s.mapLanes g).freeCtr = s.freeCtr := rfl
@[simp] theorem State.setLane_fcu (s : State) (l : LaneId) (v : Lane) : (s.setLane l v).fcu = s.fcu := by cases l <;> rfl
@[simp] theorem State.modLane_fcu (s : State) (l : LaneId) (g : Lane → Lane) : (s.modLane l g).fcu = s.fcu := by cases l <;> rfl
@[simp] theorem State.modLanes_fcu (s : State) (t : LaneSet) (g : LaneId → Lane → Lane) : (s.modLanes t g).fcu = s.fcu := rfl
@[simp] theorem State.mapLanes_fcu (s : State) (g : LaneId → Lane → Lane) : (s.mapLanes g).fcu = s.fcu := rfl
@[simp] theorem State.setLane_sup (s : State) (l : LaneId) (v : Lane) : (s.setLane l v).sup = s.sup := by cases l <;> rfl
@[simp] theorem State.modLane_sup (s : State) (l : LaneId) (g : Lane → Lane) : (s.modLane l g).sup = s.sup := by cases l <;> rfl
@[simp] theorem State.modLanes_sup (s : State) (t : LaneSet) (g : LaneId → Lane → Lane) : (s.modLanes t g).sup = s.sup := rfl
@[simp] theorem State.mapLanes_sup (s : State) (g : LaneId → Lane → Lane) : (s.mapLanes g).sup = s.sup := rfl
@[simp] theorem State.setLane_links (s : State) (l : LaneId) (v : Lane) : (s.setLane l v).links = s.links := by cases l <;> rfl
@[simp] theorem State.modLane_links (s : State) (l : LaneId) (g : Lane → Lane) : (s.modLane l g).links = s.links := by cases l <;> rfl
@[simp] theorem State.modLanes_links (s : State) (t : LaneSet) (g : LaneId → Lane → Lane) : (s.modLanes t g).links = s.links := rfl
@[simp] theorem State.mapLanes_links (s : State) (g : LaneId → Lane → Lane) : (s.mapLanes g).links = s.links := rfl
@[simp] theorem State.setLane_ports (s : State) (l : LaneId) (v : Lane) : (s.setLane l v).ports = s.ports := by cases l <;> rfl
@[simp] theorem State.modLane_ports (s : State) (l : LaneId) (g : Lane → Lane) : (s.modLane l g).ports = s.ports := by cases l <;> rfl
@[simp] theorem State.modLanes_ports (s : State) (t : LaneSet) (g : LaneId → Lane → Lane) : (s.modLanes t g).ports = s.ports := rfl
@[simp] theorem State.mapLanes_ports (s : State) (g : LaneId → Lane → Lane) : (s.mapLanes g).ports = s.ports := rfl
@[simp] theorem State.setLane_sessions (s : State) (l : LaneId) (v : Lane) : (s.setLane l v).sessions = s.sessions := by cases l <;> rfl
@[simp] theorem State.modLane_sessions (s : State) (l : LaneId) (g : Lane → Lane) : (s.modLane l g).sessions = s.sessions := by cases l <;> rfl
@[simp] theorem State.modLanes_sessions (s : State) (t : LaneSet) (g : LaneId → Lane → Lane) : (s.modLanes t g).sessions = s.sessions := rfl
@[simp] theorem State.mapLanes_sessions (s : State) (g : LaneId → Lane → Lane) : (s.mapLanes g).sessions = s.sessions := rfl
@[simp] theorem State.setLane_conns (s : State) (l : LaneId) (v : Lane) : (s.setLane l v).conns = s.conns := by cases l <;> rfl
@[simp] theorem State.modLane_conns (s : State) (l : LaneId) (g : Lane → Lane) : (s.modLane l g).conns = s.conns := by cases l <;> rfl
@[simp] theorem State.modLanes_conns (s : State) (t : LaneSet) (g : LaneId → Lane → Lane) : (s.modLanes t g).conns = s.conns := rfl
@[simp] theorem State.mapLanes_conns (s : State) (g : LaneId → Lane → Lane) : (s.mapLanes g).conns = s.conns := rfl
@[simp] theorem State.setLane_tunnels (s : State) (l : LaneId) (v : Lane) : (s.setLane l v).tunnels = s.tunnels := by cases l <;> rfl
@[simp] theorem State.modLane_tunnels (s : State) (l : LaneId) (g : Lane → Lane) : (s.modLane l g).tunnels = s.tunnels := by cases l <;> rfl
@[simp] theorem State.modLanes_tunnels (s : State) (t : LaneSet) (g : LaneId → Lane → Lane) : (s.modLanes t g).tunnels = s.tunnels := rfl
@[simp] theorem State.mapLanes_tunnels (s : State) (g : LaneId → Lane → Lane) : (s.mapLanes g).tunnels = s.tunnels := rfl
@[simp] theorem State.setLane_reads (s : State) (l : LaneId) (v : Lane) : (s.setLane l v).reads = s.reads := by cases l <;> rfl
@[simp] theorem State.modLane_reads (s : State) (l : LaneId) (g : Lane → Lane) : (s.modLane l g).reads = s.reads := by cases l <;> rfl
@[simp] theorem State.modLanes_reads (s : State) (t : LaneSet) (g : LaneId → Lane → Lane) : (s.modLanes t g).reads = s.reads := rfl
@[simp] theorem State.mapLanes_reads (s : State) (g : LaneId → Lane → Lane) : (s.mapLanes g).reads = s.reads := rfl
@[simp] theorem State.setLane_pkgs (s : State) (l : LaneId) (v : Lane) : (s.setLane l v).pkgs = s.pkgs := by cases l <;> rfl
@[simp] theorem State.modLane_pkgs (s : State) (l : LaneId) (g : Lane → Lane) : (s.modLane l g).pkgs = s.pkgs := by cases l <;> rfl
@[simp] theorem State.modLanes_pkgs (s : State) (t : LaneSet) (g : LaneId → Lane → Lane) : (s.modLanes t g).pkgs = s.pkgs := rfl
@[simp] theorem State.mapLanes_pkgs (s : State) (g : LaneId → Lane → Lane) : (s.mapLanes g).pkgs = s.pkgs := rfl
@[simp] theorem State.setLane_tunRetx (s : State) (l : LaneId) (v : Lane) : (s.setLane l v).tunRetx = s.tunRetx := by cases l <;> rfl
@[simp] theorem State.modLane_tunRetx (s : State) (l : LaneId) (g : Lane → Lane) : (s.modLane l g).tunRetx = s.tunRetx := by cases l <;> rfl
@[simp] theorem State.modLanes_tunRetx (s : State) (t : LaneSet) (g : LaneId → Lane → Lane) : (s.modLanes t g).tunRetx = s.tunRetx := rfl
@[simp] theorem State.mapLanes_tunRetx (s : State) (g : LaneId → Lane → Lane) : (s.mapLanes g).tunRetx = s.tunRetx := rfl
@[simp] theorem State.setLane_lampCmd (s : State) (l : LaneId) (v : Lane) : (s.setLane l v).lampCmd = s.lampCmd := by cases l <;> rfl
@[simp] theorem State.modLane_lampCmd (s : State) (l : LaneId) (g : Lane → Lane) : (s.modLane l g).lampCmd = s.lampCmd := by cases l <;> rfl
@[simp] theorem State.modLanes_lampCmd (s : State) (t : LaneSet) (g : LaneId → Lane → Lane) : (s.modLanes t g).lampCmd = s.lampCmd := rfl
@[simp] theorem State.mapLanes_lampCmd (s : State) (g : LaneId → Lane → Lane) : (s.mapLanes g).lampCmd = s.lampCmd := rfl
@[simp] theorem State.setLane_lamps (s : State) (l : LaneId) (v : Lane) : (s.setLane l v).lamps = s.lamps := by cases l <;> rfl
@[simp] theorem State.modLane_lamps (s : State) (l : LaneId) (g : Lane → Lane) : (s.modLane l g).lamps = s.lamps := by cases l <;> rfl
@[simp] theorem State.modLanes_lamps (s : State) (t : LaneSet) (g : LaneId → Lane → Lane) : (s.modLanes t g).lamps = s.lamps := rfl
@[simp] theorem State.mapLanes_lamps (s : State) (g : LaneId → Lane → Lane) : (s.mapLanes g).lamps = s.lamps := rfl
@[simp] theorem State.setLane_keyWait (s : State) (l : LaneId) (v : Lane) : (s.setLane l v).keyWait = s.keyWait := by cases l <;> rfl
@[simp] theorem State.modLane_keyWait (s : State) (l : LaneId) (g : Lane → Lane) : (s.modLane l g).keyWait = s.keyWait := by cases l <;> rfl
@[simp] theorem State.modLanes_keyWait (s : State) (t : LaneSet) (g : LaneId → Lane → Lane) : (s.modLanes t g).keyWait = s.keyWait := rfl
@[simp] theorem State.mapLanes_keyWait (s : State) (g : LaneId → Lane → Lane) : (s.mapLanes g).keyWait = s.keyWait := rfl
@[simp] theorem State.setLane_lane_same (s : State) (l : LaneId) (v : Lane) : (s.setLane l v).lane l = v := by cases l <;> rfl
theorem State.setLane_lane_other (s : State) {l m : LaneId} (v : Lane) (h : m ≠ l) : (s.setLane l v).lane m = s.lane m := by
  cases l <;> cases m <;> first | rfl | exact absurd rfl h
theorem State.setLane_lane (s : State) (l m : LaneId) (v : Lane) :
    (s.setLane l v).lane m = if m = l then v else s.lane m := by cases l <;> cases m <;> rfl
@[simp] theorem State.setLane_setLane (s : State) (l : LaneId) (v w : Lane) : (s.setLane l v).setLane l w = s.setLane l w := by cases l <;> rfl
@[simp] theorem State.setLane_self (s : State) (l : LaneId) : s.setLane l (s.lane l) = s := by cases l <;> rfl
@[simp] theorem State.begin_setLane (s : State) (l : LaneId) (v : Lane) : (s.setLane l v).begin = s.begin.setLane l v := by cases l <;> rfl
theorem State.emit_setLane (s : State) (l : LaneId) (v : Lane) (o : Out) : (s.setLane l v).emit o = (s.emit o).setLane l v := by cases l <;> rfl
@[simp] theorem State.modLane_lane_same (s : State) (l : LaneId) (g : Lane → Lane) : (s.modLane l g).lane l = g (s.lane l) := by cases l <;> rfl
theorem State.modLane_lane_other (s : State) {l m : LaneId} (g : Lane → Lane) (h : m ≠ l) : (s.modLane l g).lane m = s.lane m :=
  State.setLane_lane_other s _ h
@[simp] theorem State.modLanes_lane (s : State) (t : LaneSet) (g : LaneId → Lane → Lane) (l : LaneId) :
    (s.modLanes t g).lane l = if t.has l then g l (s.lane l) else s.lane l := by cases l <;> rfl
@[simp] theorem State.mapLanes_lane (s : State) (g : LaneId → Lane → Lane) (l : LaneId) : (s.mapLanes g).lane l = g l (s.lane l) := by cases l <;> rfl
theorem State.fresh_snd (s : State) (w : Nat) : (s.fresh w).2 = { s with freeCtr := s.freeCtr + 1 } := rfl

@[simp] theorem Lane.setSeat_boot (l : Lane) (x : SeatId) (v : SeatState) : (l.setSeat x v).boot = l.boot := rfl
@[simp] theorem Lane.setSeat_mode (l : Lane) (x : SeatId) (v : SeatState) : (l.setSeat x v).mode = l.mode := rfl
@[simp] theorem Lane.setSeat_cyc (l : Lane) (x : SeatId) (v : SeatState) : (l.setSeat x v).cyc = l.cyc := rfl
@[simp] theorem Lane.setSeat_align (l : Lane) (x : SeatId) (v : SeatState) : (l.setSeat x v).align = l.align := rfl
@[simp] theorem Lane.setSeat_stats (l : Lane) (x : SeatId) (v : SeatState) : (l.setSeat x v).stats = l.stats := rfl
@[simp] theorem Lane.setSeat_store (l : Lane) (x : SeatId) (v : SeatState) : (l.setSeat x v).store = l.store := rfl
@[simp] theorem Lane.setSeat_rot (l : Lane) (x : SeatId) (v : SeatState) : (l.setSeat x v).rot = l.rot := rfl
@[simp] theorem Lane.setSeat_codes (l : Lane) (x : SeatId) (v : SeatState) : (l.setSeat x v).codes = l.codes := rfl
@[simp] theorem Lane.setSeat_field (l : Lane) (x : SeatId) (v : SeatState) : (l.setSeat x v).field = l.field := rfl
@[simp] theorem Lane.setSeat_vote (l : Lane) (x : SeatId) (v : SeatState) : (l.setSeat x v).vote = l.vote := rfl
@[simp] theorem Lane.setSeat_re (l : Lane) (x : SeatId) (v : SeatState) : (l.setSeat x v).re = l.re := rfl
@[simp] theorem Lane.setSeat_lio (l : Lane) (x : SeatId) (v : SeatState) : (l.setSeat x v).lio = l.lio := rfl
@[simp] theorem Lane.setSeat_ptn (l : Lane) (x : SeatId) (v : SeatState) : (l.setSeat x v).ptn = l.ptn := rfl
@[simp] theorem Lane.setSeat_fail (l : Lane) (x : SeatId) (v : SeatState) : (l.setSeat x v).fail = l.fail := rfl
@[simp] theorem Lane.setSeat_ring (l : Lane) (x : SeatId) (v : SeatState) : (l.setSeat x v).ring = l.ring := rfl
@[simp] theorem Lane.setSeat_host (l : Lane) (x : SeatId) (v : SeatState) : (l.setSeat x v).host = l.host := rfl
@[simp] theorem Lane.setSeat_force (l : Lane) (x : SeatId) (v : SeatState) : (l.setSeat x v).force = l.force := rfl
@[simp] theorem Lane.setSeat_nv (l : Lane) (x : SeatId) (v : SeatState) : (l.setSeat x v).nv = l.nv := rfl
@[simp] theorem Lane.setSeat_sec (l : Lane) (x : SeatId) (v : SeatState) : (l.setSeat x v).sec = l.sec := rfl
@[simp] theorem Lane.setSeat_clk (l : Lane) (x : SeatId) (v : SeatState) : (l.setSeat x v).clk = l.clk := rfl
@[simp] theorem Lane.setSeat_meter (l : Lane) (x : SeatId) (v : SeatState) : (l.setSeat x v).meter = l.meter := rfl
@[simp] theorem Lane.setSeat_pwr (l : Lane) (x : SeatId) (v : SeatState) : (l.setSeat x v).pwr = l.pwr := rfl
@[simp] theorem Lane.setSeat_sup (l : Lane) (x : SeatId) (v : SeatState) : (l.setSeat x v).sup = l.sup := rfl
@[simp] theorem Lane.setSeat_bist (l : Lane) (x : SeatId) (v : SeatState) : (l.setSeat x v).bist = l.bist := rfl
@[simp] theorem Lane.setSeat_rcd (l : Lane) (x : SeatId) (v : SeatState) : (l.setSeat x v).rcd = l.rcd := rfl
@[simp] theorem Lane.setSeat_xlDisc (l : Lane) (x : SeatId) (v : SeatState) : (l.setSeat x v).xlDisc = l.xlDisc := rfl
@[simp] theorem Lane.setSeat_xlRun (l : Lane) (x : SeatId) (v : SeatState) : (l.setSeat x v).xlRun = l.xlRun := rfl
@[simp] theorem Lane.setSeat_peers (l : Lane) (x : SeatId) (v : SeatState) : (l.setSeat x v).peers = l.peers := rfl
@[simp] theorem Lane.setSeat_bars (l : Lane) (x : SeatId) (v : SeatState) : (l.setSeat x v).bars = l.bars := rfl
@[simp] theorem Lane.setSeat_txRun (l : Lane) (x : SeatId) (v : SeatState) : (l.setSeat x v).txRun = l.txRun := rfl
@[simp] theorem Lane.setSeat_txBad (l : Lane) (x : SeatId) (v : SeatState) : (l.setSeat x v).txBad = l.txBad := rfl
@[simp] theorem Lane.setSeat_tx (l : Lane) (x : SeatId) (v : SeatState) : (l.setSeat x v).tx = l.tx := rfl
@[simp] theorem Lane.setSeat_sent (l : Lane) (x : SeatId) (v : SeatState) : (l.setSeat x v).sent = l.sent := rfl
@[simp] theorem Lane.setSeat_txRec (l : Lane) (x : SeatId) (v : SeatState) : (l.setSeat x v).txRec = l.txRec := rfl
@[simp] theorem Lane.setSeat_seat_same (l : Lane) (x : SeatId) (v : SeatState) : (l.setSeat x v).seat x = v := by
  simp [Lane.seat, Lane.setSeat]
theorem Lane.setSeat_seat_other (l : Lane) {x y : SeatId} (v : SeatState) (h : y ≠ x) : (l.setSeat x v).seat y = l.seat y := by
  have hn : ¬ x.val = y.val := fun e => h (Fin.ext e.symm)
  simp [Lane.seat, Lane.setSeat, hn]

@[simp] theorem Lane.mark_boot (l : Lane) (b : Nat) : (l.mark b).boot = l.boot := rfl
@[simp] theorem Lane.noteCause_boot (l : Lane) (c p : BitVec 4) : (l.noteCause c p).boot = l.boot := rfl
@[simp] theorem Lane.statA_boot (l : Lane) (g : StatA → StatA) : (l.statA g).boot = l.boot := rfl
@[simp] theorem Lane.statB_boot (l : Lane) (g : StatB → StatB) : (l.statB g).boot = l.boot := rfl
@[simp] theorem Lane.noteEcc_boot (l : Lane) (a b : Nat) : (l.noteEcc a b).boot = l.boot := rfl
@[simp] theorem Lane.dropCycle_boot (l : Lane) (c p : BitVec 4) : (l.dropCycle c p).boot = l.boot := by
  unfold Lane.dropCycle; repeat (first | rfl | split)
@[simp] theorem Lane.mark_mode (l : Lane) (b : Nat) : (l.mark b).mode = l.mode := rfl
@[simp] theorem Lane.noteCause_mode (l : Lane) (c p : BitVec 4) : (l.noteCause c p).mode = l.mode := rfl
@[simp] theorem Lane.statA_mode (l : Lane) (g : StatA → StatA) : (l.statA g).mode = l.mode := rfl
@[simp] theorem Lane.statB_mode (l : Lane) (g : StatB → StatB) : (l.statB g).mode = l.mode := rfl
@[simp] theorem Lane.noteEcc_mode (l : Lane) (a b : Nat) : (l.noteEcc a b).mode = l.mode := rfl
@[simp] theorem Lane.dropCycle_mode (l : Lane) (c p : BitVec 4) : (l.dropCycle c p).mode = l.mode := by
  unfold Lane.dropCycle; repeat (first | rfl | split)
@[simp] theorem Lane.mark_cyc (l : Lane) (b : Nat) : (l.mark b).cyc = l.cyc := rfl
@[simp] theorem Lane.noteCause_cyc (l : Lane) (c p : BitVec 4) : (l.noteCause c p).cyc = l.cyc := rfl
@[simp] theorem Lane.statA_cyc (l : Lane) (g : StatA → StatA) : (l.statA g).cyc = l.cyc := rfl
@[simp] theorem Lane.statB_cyc (l : Lane) (g : StatB → StatB) : (l.statB g).cyc = l.cyc := rfl
@[simp] theorem Lane.noteEcc_cyc (l : Lane) (a b : Nat) : (l.noteEcc a b).cyc = l.cyc := rfl
@[simp] theorem Lane.mark_align (l : Lane) (b : Nat) : (l.mark b).align = l.align := rfl
@[simp] theorem Lane.statA_align (l : Lane) (g : StatA → StatA) : (l.statA g).align = l.align := rfl
@[simp] theorem Lane.statB_align (l : Lane) (g : StatB → StatB) : (l.statB g).align = l.align := rfl
@[simp] theorem Lane.noteEcc_align (l : Lane) (a b : Nat) : (l.noteEcc a b).align = l.align := rfl
@[simp] theorem Lane.mark_stats (l : Lane) (b : Nat) : (l.mark b).stats = l.stats := rfl
@[simp] theorem Lane.noteCause_stats (l : Lane) (c p : BitVec 4) : (l.noteCause c p).stats = l.stats := rfl
@[simp] theorem Lane.noteEcc_stats (l : Lane) (a b : Nat) : (l.noteEcc a b).stats = l.stats := rfl
@[simp] theorem Lane.dropCycle_stats (l : Lane) (c p : BitVec 4) : (l.dropCycle c p).stats = l.stats := by
  unfold Lane.dropCycle; repeat (first | rfl | split)
@[simp] theorem Lane.mark_store (l : Lane) (b : Nat) : (l.mark b).store = l.store := rfl
@[simp] theorem Lane.noteCause_store (l : Lane) (c p : BitVec 4) : (l.noteCause c p).store = l.store := rfl
@[simp] theorem Lane.statA_store (l : Lane) (g : StatA → StatA) : (l.statA g).store = l.store := rfl
@[simp] theorem Lane.statB_store (l : Lane) (g : StatB → StatB) : (l.statB g).store = l.store := rfl
@[simp] theorem Lane.noteEcc_store (l : Lane) (a b : Nat) : (l.noteEcc a b).store = l.store := rfl
@[simp] theorem Lane.dropCycle_store (l : Lane) (c p : BitVec 4) : (l.dropCycle c p).store = l.store := by
  unfold Lane.dropCycle; repeat (first | rfl | split)
@[simp] theorem Lane.mark_seats (l : Lane) (b : Nat) : (l.mark b).seats = l.seats := rfl
@[simp] theorem Lane.noteCause_seats (l : Lane) (c p : BitVec 4) : (l.noteCause c p).seats = l.seats := rfl
@[simp] theorem Lane.statA_seats (l : Lane) (g : StatA → StatA) : (l.statA g).seats = l.seats := rfl
@[simp] theorem Lane.statB_seats (l : Lane) (g : StatB → StatB) : (l.statB g).seats = l.seats := rfl
@[simp] theorem Lane.noteEcc_seats (l : Lane) (a b : Nat) : (l.noteEcc a b).seats = l.seats := rfl
@[simp] theorem Lane.dropCycle_seats (l : Lane) (c p : BitVec 4) : (l.dropCycle c p).seats = l.seats := by
  unfold Lane.dropCycle; repeat (first | rfl | split)
@[simp] theorem Lane.mark_rot (l : Lane) (b : Nat) : (l.mark b).rot = l.rot := rfl
@[simp] theorem Lane.noteCause_rot (l : Lane) (c p : BitVec 4) : (l.noteCause c p).rot = l.rot := rfl
@[simp] theorem Lane.statA_rot (l : Lane) (g : StatA → StatA) : (l.statA g).rot = l.rot := rfl
@[simp] theorem Lane.statB_rot (l : Lane) (g : StatB → StatB) : (l.statB g).rot = l.rot := rfl
@[simp] theorem Lane.noteEcc_rot (l : Lane) (a b : Nat) : (l.noteEcc a b).rot = l.rot := rfl
@[simp] theorem Lane.dropCycle_rot (l : Lane) (c p : BitVec 4) : (l.dropCycle c p).rot = l.rot := by
  unfold Lane.dropCycle; repeat (first | rfl | split)
@[simp] theorem Lane.noteCause_codes (l : Lane) (c p : BitVec 4) : (l.noteCause c p).codes = l.codes := rfl
@[simp] theorem Lane.statA_codes (l : Lane) (g : StatA → StatA) : (l.statA g).codes = l.codes := rfl
@[simp] theorem Lane.statB_codes (l : Lane) (g : StatB → StatB) : (l.statB g).codes = l.codes := rfl
@[simp] theorem Lane.mark_field (l : Lane) (b : Nat) : (l.mark b).field = l.field := rfl
@[simp] theorem Lane.noteCause_field (l : Lane) (c p : BitVec 4) : (l.noteCause c p).field = l.field := rfl
@[simp] theorem Lane.statA_field (l : Lane) (g : StatA → StatA) : (l.statA g).field = l.field := rfl
@[simp] theorem Lane.statB_field (l : Lane) (g : StatB → StatB) : (l.statB g).field = l.field := rfl
@[simp] theorem Lane.noteEcc_field (l : Lane) (a b : Nat) : (l.noteEcc a b).field = l.field := rfl
@[simp] theorem Lane.dropCycle_field (l : Lane) (c p : BitVec 4) : (l.dropCycle c p).field = l.field := by
  unfold Lane.dropCycle; repeat (first | rfl | split)
@[simp] theorem Lane.mark_vote (l : Lane) (b : Nat) : (l.mark b).vote = l.vote := rfl
@[simp] theorem Lane.noteCause_vote (l : Lane) (c p : BitVec 4) : (l.noteCause c p).vote = l.vote := rfl
@[simp] theorem Lane.statA_vote (l : Lane) (g : StatA → StatA) : (l.statA g).vote = l.vote := rfl
@[simp] theorem Lane.statB_vote (l : Lane) (g : StatB → StatB) : (l.statB g).vote = l.vote := rfl
@[simp] theorem Lane.noteEcc_vote (l : Lane) (a b : Nat) : (l.noteEcc a b).vote = l.vote := rfl
@[simp] theorem Lane.dropCycle_vote (l : Lane) (c p : BitVec 4) : (l.dropCycle c p).vote = l.vote := by
  unfold Lane.dropCycle; repeat (first | rfl | split)
@[simp] theorem Lane.mark_re (l : Lane) (b : Nat) : (l.mark b).re = l.re := rfl
@[simp] theorem Lane.noteCause_re (l : Lane) (c p : BitVec 4) : (l.noteCause c p).re = l.re := rfl
@[simp] theorem Lane.statA_re (l : Lane) (g : StatA → StatA) : (l.statA g).re = l.re := rfl
@[simp] theorem Lane.statB_re (l : Lane) (g : StatB → StatB) : (l.statB g).re = l.re := rfl
@[simp] theorem Lane.noteEcc_re (l : Lane) (a b : Nat) : (l.noteEcc a b).re = l.re := rfl
@[simp] theorem Lane.dropCycle_re (l : Lane) (c p : BitVec 4) : (l.dropCycle c p).re = l.re := by
  unfold Lane.dropCycle; repeat (first | rfl | split)
@[simp] theorem Lane.mark_lio (l : Lane) (b : Nat) : (l.mark b).lio = l.lio := rfl
@[simp] theorem Lane.noteCause_lio (l : Lane) (c p : BitVec 4) : (l.noteCause c p).lio = l.lio := rfl
@[simp] theorem Lane.statA_lio (l : Lane) (g : StatA → StatA) : (l.statA g).lio = l.lio := rfl
@[simp] theorem Lane.statB_lio (l : Lane) (g : StatB → StatB) : (l.statB g).lio = l.lio := rfl
@[simp] theorem Lane.noteEcc_lio (l : Lane) (a b : Nat) : (l.noteEcc a b).lio = l.lio := rfl
@[simp] theorem Lane.dropCycle_lio (l : Lane) (c p : BitVec 4) : (l.dropCycle c p).lio = l.lio := by
  unfold Lane.dropCycle; repeat (first | rfl | split)
@[simp] theorem Lane.mark_ptn (l : Lane) (b : Nat) : (l.mark b).ptn = l.ptn := rfl
@[simp] theorem Lane.noteCause_ptn (l : Lane) (c p : BitVec 4) : (l.noteCause c p).ptn = l.ptn := rfl
@[simp] theorem Lane.statA_ptn (l : Lane) (g : StatA → StatA) : (l.statA g).ptn = l.ptn := rfl
@[simp] theorem Lane.statB_ptn (l : Lane) (g : StatB → StatB) : (l.statB g).ptn = l.ptn := rfl
@[simp] theorem Lane.noteEcc_ptn (l : Lane) (a b : Nat) : (l.noteEcc a b).ptn = l.ptn := rfl
@[simp] theorem Lane.dropCycle_ptn (l : Lane) (c p : BitVec 4) : (l.dropCycle c p).ptn = l.ptn := by
  unfold Lane.dropCycle; repeat (first | rfl | split)
@[simp] theorem Lane.mark_fail (l : Lane) (b : Nat) : (l.mark b).fail = l.fail := rfl
@[simp] theorem Lane.noteCause_fail (l : Lane) (c p : BitVec 4) : (l.noteCause c p).fail = l.fail := rfl
@[simp] theorem Lane.statA_fail (l : Lane) (g : StatA → StatA) : (l.statA g).fail = l.fail := rfl
@[simp] theorem Lane.statB_fail (l : Lane) (g : StatB → StatB) : (l.statB g).fail = l.fail := rfl
@[simp] theorem Lane.noteEcc_fail (l : Lane) (a b : Nat) : (l.noteEcc a b).fail = l.fail := rfl
@[simp] theorem Lane.dropCycle_fail (l : Lane) (c p : BitVec 4) : (l.dropCycle c p).fail = l.fail := by
  unfold Lane.dropCycle; repeat (first | rfl | split)
@[simp] theorem Lane.mark_ring (l : Lane) (b : Nat) : (l.mark b).ring = l.ring := rfl
@[simp] theorem Lane.noteCause_ring (l : Lane) (c p : BitVec 4) : (l.noteCause c p).ring = l.ring := rfl
@[simp] theorem Lane.statA_ring (l : Lane) (g : StatA → StatA) : (l.statA g).ring = l.ring := rfl
@[simp] theorem Lane.statB_ring (l : Lane) (g : StatB → StatB) : (l.statB g).ring = l.ring := rfl
@[simp] theorem Lane.noteEcc_ring (l : Lane) (a b : Nat) : (l.noteEcc a b).ring = l.ring := rfl
@[simp] theorem Lane.dropCycle_ring (l : Lane) (c p : BitVec 4) : (l.dropCycle c p).ring = l.ring := by
  unfold Lane.dropCycle; repeat (first | rfl | split)
@[simp] theorem Lane.mark_host (l : Lane) (b : Nat) : (l.mark b).host = l.host := rfl
@[simp] theorem Lane.noteCause_host (l : Lane) (c p : BitVec 4) : (l.noteCause c p).host = l.host := rfl
@[simp] theorem Lane.statA_host (l : Lane) (g : StatA → StatA) : (l.statA g).host = l.host := rfl
@[simp] theorem Lane.statB_host (l : Lane) (g : StatB → StatB) : (l.statB g).host = l.host := rfl
@[simp] theorem Lane.noteEcc_host (l : Lane) (a b : Nat) : (l.noteEcc a b).host = l.host := rfl
@[simp] theorem Lane.dropCycle_host (l : Lane) (c p : BitVec 4) : (l.dropCycle c p).host = l.host := by
  unfold Lane.dropCycle; repeat (first | rfl | split)
@[simp] theorem Lane.mark_force (l : Lane) (b : Nat) : (l.mark b).force = l.force := rfl
@[simp] theorem Lane.noteCause_force (l : Lane) (c p : BitVec 4) : (l.noteCause c p).force = l.force := rfl
@[simp] theorem Lane.statA_force (l : Lane) (g : StatA → StatA) : (l.statA g).force = l.force := rfl
@[simp] theorem Lane.statB_force (l : Lane) (g : StatB → StatB) : (l.statB g).force = l.force := rfl
@[simp] theorem Lane.noteEcc_force (l : Lane) (a b : Nat) : (l.noteEcc a b).force = l.force := rfl
@[simp] theorem Lane.dropCycle_force (l : Lane) (c p : BitVec 4) : (l.dropCycle c p).force = l.force := by
  unfold Lane.dropCycle; repeat (first | rfl | split)
@[simp] theorem Lane.mark_nv (l : Lane) (b : Nat) : (l.mark b).nv = l.nv := rfl
@[simp] theorem Lane.noteCause_nv (l : Lane) (c p : BitVec 4) : (l.noteCause c p).nv = l.nv := rfl
@[simp] theorem Lane.statA_nv (l : Lane) (g : StatA → StatA) : (l.statA g).nv = l.nv := rfl
@[simp] theorem Lane.statB_nv (l : Lane) (g : StatB → StatB) : (l.statB g).nv = l.nv := rfl
@[simp] theorem Lane.noteEcc_nv (l : Lane) (a b : Nat) : (l.noteEcc a b).nv = l.nv := rfl
@[simp] theorem Lane.dropCycle_nv (l : Lane) (c p : BitVec 4) : (l.dropCycle c p).nv = l.nv := by
  unfold Lane.dropCycle; repeat (first | rfl | split)
@[simp] theorem Lane.mark_sec (l : Lane) (b : Nat) : (l.mark b).sec = l.sec := rfl
@[simp] theorem Lane.noteCause_sec (l : Lane) (c p : BitVec 4) : (l.noteCause c p).sec = l.sec := rfl
@[simp] theorem Lane.statA_sec (l : Lane) (g : StatA → StatA) : (l.statA g).sec = l.sec := rfl
@[simp] theorem Lane.statB_sec (l : Lane) (g : StatB → StatB) : (l.statB g).sec = l.sec := rfl
@[simp] theorem Lane.noteEcc_sec (l : Lane) (a b : Nat) : (l.noteEcc a b).sec = l.sec := rfl
@[simp] theorem Lane.dropCycle_sec (l : Lane) (c p : BitVec 4) : (l.dropCycle c p).sec = l.sec := by
  unfold Lane.dropCycle; repeat (first | rfl | split)
@[simp] theorem Lane.mark_clk (l : Lane) (b : Nat) : (l.mark b).clk = l.clk := rfl
@[simp] theorem Lane.noteCause_clk (l : Lane) (c p : BitVec 4) : (l.noteCause c p).clk = l.clk := rfl
@[simp] theorem Lane.statA_clk (l : Lane) (g : StatA → StatA) : (l.statA g).clk = l.clk := rfl
@[simp] theorem Lane.statB_clk (l : Lane) (g : StatB → StatB) : (l.statB g).clk = l.clk := rfl
@[simp] theorem Lane.noteEcc_clk (l : Lane) (a b : Nat) : (l.noteEcc a b).clk = l.clk := rfl
@[simp] theorem Lane.dropCycle_clk (l : Lane) (c p : BitVec 4) : (l.dropCycle c p).clk = l.clk := by
  unfold Lane.dropCycle; repeat (first | rfl | split)
@[simp] theorem Lane.mark_meter (l : Lane) (b : Nat) : (l.mark b).meter = l.meter := rfl
@[simp] theorem Lane.noteCause_meter (l : Lane) (c p : BitVec 4) : (l.noteCause c p).meter = l.meter := rfl
@[simp] theorem Lane.statA_meter (l : Lane) (g : StatA → StatA) : (l.statA g).meter = l.meter := rfl
@[simp] theorem Lane.statB_meter (l : Lane) (g : StatB → StatB) : (l.statB g).meter = l.meter := rfl
@[simp] theorem Lane.noteEcc_meter (l : Lane) (a b : Nat) : (l.noteEcc a b).meter = l.meter := rfl
@[simp] theorem Lane.dropCycle_meter (l : Lane) (c p : BitVec 4) : (l.dropCycle c p).meter = l.meter := by
  unfold Lane.dropCycle; repeat (first | rfl | split)
@[simp] theorem Lane.mark_pwr (l : Lane) (b : Nat) : (l.mark b).pwr = l.pwr := rfl
@[simp] theorem Lane.noteCause_pwr (l : Lane) (c p : BitVec 4) : (l.noteCause c p).pwr = l.pwr := rfl
@[simp] theorem Lane.statA_pwr (l : Lane) (g : StatA → StatA) : (l.statA g).pwr = l.pwr := rfl
@[simp] theorem Lane.statB_pwr (l : Lane) (g : StatB → StatB) : (l.statB g).pwr = l.pwr := rfl
@[simp] theorem Lane.noteEcc_pwr (l : Lane) (a b : Nat) : (l.noteEcc a b).pwr = l.pwr := rfl
@[simp] theorem Lane.dropCycle_pwr (l : Lane) (c p : BitVec 4) : (l.dropCycle c p).pwr = l.pwr := by
  unfold Lane.dropCycle; repeat (first | rfl | split)
@[simp] theorem Lane.mark_sup (l : Lane) (b : Nat) : (l.mark b).sup = l.sup := rfl
@[simp] theorem Lane.noteCause_sup (l : Lane) (c p : BitVec 4) : (l.noteCause c p).sup = l.sup := rfl
@[simp] theorem Lane.statA_sup (l : Lane) (g : StatA → StatA) : (l.statA g).sup = l.sup := rfl
@[simp] theorem Lane.statB_sup (l : Lane) (g : StatB → StatB) : (l.statB g).sup = l.sup := rfl
@[simp] theorem Lane.noteEcc_sup (l : Lane) (a b : Nat) : (l.noteEcc a b).sup = l.sup := rfl
@[simp] theorem Lane.dropCycle_sup (l : Lane) (c p : BitVec 4) : (l.dropCycle c p).sup = l.sup := by
  unfold Lane.dropCycle; repeat (first | rfl | split)
@[simp] theorem Lane.mark_bist (l : Lane) (b : Nat) : (l.mark b).bist = l.bist := rfl
@[simp] theorem Lane.noteCause_bist (l : Lane) (c p : BitVec 4) : (l.noteCause c p).bist = l.bist := rfl
@[simp] theorem Lane.statA_bist (l : Lane) (g : StatA → StatA) : (l.statA g).bist = l.bist := rfl
@[simp] theorem Lane.statB_bist (l : Lane) (g : StatB → StatB) : (l.statB g).bist = l.bist := rfl
@[simp] theorem Lane.noteEcc_bist (l : Lane) (a b : Nat) : (l.noteEcc a b).bist = l.bist := rfl
@[simp] theorem Lane.dropCycle_bist (l : Lane) (c p : BitVec 4) : (l.dropCycle c p).bist = l.bist := by
  unfold Lane.dropCycle; repeat (first | rfl | split)
@[simp] theorem Lane.mark_rcd (l : Lane) (b : Nat) : (l.mark b).rcd = l.rcd := rfl
@[simp] theorem Lane.noteCause_rcd (l : Lane) (c p : BitVec 4) : (l.noteCause c p).rcd = l.rcd := rfl
@[simp] theorem Lane.statA_rcd (l : Lane) (g : StatA → StatA) : (l.statA g).rcd = l.rcd := rfl
@[simp] theorem Lane.statB_rcd (l : Lane) (g : StatB → StatB) : (l.statB g).rcd = l.rcd := rfl
@[simp] theorem Lane.noteEcc_rcd (l : Lane) (a b : Nat) : (l.noteEcc a b).rcd = l.rcd := rfl
@[simp] theorem Lane.dropCycle_rcd (l : Lane) (c p : BitVec 4) : (l.dropCycle c p).rcd = l.rcd := by
  unfold Lane.dropCycle; repeat (first | rfl | split)
@[simp] theorem Lane.mark_xlDisc (l : Lane) (b : Nat) : (l.mark b).xlDisc = l.xlDisc := rfl
@[simp] theorem Lane.noteCause_xlDisc (l : Lane) (c p : BitVec 4) : (l.noteCause c p).xlDisc = l.xlDisc := rfl
@[simp] theorem Lane.statA_xlDisc (l : Lane) (g : StatA → StatA) : (l.statA g).xlDisc = l.xlDisc := rfl
@[simp] theorem Lane.statB_xlDisc (l : Lane) (g : StatB → StatB) : (l.statB g).xlDisc = l.xlDisc := rfl
@[simp] theorem Lane.noteEcc_xlDisc (l : Lane) (a b : Nat) : (l.noteEcc a b).xlDisc = l.xlDisc := rfl
@[simp] theorem Lane.dropCycle_xlDisc (l : Lane) (c p : BitVec 4) : (l.dropCycle c p).xlDisc = l.xlDisc := by
  unfold Lane.dropCycle; repeat (first | rfl | split)
@[simp] theorem Lane.mark_xlRun (l : Lane) (b : Nat) : (l.mark b).xlRun = l.xlRun := rfl
@[simp] theorem Lane.noteCause_xlRun (l : Lane) (c p : BitVec 4) : (l.noteCause c p).xlRun = l.xlRun := rfl
@[simp] theorem Lane.statA_xlRun (l : Lane) (g : StatA → StatA) : (l.statA g).xlRun = l.xlRun := rfl
@[simp] theorem Lane.statB_xlRun (l : Lane) (g : StatB → StatB) : (l.statB g).xlRun = l.xlRun := rfl
@[simp] theorem Lane.noteEcc_xlRun (l : Lane) (a b : Nat) : (l.noteEcc a b).xlRun = l.xlRun := rfl
@[simp] theorem Lane.dropCycle_xlRun (l : Lane) (c p : BitVec 4) : (l.dropCycle c p).xlRun = l.xlRun := by
  unfold Lane.dropCycle; repeat (first | rfl | split)
@[simp] theorem Lane.mark_peers (l : Lane) (b : Nat) : (l.mark b).peers = l.peers := rfl
@[simp] theorem Lane.noteCause_peers (l : Lane) (c p : BitVec 4) : (l.noteCause c p).peers = l.peers := rfl
@[simp] theorem Lane.statA_peers (l : Lane) (g : StatA → StatA) : (l.statA g).peers = l.peers := rfl
@[simp] theorem Lane.statB_peers (l : Lane) (g : StatB → StatB) : (l.statB g).peers = l.peers := rfl
@[simp] theorem Lane.noteEcc_peers (l : Lane) (a b : Nat) : (l.noteEcc a b).peers = l.peers := rfl
@[simp] theorem Lane.dropCycle_peers (l : Lane) (c p : BitVec 4) : (l.dropCycle c p).peers = l.peers := by
  unfold Lane.dropCycle; repeat (first | rfl | split)
@[simp] theorem Lane.mark_bars (l : Lane) (b : Nat) : (l.mark b).bars = l.bars := rfl
@[simp] theorem Lane.noteCause_bars (l : Lane) (c p : BitVec 4) : (l.noteCause c p).bars = l.bars := rfl
@[simp] theorem Lane.statA_bars (l : Lane) (g : StatA → StatA) : (l.statA g).bars = l.bars := rfl
@[simp] theorem Lane.statB_bars (l : Lane) (g : StatB → StatB) : (l.statB g).bars = l.bars := rfl
@[simp] theorem Lane.noteEcc_bars (l : Lane) (a b : Nat) : (l.noteEcc a b).bars = l.bars := rfl
@[simp] theorem Lane.dropCycle_bars (l : Lane) (c p : BitVec 4) : (l.dropCycle c p).bars = l.bars := by
  unfold Lane.dropCycle; repeat (first | rfl | split)
@[simp] theorem Lane.mark_txRun (l : Lane) (b : Nat) : (l.mark b).txRun = l.txRun := rfl
@[simp] theorem Lane.noteCause_txRun (l : Lane) (c p : BitVec 4) : (l.noteCause c p).txRun = l.txRun := rfl
@[simp] theorem Lane.statA_txRun (l : Lane) (g : StatA → StatA) : (l.statA g).txRun = l.txRun := rfl
@[simp] theorem Lane.statB_txRun (l : Lane) (g : StatB → StatB) : (l.statB g).txRun = l.txRun := rfl
@[simp] theorem Lane.noteEcc_txRun (l : Lane) (a b : Nat) : (l.noteEcc a b).txRun = l.txRun := rfl
@[simp] theorem Lane.dropCycle_txRun (l : Lane) (c p : BitVec 4) : (l.dropCycle c p).txRun = l.txRun := by
  unfold Lane.dropCycle; repeat (first | rfl | split)
@[simp] theorem Lane.mark_txBad (l : Lane) (b : Nat) : (l.mark b).txBad = l.txBad := rfl
@[simp] theorem Lane.noteCause_txBad (l : Lane) (c p : BitVec 4) : (l.noteCause c p).txBad = l.txBad := rfl
@[simp] theorem Lane.statA_txBad (l : Lane) (g : StatA → StatA) : (l.statA g).txBad = l.txBad := rfl
@[simp] theorem Lane.statB_txBad (l : Lane) (g : StatB → StatB) : (l.statB g).txBad = l.txBad := rfl
@[simp] theorem Lane.noteEcc_txBad (l : Lane) (a b : Nat) : (l.noteEcc a b).txBad = l.txBad := rfl
@[simp] theorem Lane.dropCycle_txBad (l : Lane) (c p : BitVec 4) : (l.dropCycle c p).txBad = l.txBad := by
  unfold Lane.dropCycle; repeat (first | rfl | split)
@[simp] theorem Lane.mark_tx (l : Lane) (b : Nat) : (l.mark b).tx = l.tx := rfl
@[simp] theorem Lane.noteCause_tx (l : Lane) (c p : BitVec 4) : (l.noteCause c p).tx = l.tx := rfl
@[simp] theorem Lane.statA_tx (l : Lane) (g : StatA → StatA) : (l.statA g).tx = l.tx := rfl
@[simp] theorem Lane.statB_tx (l : Lane) (g : StatB → StatB) : (l.statB g).tx = l.tx := rfl
@[simp] theorem Lane.noteEcc_tx (l : Lane) (a b : Nat) : (l.noteEcc a b).tx = l.tx := rfl
@[simp] theorem Lane.dropCycle_tx (l : Lane) (c p : BitVec 4) : (l.dropCycle c p).tx = l.tx := by
  unfold Lane.dropCycle; repeat (first | rfl | split)
@[simp] theorem Lane.mark_sent (l : Lane) (b : Nat) : (l.mark b).sent = l.sent := rfl
@[simp] theorem Lane.noteCause_sent (l : Lane) (c p : BitVec 4) : (l.noteCause c p).sent = l.sent := rfl
@[simp] theorem Lane.statA_sent (l : Lane) (g : StatA → StatA) : (l.statA g).sent = l.sent := rfl
@[simp] theorem Lane.statB_sent (l : Lane) (g : StatB → StatB) : (l.statB g).sent = l.sent := rfl
@[simp] theorem Lane.noteEcc_sent (l : Lane) (a b : Nat) : (l.noteEcc a b).sent = l.sent := rfl
@[simp] theorem Lane.dropCycle_sent (l : Lane) (c p : BitVec 4) : (l.dropCycle c p).sent = l.sent := by
  unfold Lane.dropCycle; repeat (first | rfl | split)
@[simp] theorem Lane.mark_txRec (l : Lane) (b : Nat) : (l.mark b).txRec = l.txRec := rfl
@[simp] theorem Lane.noteCause_txRec (l : Lane) (c p : BitVec 4) : (l.noteCause c p).txRec = l.txRec := rfl
@[simp] theorem Lane.statA_txRec (l : Lane) (g : StatA → StatA) : (l.statA g).txRec = l.txRec := rfl
@[simp] theorem Lane.statB_txRec (l : Lane) (g : StatB → StatB) : (l.statB g).txRec = l.txRec := rfl
@[simp] theorem Lane.noteEcc_txRec (l : Lane) (a b : Nat) : (l.noteEcc a b).txRec = l.txRec := rfl
@[simp] theorem Lane.dropCycle_txRec (l : Lane) (c p : BitVec 4) : (l.dropCycle c p).txRec = l.txRec := by
  unfold Lane.dropCycle; repeat (first | rfl | split)
@[simp] theorem Lane.statA_a (l : Lane) (g : StatA → StatA) : (l.statA g).stats.a = g l.stats.a := rfl
@[simp] theorem Lane.statB_b (l : Lane) (g : StatB → StatB) : (l.statB g).stats.b = g l.stats.b := rfl

/-- A running cycle with no drop takes the cause; any other lane stays as it is (R36, R44). -/
theorem Lane.dropCycle_drop (l : Lane) (c p : BitVec 4) (h : l.cyc.running = true) :
    (l.dropCycle c p).cyc.drop = some (l.cyc.drop.getD { cause := c, phase := p }) := by
  unfold Lane.dropCycle; cases hd : l.cyc.drop <;> simp [h, hd]

/-- A drop changes only the cycle's drop, the cause register and STS_FAULT (R44). -/
theorem Lane.dropCycle_eq (l : Lane) (c p : BitVec 4) :
    l.dropCycle c p = { l with cyc := (l.dropCycle c p).cyc, align := (l.dropCycle c p).align, codes := (l.dropCycle c p).codes } := by
  unfold Lane.dropCycle; repeat (first | rfl | split)

end Sys2Proof.Machine
end

