-- ==== Sys2Proof/Laws/Node.lean ====
section
/-!
SUPPORT. What a node instruction does once its evaluation is known (spec/05_seats_at_work.md R102, R106;
spec/04_node_programs.md R73, R75): one lemma for each way in which it ends.
-/
namespace Sys2Proof.Machine
open Config

/-- What an evaluation holds of the lane it belongs to. -/
theorem evalOf_facts {l : Lane} {x : SeatId} {c : Eval} (h : evalOf l x = some c) :
    c.lane = l ∧ c.slot = l.slot ∧ c.n = l.cyc.num ∧ c.seat = l.seat x ∧ c.p5 = l.cyc.p5 ∧
      c.settle = ((l.seat x).code == 3) ∧ l.cyc.running = true ∧ ((l.seat x).code = 1 ∨ (l.seat x).code = 3) ∧
      l.boot.img = some c.img ∧ (l.seat x).node = some c.i ∧ c.img.nodes[c.i]? = some c.ent := by
  unfold evalOf at h
  simp only at h
  split at h
  · rename_i hr
    simp only [Bool.and_eq_true, Bool.or_eq_true, beq_iff_eq] at hr
    split at h
    · rename_i img i hi hn
      simp only [Option.map_eq_some_iff] at h
      obtain ⟨e, he, rfl⟩ := h
      exact ⟨rfl, rfl, rfl, rfl, rfl, rfl, hr.1, hr.2, hi, hn, he⟩
    · cases h
  · cases h

section regs
variable {c : Eval} {r : BitVec 4} {v : Half}

theorem Eval.holds.value (h : c.holds r v) : regValue c r = some v := by
  unfold regValue; rw [h]; exact decode_encode ..

theorem Eval.holds.full (h : c.holds r v) : regFull c r = true := by unfold regFull; rw [h]

theorem Eval.holds.word (h : c.holds r v) : (c.seat.regs[r.toNat]).word = encode c.slot v (gTerm r) c.n := by rw [h]

theorem Eval.holds.bad (h : c.holds r v) : regBad c r = false := by simp [regBad, h.full, h.value]

theorem Eval.holds.val (h : c.holds r v) : regVal c r = v := by simp [regVal, h.value]

/-- Registers that are read and hold good words raise no fault (R75, R100). -/
theorem withRegs_one (h : c.holds r v) (k : ResE) : withRegs c [r] k = k := by
  simp [withRegs, failIf, h.bad, h.full]

theorem withRegs_two {r' : BitVec 4} {v' : Half} (h : c.holds r v) (h' : c.holds r' v') (k : ResE) :
    withRegs c [r, r'] k = k := by
  simp [withRegs, failIf, h.bad, h.full, h'.bad, h'.full]

theorem withRegs_three {r' r'' : BitVec 4} {v' v'' : Half} (h : c.holds r v) (h' : c.holds r' v') (h'' : c.holds r'' v'')
    (k : ResE) : withRegs c [r, r', r''] k = k := by
  simp [withRegs, failIf, h.bad, h.full, h'.bad, h'.full, h''.bad, h''.full]
end regs

/-- Stage 2 lets an instruction pass that breaks none of its rules (R100, R102). -/
theorem stage2_pass {c : Eval} {reserved kindBad out isEnd : Bool} (k : ResE) (h1 : reserved = false)
    (h2 : kindBad = false) (h3 : isEnd = true ∨ c.notLast) : stage2 c reserved kindBad out isEnd k = k := by
  subst h1; subst h2
  rcases h3 with rfl | h
  · simp [stage2, failIf]
  · simp [stage2, failIf, show ¬ c.seat.off + 1 = c.ent.plen.toNat from h]

/-- The verify stage passes the word of the value, and the seat goes on (R73, R75). -/
theorem writeReg_encode (l : Lane) (x : SeatId) (c : Eval) (op : BitVec 6) (t : SeatState) (d : BitVec 4) (v : Half) :
    l.writeReg x c op t d v (encode c.slot v (gTerm d) c.n) = l.nextEntry x (t.withReg c d v) := by
  unfold Lane.writeReg
  rw [if_pos (decode_encode ..)]; rfl

@[simp] theorem Lane.noteEcc_zero (l : Lane) : l.noteEcc 0 0 = l := rfl

/-- No table entry that the node's window rests on is wrong (R63). -/
theorem RunsEntry.noneWrong {s : State} {l : LaneId} {x : SeatId} {c : Eval} {w : Word} (h : RunsEntry s l x c w) :
    c.img.wrongOf (windowRefs c.img c.ent) = none := Option.isNone_iff_eq_none.mp h.window

/-- A checked entry whose instruction comes to an effect performs it (R76), unless a settling seat at the node's end waits
for its partner (R111). -/
theorem nodeCommand_eff {s : State} {l : LaneId} {x : SeatId} {c : Eval} {w : Word} (h : RunsEntry s l x c w)
    {ev : Eval → ResE} {e : Eff} {a b : Nat} (he : ev c = { res := .eff e, corr := a, uncorr := b })
    (hd : e ≠ .done ∨ c.settle = false)
    (hf : e.retires = false ∨ (s.lane l).forceBad c.i = none := by first | exact .inl rfl | assumption) :
    nodeCommand l x w ev s = s.begin.setLane l (((s.lane l).noteEcc a b).perform x c (opcodeOf w) e) := by
  unfold nodeCommand
  rw [h.eval]
  have hw : settleWaits (s.lane l) x c (.eff e) = false := by
    unfold settleWaits
    rcases hd with hd | hd
    · cases e <;> simp_all
    · simp [hd]
  have hb : (if e.retires = true then ((s.lane l).noteEcc a b).forceBad c.i else none) = none := by
    rcases hf with hf | hf
    · simp [hf]
    · split
      · exact hf
      · rfl
  simp [State.modLane, Lane.runNode, h.entry, h.noneWrong, h.fetch, he, hw, hb]

/-- An instruction that writes a register with an encoded result (D-class, R75). -/
theorem nodeCommand_reg {s : State} {l : LaneId} {x : SeatId} {c : Eval} {w : Word} (h : RunsEntry s l x c w)
    {ev : Eval → ResE} {d : BitVec 4} {v : Half} (he : ev c = .ok (.reg d v)) :
    nodeCommand l x w ev s = writesReg s l x c d v := by
  rw [nodeCommand_eff h he (.inl (by simp))]
  simp [Lane.perform, writeReg_encode, Lane.nextEntry, writesReg, withSeat]

/-- An instruction that writes a register with a coded result (L-class, R75). -/
theorem nodeCommand_regWord {s : State} {l : LaneId} {x : SeatId} {c : Eval} {w : Word} (h : RunsEntry s l x c w)
    {ev : Eval → ResE} {d : BitVec 4} {v : Half} {k : Coded} (he : ev c = .ok (.regWord d v k))
    (hk : k = encode c.slot v (gTerm d) c.n) : nodeCommand l x w ev s = writesReg s l x c d v := by
  subst hk
  rw [nodeCommand_eff h he (.inl (by simp))]
  simp [Lane.perform, writeReg_encode, Lane.nextEntry, writesReg, withSeat]

/-- An instruction that writes a register and met `k` single-bit errors (R60, R75). -/
theorem nodeCommand_regEcc {s : State} {l : LaneId} {x : SeatId} {c : Eval} {w : Word} (h : RunsEntry s l x c w)
    {ev : Eval → ResE} {d : BitVec 4} {v : Half} {k : Nat} (he : ev c = { res := .eff (.reg d v), corr := k, uncorr := 0 }) :
    nodeCommand l x w ev s = writesRegEcc s l x c k d v := by
  rw [nodeCommand_eff h he (.inl (by simp))]
  simp only [Lane.perform, writeReg_encode, Lane.nextEntry, writesRegEcc, writesReg, withSeat]
  cases l <;> rfl

/-- The same for a coded result of the L-class. -/
theorem nodeCommand_regWordEcc {s : State} {l : LaneId} {x : SeatId} {c : Eval} {w : Word} (h : RunsEntry s l x c w)
    {ev : Eval → ResE} {d : BitVec 4} {v : Half} {u : Coded} {k : Nat}
    (he : ev c = { res := .eff (.regWord d v u), corr := k, uncorr := 0 }) (hu : u = encode c.slot v (gTerm d) c.n) :
    nodeCommand l x w ev s = writesRegEcc s l x c k d v := by
  subst hu
  rw [nodeCommand_eff h he (.inl (by simp))]
  simp only [Lane.perform, writeReg_encode, Lane.nextEntry, writesRegEcc, writesReg, withSeat]
  cases l <;> rfl

/-- An operand that keeps the rules of R80 raises none of their faults and does not wait (R106). -/
theorem operandOk_pass {c : Eval} {m : BitVec 2} {j : Nat} (h : c.operandOk m j) (k : ResE) :
    bankKindBad c m j = false ∧ withNode c m j false k = k := by
  obtain ⟨h1, h2, h3, h4⟩ := h
  have ho : outOfRange c m j = false := by
    simp only [outOfRange, Bool.or_eq_false_iff, decide_eq_false_iff_not, Nat.not_le, Bool.and_eq_false_imp, beq_iff_eq]
    exact ⟨h1, fun e => (h2 e).1⟩
  refine ⟨?_, ?_⟩
  · simp only [bankKindBad, Bool.or_eq_false_iff]
    constructor
    · by_cases e : m = 2
      · rcases h3 e with h | h <;> simp [h]
      · simp only [show (m == 2) = false by simpa using e, Bool.false_and]
    · by_cases e : m = 1
      · simp [e]
      · by_cases e' : j = c.i
        · simp [h4 e e']
        · simp [e']
  · unfold withNode
    by_cases e : m = 1
    · simp [ho, failIf, (h2 e).2]
    · simp only [ho, failIf, show (m == 1) = false by simpa using e, Bool.false_and, Bool.false_eq_true, if_false]

/-- A node that reads as a value decodes to it (R52). -/
theorem nodeReads_value {c : Eval} {m : BitVec 2} {j k : Nat} {v : Half} (h : c.nodeReads m j v k) :
    nodeValue c m j = some v := by
  obtain ⟨h1, h2⟩ := h
  unfold nodeValue
  simp only
  rcases h2 with h2 | h2 <;> simp [h2.1, h1]

/-- Reading it counts its corrected errors (R60). -/
theorem nodeReads_ecc {c : Eval} {m : BitVec 2} {j k : Nat} {v : Half} (h : c.nodeReads m j v k) (r : ResE) :
    withEcc c m j r = { r with corr := r.corr + k } := by
  obtain ⟨-, h2 | h2⟩ := h <;> simp [withEcc, h2.1, h2.2]

/-- What survives work beside the state store's banks: the banks, the record of the last node fault, and a drop that has
been noted (R36, R44, R101). -/
structure FaultKept (l m : Lane) : Prop where
  phys : m.store.phys = l.store.phys
  code : m.codes.nfCode = l.codes.nfCode
  seat : m.codes.nfSeat = l.codes.nfSeat
  index : m.codes.nfIdx = l.codes.nfIdx
  offset : m.codes.nfOff = l.codes.nfOff
  count : m.codes.nfCnt = l.codes.nfCnt
  drop : ∀ d, l.cyc.drop = some d → m.cyc.drop = some d

theorem FaultKept.refl (l : Lane) : FaultKept l l := ⟨rfl, rfl, rfl, rfl, rfl, rfl, fun _ h => h⟩

theorem FaultKept.trans {l m k : Lane} (h : FaultKept l m) (h' : FaultKept m k) : FaultKept l k :=
  ⟨h'.phys.trans h.phys, h'.code.trans h.code, h'.seat.trans h.seat, h'.index.trans h.index, h'.offset.trans h.offset,
    h'.count.trans h.count, fun d e => h'.drop d (h.drop d e)⟩

/-- A drop keeps the record of the node fault and an earlier drop (R36, R44). -/
theorem dropCycle_kept (l : Lane) (c p : BitVec 4) : FaultKept l (l.dropCycle c p) := by
  unfold Lane.dropCycle; split
  · split
    · exact .refl l
    · rename_i h; exact ⟨rfl, rfl, rfl, rfl, rfl, rfl, fun d e => by rw [h] at e; cases e⟩
  · exact .refl l

theorem codeFail_kept (l : Lane) (s : BitVec 4) (j : Nat) : FaultKept l (l.codeFail s j) :=
  FaultKept.trans (m := Lane.mark { l with codes := { l.codes with
    cuFail := l.codes.cuFail + 1, site := s, siteIdx := j % 2 ^ 20 } } 0)
    ⟨rfl, rfl, rfl, rfl, rfl, rfl, fun _ h => h⟩ (dropCycle_kept _ _ _)

theorem putOut_kept (l : Lane) (st : Bool) (k : Nat) (w : Coded) : FaultKept l (l.putOut st k w) := by
  unfold Lane.putOut; split <;> exact ⟨rfl, rfl, rfl, rfl, rfl, rfl, fun _ h => h⟩

theorem outFail_kept (l : Lane) (st : Bool) (k i : Nat) : FaultKept l (l.outFail st k i) := by
  unfold Lane.outFail; split
  · exact .refl l
  · exact FaultKept.trans (m := l.noteEcc 0 (l.outBadAt st k).toNat)
      ⟨rfl, rfl, rfl, rfl, rfl, rfl, fun _ h => h⟩ (codeFail_kept _ _ _)

/-- The window rewrite leaves the banks and the record of the node fault (R93). -/
theorem rewriteWindow_kept (l : Lane) (st : Bool) (img : Image) (i : Nat) (e : NodeEntry) (n : Cycle) :
    FaultKept l (l.rewriteWindow st img i e n) := by
  unfold Lane.rewriteWindow
  split
  · exact .refl l
  · rename_i w hw
    generalize windowHalves w = ks
    induction ks generalizing l with
    | nil => exact .refl l
    | cons k ks ih =>
      rw [List.foldl_cons]
      refine FaultKept.trans ?_ (ih _)
      dsimp only
      split
      · exact outFail_kept _ _ _ _
      · exact putOut_kept _ _ _ _

/-- A seat that takes its next node, or none, leaves them too (R73, R93, R104). -/
theorem startNode_kept (l : Lane) (x : SeatId) (img : Image) (node : Option Nat) :
    FaultKept l (l.startNode x img node) := by
  have h : FaultKept l (l.setSeat x ((l.seat x).atNode node)) := ⟨rfl, rfl, rfl, rfl, rfl, rfl, fun _ h => h⟩
  unfold Lane.startNode
  simp only
  split
  · exact h
  · split
    · exact h
    · split
      · exact h.trans (rewriteWindow_kept _ _ _ _ _ _)
      · exact h

theorem advanceSeat_kept (l : Lane) (x : SeatId) (img : Image) (i : Nat) : FaultKept l (l.advanceSeat x img i) := by
  unfold Lane.advanceSeat; split <;> exact startNode_kept _ _ _ _

/-- A checked entry whose instruction comes to a node fault, in an active seat (R100, R101). -/
theorem nodeCommand_fault {s : State} {l : LaneId} {x : SeatId} {c : Eval} {w : Word} (h : RunsEntry s l x c w)
    (hs : c.settle = false) {ev : Eval → ResE} {code site kind : BitVec 4} {a b : Nat}
    (he : ev c = { res := .fault code site kind, corr := a, uncorr := b }) :
    nodeCommand l x w ev s =
      s.begin.setLane l (((s.lane l).noteEcc a b).raise x c (opcodeOf w) code site kind) := by
  unfold nodeCommand
  rw [h.eval]
  simp [State.modLane, Lane.runNode, h.entry, h.noneWrong, h.fetch, he, settleWaits, hs]

/-- The records of a CVU fault and of a seat's code check fault touch no other record (R68, R130). -/
theorem noteCvu_frame (l : Lane) (x : SeatId) (k : BitVec 4) :
    ∃ a b c, l.noteCvu x k = { l with codes := { l.codes with cfKind := a, cfSeat := b, cfCnt := c } } := by
  unfold Lane.noteCvu; split
  · exact ⟨l.codes.cfKind, l.codes.cfSeat, l.codes.cfCnt, rfl⟩
  · exact ⟨_, _, _, rfl⟩

theorem noteSeatCode_frame (l : Lane) (k : BitVec 4) (j : Nat) :
    ∃ a b c, l.noteSeatCode k j = { l with codes := { l.codes with seatFail := a, site := b, siteIdx := c } } := by
  unfold Lane.noteSeatCode; split
  · exact ⟨l.codes.seatFail, l.codes.site, l.codes.siteIdx, rfl⟩
  · exact ⟨_, _, _, rfl⟩

/-- A drop changes STS_FAULT alone among the records (R44). -/
theorem dropCycle_codes (l : Lane) (c p : BitVec 4) :
    ∃ a, (l.dropCycle c p).codes = { l.codes with stsFault := a } := by
  unfold Lane.dropCycle; split
  · split
    · exact ⟨l.codes.stsFault, rfl⟩
    · exact ⟨l.codes.stsFault ||| (1#8 <<< 5), rfl⟩
  · exact ⟨l.codes.stsFault, rfl⟩

/-- What a node fault records in a lane whose cycle runs (R100, R101). -/
theorem nodeFault_facts (l : Lane) (x : SeatId) (i off : Nat) (op : BitVec 6) (p5 : Bool) (code site kind : BitVec 4)
    (h : l.cyc.running = true) :
    let m := l.nodeFault x i off op p5 code site kind
    m.codes.nfCode = code ∧ m.codes.nfSeat = x.val ∧ m.codes.nfIdx = i ∧ m.codes.nfOff = off ∧
      m.codes.nfCnt = l.codes.nfCnt + 1 ∧
      m.cyc.drop = some (l.cyc.drop.getD { cause := 3, phase := phaseOf p5 }) ∧ m.store = l.store := by
  intro m
  simp only [m]
  unfold Lane.nodeFault
  obtain ⟨a, b, c, e1⟩ := noteCvu_frame l x kind
  rw [e1]
  obtain ⟨a', b', c', e2⟩ := noteSeatCode_frame { l with codes := { l.codes with cfKind := a, cfSeat := b, cfCnt := c } } site i
  rw [e2]
  simp only
  obtain ⟨q, hq⟩ := dropCycle_codes (Lane.mark { l with codes := { l.codes with
    cfKind := a, cfSeat := b, cfCnt := c, seatFail := a', site := b', siteIdx := c', nfCode := code, nfSeat := x.val,
    nfPhase := phaseOf p5, nfIdx := i, nfOp := op, nfCyc := l.cyc.num.setWidth 10, nfOff := off, nfHeld := true,
    nfCnt := l.codes.nfCnt + 1 } } 0) 3 (phaseOf p5)
  refine ⟨by rw [hq]; rfl, by rw [hq]; rfl, by rw [hq]; rfl, by rw [hq]; rfl, by rw [hq]; rfl, ?_, ?_⟩
  · rw [Lane.dropCycle_drop _ _ _ (by exact h)]; rfl
  · rw [Lane.dropCycle_store]; rfl

/-- What a node fault leaves (R100, R101). -/
theorem nodeCommand_faulted {s : State} {l : LaneId} {x : SeatId} {c : Eval} {w : Word} (h : RunsEntry s l x c w)
    (hs : c.settle = false) {ev : Eval → ResE} {code site kind : BitVec 4} {a b : Nat}
    (he : ev c = { res := .fault code site kind, corr := a, uncorr := b }) :
    NodeFaulted s (nodeCommand l x w ev s) l x c code := by
  obtain ⟨-, -, -, -, -, -, hrun, -⟩ := evalOf_facts h.eval
  rw [nodeCommand_fault h hs he]
  unfold Lane.raise
  simp only [hs, Bool.false_eq_true, if_false]
  have hf := nodeFault_facts ((s.lane l).noteEcc a b) x c.i c.seat.off (opcodeOf w) c.p5 code site kind (by exact hrun)
  simp only at hf
  generalize ((s.lane l).noteEcc a b).nodeFault x c.i c.seat.off (opcodeOf w) c.p5 code site kind = m at hf ⊢
  obtain ⟨h1, h2, h3, h4, h5, h6, h7⟩ := hf
  have k := advanceSeat_kept { m with rot := { m.rot with actFaults := m.rot.actFaults ++ [(c.i, code)] } } x c.img c.i
  refine ⟨fun y hy => by simp [State.setLane_lane, hy], ?_, ?_, ?_, ?_, ?_, ?_, ?_⟩ <;> rw [State.setLane_lane_same]
  · exact k.code.trans h1
  · exact k.seat.trans h2
  · exact k.index.trans h3
  · exact k.offset.trans h4
  · exact k.count.trans h5
  · exact k.drop _ h6
  · exact k.phys.trans (by rw [h7]; rfl)

/-- The Boolean arithmetic of R82 on Boolean operands. -/
theorem bAnd_flag (p q : Bool) : bAnd (flag p) (flag q) = flag (p && q) := by cases p <;> cases q <;> decide
theorem bOr_flag (p q : Bool) : bOr (flag p) (flag q) = flag (p || q) := by cases p <;> cases q <;> decide
theorem bXor_flag (p q : Bool) : bXor (flag p) (flag q) = flag (p != q) := by cases p <;> cases q <;> decide
theorem bAndn_flag (p q : Bool) : bAndn (flag p) (flag q) = flag (p && !q) := by cases p <;> cases q <;> decide
theorem bSel_flag (r : Bool) (v w : Half) : bSel (flag r) v w = if r then v else w := by
  cases r <;> simp [bSel, flag]
theorem isBool_flag (p : Bool) : isBool (flag p) = true := by cases p <;> decide

end Sys2Proof.Machine
end

