-- ==== Sys2Proof/Laws/Sends.lean ====
section
/-!
SUPPORT. Sending changes nothing but what was sent, the tunnels, the free values drawn and the ring numbers: one lemma for
each operation that sends.
-/
namespace Sys2Proof.Machine

theorem State.ext_lanes {s t : State} (h : t = { s with la := t.la, lb := t.lb, lc := t.lc }) (hl : ∀ x, t.lane x = s.lane x) :
    t = s := by
  have a : t.la = s.la := hl .a
  have b : t.lb = s.lb := hl .b
  have c : t.lc = s.lc := hl .c
  rw [h, a, b, c]

namespace OnlySends

theorem refl (u : State) : OnlySends u u :=
  { sent := ⟨[], by simp⟩, rest := rfl, lanes := fun _ => rfl }

theorem trans {s t u : State} (h : OnlySends s t) (k : OnlySends t u) : OnlySends s u where
  sent := by
    obtain ⟨a, ha⟩ := h.sent
    obtain ⟨b, hb⟩ := k.sent
    exact ⟨a ++ b, by rw [hb, ha, List.append_assoc]⟩
  rest := by rw [k.rest, h.rest]
  lanes x := by rw [k.lanes x, h.lanes x]

theorem emit (s : State) (o : Out) : OnlySends s (s.emit o) :=
  { sent := ⟨[o], rfl⟩, rest := rfl, lanes := fun x => by simp }

theorem fresh (s : State) (w : Nat) : OnlySends s (s.fresh w).2 :=
  { sent := ⟨[], by simp [State.fresh]⟩, rest := rfl, lanes := fun x => by cases x <;> rfl }

theorem tunnels (s : State) (ts : List Tunnel) : OnlySends s { s with tunnels := ts } :=
  { sent := ⟨[], by simp⟩, rest := rfl, lanes := fun x => by cases x <;> rfl }

theorem putTunnel (s : State) (t : Tunnel) : OnlySends s (s.putTunnel t) := tunnels s _

theorem dropTunnel (s : State) (t : Tunnel) : OnlySends s (s.dropTunnel t) := tunnels s _

theorem putRingSeq (s : State) (q : Word) : OnlySends s (s.putRingSeq q) where
  sent := ⟨[], by simp [State.putRingSeq]⟩
  rest := rfl
  lanes x := by
    simp only [State.putRingSeq, State.mapLanes_lane]
    split <;> rfl

theorem foldl {α : Type} {f : State → α → State} (h : ∀ s a, OnlySends s (f s a)) (as : List α) (s : State) :
    OnlySends s (as.foldl f s) := by
  induction as generalizing s with
  | nil => exact refl s
  | cons a as ih => exact (h s a).trans (ih _)

theorem ringCast (s : State) (own cls dst : Byte) (len : Nat) (b : RingBody) : OnlySends s (s.ringCast own cls dst len b) := by
  unfold State.ringCast
  refine (putRingSeq s (s.ringSeq + 1)).trans ?_
  dsimp only
  split <;> split
  all_goals first
    | exact refl _
    | exact emit _ _
    | exact (emit _ _).trans (emit _ _)

theorem tunnelFrame (s : State) (t : Tunnel) (opn cls : Bool) (off : Word) (data : List Byte) :
    OnlySends s (s.tunnelFrame t opn cls off data) := by
  unfold State.tunnelFrame
  split
  · exact refl s
  · exact ringCast ..

theorem tunnelRun (s : State) (t : Tunnel) (opn : Bool) (off : Word) (data : List Byte) :
    OnlySends s (s.tunnelRun t opn off data) := foldl (fun _ _ => tunnelFrame ..) _ _

theorem tunnelPush (s : State) (t : Tunnel) (opn : Bool) : OnlySends s (s.tunnelPush t opn) :=
  (putTunnel s _).trans (tunnelRun ..)

theorem tunnelWrite (s : State) (conn keyGen : Nat) (msg : List Byte) : OnlySends s (s.tunnelWrite conn keyGen msg) := by
  unfold State.tunnelWrite
  split
  · exact refl s
  · exact tunnelPush ..

theorem tunnelClose (s : State) (t : Tunnel) : OnlySends s (s.tunnelClose t) := (dropTunnel s t).trans (tunnelFrame ..)

theorem sessionWrite (s : State) (id : Nat) (msg : List Byte) : OnlySends s (s.sessionWrite id msg) := by
  unfold State.sessionWrite
  split
  · exact refl s
  · split
    · exact refl s
    · exact tunnelWrite ..

theorem reply (s : State) (sess : Nat) (req : Word) (obj status : Byte) (body : List Byte) :
    OnlySends s (s.reply sess req obj status body) := (emit s _).trans (sessionWrite ..)

theorem respond (s : State) (k : Session) (req : Word) (obj status : Byte) (body : List Byte) :
    OnlySends s (s.respond k req obj status body) := by
  unfold State.respond
  split
  · exact reply ..
  · exact refl s

theorem answerWith (s : State) (x : LaneId) (k : Session) (req : Word) (obj status : Byte) (body : List Byte) :
    OnlySends s (s.answerWith x k req obj status body) := by
  unfold State.answerWith
  split
  · exact reply ..
  · exact refl s

theorem answer (s : State) (x : LaneId) (sess : Nat) (req : Word) (obj : Byte) (v : Verdict) :
    OnlySends s (s.answer x sess req obj v) := by
  unfold State.answer
  split
  · exact refl s
  · split
    · exact reply ..
    · exact refl s

theorem notify (s : State) (l : LaneId) (evt : Nat) : OnlySends s (s.notify l evt) := by
  unfold State.notify
  dsimp only
  split
  · exact refl s
  · exact (fresh s 64).trans (foldl (fun _ _ => (emit _ _).trans (sessionWrite ..)) _ _)

theorem xsend (s : State) (l m : LaneId) (msg : XMsg) : OnlySends s (s.xsend l m msg) := by
  unfold State.xsend
  split
  · exact refl s
  · exact emit ..

theorem xcast (s : State) (l : LaneId) (msg : XMsg) : OnlySends s (s.xcast l msg) := (xsend ..).trans (xsend ..)

theorem mem {u t : State} (h : OnlySends u t) {o : Out} (ho : o ∈ u.out) : o ∈ t.out := by
  obtain ⟨os, e⟩ := h.sent
  rw [e]
  exact List.mem_append_left _ ho

/-- A change of one lane that leaves the ring alone goes with what was sent. -/
theorem modLane {u t : State} (h : OnlySends u t) (x : LaneId) {f : Lane → Lane}
    (hf : ∀ (m : Lane) q, f { m with ring := { m.ring with seq := q } } =
      { f m with ring := { (f m).ring with seq := (f { m with ring := { m.ring with seq := q } }).ring.seq } }) :
    OnlySends (u.modLane x f) (t.modLane x f) where
  sent := by simpa using h.sent
  rest := by
    rw [h.rest]
    cases x <;> rfl
  lanes y := by
    by_cases e : y = x
    · subst e
      simp only [State.modLane_lane_same]
      rw [h.lanes y]
      exact hf _ _
    · rw [State.modLane_lane_other _ _ e, State.modLane_lane_other _ _ e]
      exact h.lanes y

end OnlySends

/-- A reply is sent. -/
theorem State.reply_mem (s : State) (sess : Nat) (req : Word) (obj status : Byte) (body : List Byte) :
    .shp sess req obj status body ∈ (s.reply sess req obj status body).out :=
  (OnlySends.sessionWrite _ _ _).mem (by simp)

@[simp] theorem LaneSet.inter_has (u v : LaneSet) (x : LaneId) : (u.inter v).has x = (u.has x && v.has x) := by cases x <;> rfl

@[simp] theorem LaneSet.those_has (f : LaneId → Bool) (x : LaneId) : (LaneSet.those f).has x = f x := by cases x <;> rfl

theorem obeying_has (s : State) (k : Session) (lanes : LaneSet) (x : LaneId) :
    (obeying s k lanes).has x = (lanes.has x && s.obeys k x) := by simp [obeying]

/-- Lanes of a set change one after the other. -/
theorem State.modLanes_eq (s : State) (v : LaneSet) (g : LaneId → Lane → Lane) :
    s.modLanes v g =
      (let a := if v.has .a then s.modLane .a (g .a) else s
       let b := if v.has .b then a.modLane .b (g .b) else a
       if v.has .c then b.modLane .c (g .c) else b) := by
  obtain ⟨a, b, c⟩ := v
  cases a <;> cases b <;> cases c <;> rfl

/-- A command that changes, in each lane that acts on it, that lane alone changes exactly those lanes. -/
theorem State.inLanes_modLanes {s : State} {k : Session} {lanes : LaneSet} {f : State → LaneId → State}
    {g : LaneId → Lane → Lane}
    (h : ∀ t x, (obeying s k lanes).has x = true → t.lane x = s.lane x → f t x = t.modLane x (g x)) :
    s.inLanes k lanes f = s.modLanes (obeying s k lanes) g := by
  have step : ∀ t x, t.lane x = s.lane x → (if lanes.has x && t.obeys k x then f t x else t) =
      if (obeying s k lanes).has x then t.modLane x (g x) else t := by
    intro t x e
    have o : t.obeys k x = s.obeys k x := by simp [State.obeys, e]
    rw [obeying_has, o]
    by_cases c : (lanes.has x && s.obeys k x) = true
    · rw [if_pos c, if_pos c, h t x (by rw [obeying_has]; exact c) e]
    · rw [if_neg c, if_neg c]
  simp only [State.inLanes, laneList, List.foldl_cons, List.foldl_nil]
  rw [step s .a rfl, step _ .b (by split <;> rfl), step _ .c (by split <;> split <;> rfl)]
  rw [State.modLanes_eq]

/-- The same where each lane may also send. -/
theorem OnlySends.inLanes {s : State} {k : Session} {lanes : LaneSet} {f : State → LaneId → State} {g : LaneId → Lane → Lane}
    (hg : ∀ x (m : Lane) q, g x { m with ring := { m.ring with seq := q } } =
      { g x m with ring := { (g x m).ring with seq := (g x { m with ring := { m.ring with seq := q } }).ring.seq } })
    (h : ∀ t x, (obeying s k lanes).has x = true →
      t.lane x = { s.lane x with ring := { (s.lane x).ring with seq := (t.lane x).ring.seq } } →
      OnlySends (t.modLane x (g x)) (f t x)) :
    OnlySends (s.modLanes (obeying s k lanes) g) (s.inLanes k lanes f) := by
  have step : ∀ u t x, OnlySends u t → u.lane x = s.lane x →
      OnlySends (if (obeying s k lanes).has x then u.modLane x (g x) else u)
        (if lanes.has x && t.obeys k x then f t x else t) := by
    intro u t x ut e
    have lx := ut.lanes x
    rw [e] at lx
    have o : t.obeys k x = s.obeys k x := by
      simp only [State.obeys]
      rw [lx]
      rfl
    rw [obeying_has, o]
    by_cases c : (lanes.has x && s.obeys k x) = true
    · rw [if_pos c, if_pos c]
      exact (ut.modLane x (hg x)).trans (h t x (by rw [obeying_has]; exact c) lx)
    · rw [if_neg c, if_neg c]
      exact ut
  have r := step _ _ .c (step _ _ .b (step s s .a (.refl s) rfl) (by split <;> rfl)) (by split <;> split <;> rfl)
  rw [State.modLanes_eq]
  exact r

end Sys2Proof.Machine
end

