-- ==== Sys2Proof/Tests/Slice0.lean ====
section
/-!
SUPPORT. Tests on fixed values: ill-formed commands, words written out from the encoding of R78 and R79, and for every
statement about the module states and operands that meet its hypotheses, clause by clause.
-/
namespace Sys2Proof.Tests
set_option Elab.async false
open Machine

/-! ## Small images, lanes and states -/

/-- Directory entry `i` of a test image, with its check. -/
def tEntry (i : Nat) (kind : Byte) (plen aux rval : Half) : NodeEntry :=
  let e : NodeEntry := { tag := BitVec.ofNat 32 (100 + i), rval := rval, khc := kind, pstart := 0, plen := plen,
                         aux := aux, crc := 0 }
  { e with crc := entryCrc e.body i }

/-- Program store of a test image. -/
def tProgs (ws : List Word) : List Coded := ws.zipIdx.map fun p => p.1 ++ entryCrc (toLe 4 p.1.toNat) p.2

/-- Header of a test image: 3 nodes, 4 timers, cycle 50 ms. -/
def tHdr : ImgHeader :=
  { slot1 := 7, slot2 := 9, hwIssues := 0, fwMin := 0, gen := 3, tCycle := 500, tFreeze := 100, nodes := 3, cMax := 100,
    timers := 4, progs := 2, readers := 0, succs := 0, stations := 1, channels := 0, policies := 0,
    authKeyId := List.replicate 32 0, imgLen := 0 }

/-- A network of a test image. -/
def tNet : NetRec := { modIp := 0x0A000001, pfx := 24, pcp := 0, vid := 5, mcast := 0, stPort := 4000, cmdPort := 4001 }

/-- The station of a test image: 4 bytes of status, 4 of command. -/
def tStation : StationRec :=
  { stnId := 0x77, ipA := 0x0A000002, ipB := 0x0A000003, udp := 4000, stLen := 4, cmdLen := 4, stFmt := 0, cmdFmt := 0,
    maxAge := 10, firstCh := 0, chCount := 0, keyGen := 1, crc := 0 }

/-- A test image: nodes 0 and 1 of kind 0, node 2 of the kind given, with the program given. -/
def tImg (kind : Byte) (aux : Half) (prog : List Word) : Image :=
  { slot := 7, hdr := tHdr,
    nodes := [tEntry 0 0 0 0 0, tEntry 1 0 0 0 0, tEntry 2 kind (BitVec.ofNat 16 prog.length) aux 1]
    progs := tProgs prog, readers := [], succs := [], netA := tNet, netB := tNet, netCrc := 0, stations := [tStation],
    channels := [], restr := [], localIn := [], localGrp := [],
    nbs := [{ q := 0, nbSlot := 20, maxAge := 5, used := 1, inCount := 4, outCount := 4, nbArea := 2, keyGen := 1,
              firstOut := 0, crc := 0 }]
    outs := []
    params := { areaId := 2, prefSlot := 7, standby := 0, etherType := 0x88B5, tUntested := 1, minLanes := 2, crc := 0 }
    policy := [], pexp := 0, pexpCrc := 0, sections := [] }

/-- Register `r` full with the value `v` in slot 0 and cycle 5. -/
def tReg (r : BitVec 4) (v : Half) : Reg := { word := encode 0 v (gTerm r) 5, full := true }

/-- The word of value `v` of node `j` in a bank of number `n`. -/
def tWord (j : Nat) (v : Half) (n : Cycle) : MemWord :=
  { word := encode 0 v (sigNode (BitVec.ofNat 32 (100 + j))) n, ecc := .ok }

/-- Seat 0 at the first entry of node 2, with W1 = `v`, W2 = `w`, W3 = 1. -/
def tSeat (v w : Half) : SeatState :=
  { SeatState.init with
    code := 1
    hand := some 0
    node := some 2
    regs := ((SeatState.init.regs.set 1 (tReg 1 v)).set 2 (tReg 2 w)).set 3 (tReg 3 1) }

/-- Lane A in cycle 5 with image `img`, seat 0 as given, node 0 at 1 in bank C and at 0 in banks S and P. -/
def tLane (img : Image) (x : SeatState) : Lane :=
  { Lane.init with
    boot := { Boot.init with inReset := false, alive := true, stage := 7, img := some img, areaId := 2, keySlot := 7 }
    mode := { ModeState.init with armed := true, mode := 1, takes := 0 }
    cyc := { CycState.init with num := 5, running := true, phase := 1 }
    store := { Store.init with
      phys := #v[[(0, tWord 0 1 4)], [(0, tWord 0 0 5)], [(0, tWord 0 0 3)]]
      bcnCur := 4, bcnPrev := 3, bitmap := [(0, true)] }
    seats := Lane.init.seats.set 0 x
    ptn := { Ptn.init with role := 0 }
    vote := { Vote.init with service := allLanes, codes := PerLane.const 1 }
    tx := [(.j4, .a), (.j5, .c), (.j6, .a), (.j7, .c), (.j8, .a), (.j9, .a), (.j10, .a)] }

/-- The module with lane A as given, lanes B and C of the same kind, links and ports up. -/
def tState (l : Lane) : State :=
  { State.reset with
    la := l
    lb := { l with boot := { l.boot with straps := 1 } }
    lc := { l with boot := { l.boot with straps := 2 } }
    links := 7
    ports := 127 }

/-- The module whose seat 0 of lane A runs `prog` in a node 2 of a kind, W1 = `v` and W2 = `w`. -/
def tRun (kind : Byte) (aux : Half) (prog : List Word) (v w : Half) : State :=
  tState (tLane (tImg kind aux (prog ++ [0xFC000000])) (tSeat v w))

/-! ## What a node instruction needs -/

/-- A register holds the word of a value. -/
def tHolds (c : Eval) (r : BitVec 4) (v : Half) : Bool :=
  c.seat.regs[r.toNat] == { word := encode c.slot v (gTerm r) c.n, full := true }

theorem tHolds_spec {c : Eval} {r : BitVec 4} {v : Half} (h : tHolds c r v = true) : c.holds r v := by
  simpa [tHolds, Eval.holds] using h

/-- The command is well formed and its entry runs in seat 0 of lane A, in an evaluation for which `p` holds. -/
def tRuns (s : State) (i : Instr) (p : Eval → Bool) : Bool :=
  match encodeWord i, evalOf s.la 0 with
  | some (.a, 0, w), some c =>
    i.wf && c.seat.off + 1 != c.ent.plen.toNat && nodeSound c.img c.i c.ent && windowSound c.img c.ent && fetchOk c w && p c
  | _, _ => false

/-- What `tRuns` says in the terms of the statements. -/
theorem tRuns_spec {s : State} {i : Instr} {p : Eval → Bool} (h : tRuns s i p = true) :
    ∃ c w, encodeWord i = some (.a, 0, w) ∧ i.wf = true ∧ RunsEntry s .a 0 c w ∧ c.notLast ∧ p c = true := by
  unfold tRuns at h
  split at h
  · rename_i w c he hc
    simp only [Bool.and_eq_true, bne_iff_ne] at h
    obtain ⟨⟨⟨⟨⟨h1, h2⟩, h3⟩, h4⟩, h5⟩, h6⟩ := h
    exact ⟨c, w, he, h1, ⟨hc, h3, h4, h5⟩, h2, h6⟩
  · cases h

/-- The word of a node command. -/
def tWordOf (i : Instr) : Word := ((encodeWord i).map (·.2.2)).getD 0

/-- The command runs as the first entry of a node 2 of a kind. -/
def tFirst (kind : Byte) (aux v w : Half) (i : Instr) (p : Eval → Bool) : Bool := tRuns (tRun kind aux [tWordOf i] v w) i p

/-- Format G of a test. -/
def tG (wd wa wb wc : BitVec 4) (fn : BitVec 2) : FmtG := { wd := wd, wa := wa, wb := wb, wc := wc, z := 0, fn := fn }

/-! ## Decoding -/

theorem test_stn : decodeWord .a 0 0x8000019A = some (.stn .a 0 { ck := 0, z := 0, index := 410 }) := by decide
theorem test_unpk : decodeWord .b 3 0x845E0030 = some (.unpk .b 3 { w := 1, e := 0, wid := 15, z := 0, off := 48 }) := by decide
theorem test_cmpi : decodeWord .a 0 0x6C870001 = some (.cmpi .a 0 { wd := 2, wa := 1, fn := 3, imm := 1 }) := by decide
theorem test_st : decodeWord .a 0 0x08903F20 = some (.st .a 0 { w := 2, m := 1, idx := 0x03F20 }) := by decide
theorem test_fin : decodeWord .c 8 0xFC000000 = some (.fin .c 8 { z := 0 }) := by decide
theorem test_br : decodeWord .a 0 0xC0000003 = some (.br .a 0 { wa := 0, z := 0, off := 3 }) := by decide
theorem test_ccmp : decodeWord .a 0 (0b101110_0001_0010_0000_0000_00000000_01#32) =
    some (.ccmp .a 0 (tG 1 2 0 0 1)) := by decide
theorem test_sel : decodeWord .a 0 (0b010110_0001_0010_0011_0100_00000000_00#32) =
    some (.sel .a 0 (tG 1 2 3 4 0)) := by decide
theorem test_table_word : decodeTableWord 32 0xFC000000 = none := rfl

/-! ## Well-formedness -/

theorem test_wf_reserved : (Instr.mov .a 0 { wd := 1, wa := 2, wb := 0, wc := 0, z := 1, fn := 0 }).wf = false ∧
    (Instr.fin .a 0 { z := 1 }).wf = false ∧ (Instr.br .a 0 { wa := 0, z := 1, off := 1 }).wf = false ∧
    (Instr.stn .a 0 { ck := 0, z := 1, index := 0 }).wf = false ∧
    (Instr.unpk .a 0 { w := 1, e := 0, wid := 0, z := 1, off := 0 }).wf = false := by decide
theorem test_wf_unused : (Instr.mov .a 0 (tG 1 2 3 0 0)).wf = false ∧ (Instr.ldi .a 0 { wd := 1, wa := 1, fn := 0, imm := 0 }).wf = false ∧
    (Instr.tstop .a 0 { w := 1, m := 0, idx := 0 }).wf = false ∧ (Instr.caddi .a 0 { wd := 1, wa := 1, fn := 1, imm := 0 }).wf = false := by
  decide
theorem test_wf_modes : (Instr.ld .a 0 { w := 1, m := 3, idx := 0 }).wf = false ∧ (Instr.st .a 0 { w := 1, m := 0, idx := 0 }).wf = false ∧
    (Instr.tstart .a 0 { w := 1, m := 2, idx := 0 }).wf = false ∧ (Instr.ccmp .a 0 (tG 1 2 0 0 2)).wf = false := by decide
theorem test_wf_seatFault : (Instr.seatFault .a 0 1).wf = false ∧ (Instr.seatFault .a 0 6).wf = false ∧
    (Instr.deadlineMiss .a 9).wf = false := by decide
theorem test_wf_requests : (Instr.regRead 0 0 { lanes := noLanes, voted := true, z := 1 } 0 1).wf = false ∧
    (Instr.regRead 0 0 { lanes := noLanes, voted := true, z := 0 } 0 65).wf = false ∧
    (Instr.regWrite 0 0 { lanes := noLanes, voted := true, z := 0 } 0 1).wf = false ∧
    (Instr.recRead 0 0 { lanes := noLanes, voted := false, z := 0 } 0 17 []).wf = false ∧
    (Instr.imgRead 0 0 0 0 4097).wf = false ∧ (Instr.critPrepare 0 0 noLanes 1 0 0 (List.replicate 65 0)).wf = false := by
  decide
theorem test_wf_lengths : (Instr.hostConnect false 1 [] preambleTag []).wf = false ∧ (Instr.inputSample { volts := [], mv := [], high := [] }).wf = false ∧
    (Instr.heartbeatRx .a none true 0 []).wf = false ∧ (Instr.healthRx .a true []).wf = false ∧
    (Instr.anchor 0 0 { seq := 0, certs := [], sig := [] }).wf = false ∧
    (Instr.wsReg 0 0 { wsId := 0, action := 3, seq := 0, eph := [], wrap := [], sig := [] }).wf = false := by decide

/-! ## Node programs -/

/-- RegisterResults: every instruction runs on operands at the ends of its range. -/
theorem witness_RegisterResults :
    tFirst 0 0 1 0 (.mov .a 0 (tG 4 1 0 0 0)) (fun c => tHolds c 1 1) ∧
    tFirst 0 0 1 0 (.not .a 0 (tG 4 1 0 0 0)) (fun c => tHolds c 1 (flag true)) ∧
    tFirst 0 0 1 0 (.and .a 0 (tG 4 1 2 0 0)) (fun c => tHolds c 1 (flag true) && tHolds c 2 (flag false)) ∧
    tFirst 0 0 1 0 (.or .a 0 (tG 4 1 2 0 0)) (fun c => tHolds c 1 (flag true) && tHolds c 2 (flag false)) ∧
    tFirst 0 0 1 0 (.xor .a 0 (tG 4 1 2 0 0)) (fun c => tHolds c 1 (flag true) && tHolds c 2 (flag false)) ∧
    tFirst 0 0 1 0 (.andn .a 0 (tG 4 1 2 0 0)) (fun c => tHolds c 1 (flag true) && tHolds c 2 (flag false)) ∧
    tFirst 0 0 9 65535 (.sel .a 0 (tG 4 1 2 3 0)) (fun c => tHolds c 1 9 && tHolds c 2 65535 && tHolds c 3 (flag true)) ∧
    tFirst 0 0 9 65535 (.cmp .a 0 (tG 4 1 2 0 2)) (fun c => tHolds c 1 9 && tHolds c 2 65535) ∧
    tFirst 0 0 9 0 (.cmpi .a 0 { wd := 4, wa := 1, fn := 3, imm := 9 }) (fun c => tHolds c 1 9) ∧
    tFirst 0 0 9 65535 (.cadd .a 0 (tG 4 1 2 0 0)) (fun c => tHolds c 1 9 && tHolds c 2 65535) ∧
    tFirst 0 0 9 65535 (.csub .a 0 (tG 4 1 2 0 0)) (fun c => tHolds c 1 9 && tHolds c 2 65535) ∧
    tFirst 0 0 9 0 (.ldi .a 0 { wd := 4, wa := 0, fn := 0, imm := 65535 }) (fun _ => true) ∧
    tFirst 0 0 9 0 (.caddi .a 0 { wd := 4, wa := 1, fn := 0, imm := 65535 }) (fun c => tHolds c 1 9) ∧
    tFirst 0 0 9 0 (.csubi .a 0 { wd := 4, wa := 1, fn := 0, imm := 10 }) (fun c => tHolds c 1 9) ∧
    tFirst 0 0 255 0 (.mtch .a 0 { wd := 4, wa := 1, fn := 0, imm := 0x00FF }) (fun c => tHolds c 1 255) := by
  decide +kernel

/-- `tRuns` in the module of `tFirst` after a change of its seat and its lane. -/
def tWith (kind : Byte) (aux v w : Half) (g : SeatState → SeatState) (h : Lane → Lane) (i : Instr) (p : Eval → Bool) : Bool :=
  tRuns (tState (h (tLane (tImg kind aux [tWordOf i, 0xFC000000]) (g (tSeat v w))))) i p

/-- A node reads a value in a bank, with no error to correct or with one. -/
def tReads (c : Eval) (m : BitVec 2) (j : Nat) (v : Half) (e : Ecc) : Bool :=
  bankWord c.lane.store m j == { word := encode c.slot v (sigOf c.img j) (bcnOf c.lane.store c.n m), ecc := e }

/-- NodeOperandResults: the operand node 0 in every bank, and the corrected error of bank P in a STATE node. -/
theorem witness_NodeOperandResults :
    (let ok (c : Eval) (m : BitVec 2) : Bool :=
      decide (0 < c.img.hdr.nodes) && (m != 1 || (decide (0 < c.i) && readable c 0)) &&
        (m != 2 || (c.ent.kind == 4 || c.ent.kind == 12))
     tFirst 0 0 1 0 (.ld .a 0 { w := 4, m := 0, idx := 0 }) (fun c => ok c 0 && tReads c 0 0 1 .ok) ∧
     tFirst 0 0 1 0 (.andN .a 0 { w := 1, m := 1, idx := 0 })
       (fun c => ok c 1 && tHolds c 1 (flag true) && tReads c 1 0 (flag false) .ok) ∧
     tWith 12 0 1 0 id (fun l => { l with store := { l.store with
         phys := l.store.phys.set 2 [(0, { tWord 0 0 3 with ecc := .single })] } })
       (.orN .a 0 { w := 1, m := 2, idx := 0 })
       (fun c => ok c 2 && tHolds c 1 (flag true) && tReads c 2 0 (flag false) .single) ∧
     tFirst 0 0 1 0 (.andnN .a 0 { w := 1, m := 0, idx := 0 })
       (fun c => ok c 0 && tHolds c 1 (flag true) && tReads c 0 0 (flag true) .ok) ∧
     tFirst 0 0 1 0 (.subr .a 0 { w := 4, m := 0, idx := 2 }) (fun c => (c.img.nodes[2]?).any fun e => nodeSound c.img 2 e) ∧
     tFirst 4 0 1 0 (.edg .a 0 { w := 4, m := 2, idx := 0 })
       (fun c => ok c 1 && c.ent.kind == 4 && tReads c 1 0 0 .ok && tReads c 0 0 1 .ok)) := by
  decide +kernel

/-- StoreRetires: an active seat and a settling one. -/
theorem witness_StoreRetires :
    let i : Instr := .st .a 0 { w := 1, m := 1, idx := 2 }
    tFirst 0 0 1 0 i (fun c => tHolds c 1 1 && !c.seat.stored && !c.seat.latch && c.i == 2 && !c.settle &&
      decide ((1 : Half).toNat ≤ kindMax c.ent.kind) && (c.lane.forceBad c.i).isNone) ∧
    tWith 0 0 1 0 (fun t => { t with code := 3 }) id i (fun c => tHolds c 1 1 && !c.seat.stored && c.settle &&
      (c.lane.forceBad c.i).isNone) := by
  decide +kernel

/-- TimerResults: the largest count, and timer words that run at 0. -/
theorem witness_TimerResults :
    let own (c : Eval) : Bool := decide (c.ent.kind = 3 ∧ c.ent.aux.toNat = 1 ∧ 1 < c.img.hdr.timers)
    let timer (l : Lane) : Lane := { l with store := { l.store with timers := [(3, encode 0 0x8000 (sigTimer 3) 5)] } }
    let reads (c : Eval) : Bool := Mem.get 0 c.lane.store.timers 3 == encode c.slot 0x8000 (sigTimer 3) c.n &&
      !c.lane.store.poisoned (.timer 3)
    tFirst 3 1 16382 0 (.tstart .a 0 { w := 1, m := 1, idx := 1 }) (fun c => own c && tHolds c 1 16382) ∧
    tFirst 3 1 1 0 (.tstop .a 0 { w := 0, m := 0, idx := 1 }) own ∧
    tWith 0 0 1 0 id timer (.tqry .a 0 { w := 4, m := 0, idx := 3 }) reads ∧
    tWith 0 0 1 0 id timer (.texp .a 0 { w := 4, m := 0, idx := 3 }) reads ∧
    tWith 0 0 1 0 id timer (.trun .a 0 { w := 4, m := 0, idx := 3 }) reads := by
  decide +kernel

/-- FieldResults: each context, the last field of the status buffer, with and without SUBST, and the whole window of a
local output. -/
theorem witness_FieldResults :
    let ctx (k : Ctx) (t : SeatState) : SeatState := { t with ctx := some k }
    let f : FmtF := { w := 1, e := 1, wid := 15, z := 0, off := 16 }
    let key := ctxKey 0 0 1
    let status (b : Bool) (l : Lane) : Lane := { l with store := { l.store with
      inP1 := [(key, encode 0 0x1234 (sigKey inByte key) 5)], subP1 := if b then [(key, true)] else [] } }
    let reads (b : Bool) (c : Eval) : Bool := c.ent.kind == 5 && inHalves c.img 0 0 == 2 && firstHalf f == 1 &&
      lastHalf f == 1 && inWord c key == encode c.slot 0x1234 (sigKey inByte key) c.n && !inBad c key && inSubst c key == b
    let okey := ctxKey 2 0 1
    tFirst 0 0 0 0 (.stn .a 0 { ck := 0, z := 0, index := 0 }) (fun c => decide (0 < c.img.hdr.stations)) ∧
    tFirst 0 0 0 0 (.stn .a 0 { ck := 1, z := 0, index := 0 }) (fun c => c.img.nbs[0]?.any fun r => r.used.getLsbD 0) ∧
    tFirst 0 0 0 0 (.stn .a 0 { ck := 2, z := 0, index := 0 }) (fun _ => true) ∧
    tFirst 0 0 0 0 (.stn .a 0 { ck := 3, z := 0, index := 0 }) (fun _ => true) ∧
    tWith 5 0 0 0 (ctx { ck := 0, index := 0 }) (status false) (.unpk .a 0 f) (reads false) ∧
    tWith 5 0 0 0 (ctx { ck := 0, index := 0 }) (status true) (.unpk .a 0 f) (reads true) ∧
    tWith 8 1 65535 0 (ctx { ck := 2, index := 0 }) (fun l => { l with store := { l.store with
        out := [(okey, encode 0 7 (sigKey outByte okey) 5)] } })
      (.pack .a 0 f)
      (fun c => isOutputKind c.ent.kind && outHalves c.img 2 0 == 32 &&
        inWindow (windowOf c.img c.ent) { ck := 2, index := 0 } f && tHolds c 1 65535 &&
        outWord c okey == encode c.slot 7 (sigKey outByte okey) c.n && !outBad c okey) := by
  decide +kernel

/-- CheckValueResults: each instruction, with the largest byte and the last part. -/
theorem witness_CheckValueResults :
    let unit (p : BitVec 2) (r : Coded) (t : SeatState) : SeatState := { t with cvu := { poly := some p, par := r, ser := r } }
    let on (c : Eval) (p : BitVec 2) (r : Coded) : Bool := c.seat.cvu == { poly := some p, par := r, ser := r }
    tFirst 0 0 0 0 (.csel .a 0 (tG 0 0 0 0 3)) (fun _ => true) ∧
    tWith 0 0 255 0 (unit 0 5) id (.cfb .a 0 (tG 0 1 0 0 0)) (fun c => on c 0 5 && tHolds c 1 255) ∧
    tWith 0 0 65535 0 (unit 2 5) id (.cfh .a 0 (tG 0 1 0 0 0)) (fun c => on c 2 5 && tHolds c 1 65535) ∧
    tWith 0 0 0 9 (unit 1 5) id (.cfw .a 0 (tG 0 2 0 0 0)) (fun c => on c 1 5 && tHolds c 2 9 && tHolds c 3 1) ∧
    tWith 0 0 0 0 (unit 3 5) id (.crd .a 0 (tG 4 0 0 0 3)) (fun c => on c 3 5 && decide (16 * 3 < (polyOf 3).width)) ∧
    tWith 0 0 7 0 (unit 0 5) id (.cwr .a 0 (tG 0 1 0 0 1)) (fun c => on c 0 5 && tHolds c 1 7) ∧
    tWith 0 0 0 4660 (unit 2 4660) id (.ccmp .a 0 (tG 4 2 0 0 1))
      (fun c => on c 2 4660 && tHolds c 2 4660 && partsValue (fun _ => 4660) ((polyOf 2).width / 16) == 4660) := by
  decide +kernel

/-- BranchResults: a branch over one entry to the last one, taken on 0 and on 1. -/
theorem witness_BranchResults :
    let run (i : Instr) (v : Half) : Bool := tRuns (tRun 0 0 [tWordOf i, 0xC0000001] v 0) i fun c =>
      tHolds c 1 v && c.ent.plen == 3 && c.seat.off == 0
    let f (r : BitVec 4) : FmtB := { wa := r, z := 0, off := 2 }
    0 < (f 1).off.toInt ∧ run (.br .a 0 (f 0)) 0 ∧ run (.brz .a 0 (f 1)) 0 ∧ run (.brnz .a 0 (f 1)) 1 := by
  decide +kernel

/-- NodeEndsAndSeatFaults: END after the store as the last entry, and seat faults in an active and in a settling seat. -/
theorem witness_NodeEndsAndSeatFaults :
    let i : Instr := .fin .a 0 { z := 0 }
    let s := tState (tLane (tImg 0 0 [0xFC000000]) { tSeat 0 0 with stored := true })
    let t := tState (tLane (tImg 0 0 [0xFC000000]) { tSeat 0 0 with code := 3 })
    (i.wf ∧ (evalOf s.la 0).any (fun c => nodeSound c.img c.i c.ent && windowSound c.img c.ent && fetchOk c 0xFC000000 &&
      c.seat.stored && !c.settle && c.seat.hand == some 0 && (nextOf s.la c.img 0 c.p5 (c.i + 1)).isNone) = true) ∧
    (s.la.cyc.running ∧ (s.la.seat 0).code = 1) ∧ (t.la.cyc.running ∧ (t.la.seat 0).code = 3 ∧ t.la.rot.mismatch = false) := by
  decide +kernel

/-- ReservedEncodingFaults: MOV with its reserved field set. -/
theorem witness_ReservedEncodingFaults :
    let i : Instr := .mov .a 0 { wd := 1, wa := 1, wb := 0, wc := 0, z := 1, fn := 0 }
    let w := tWordOf i
    encodeWord i = some (.a, 0, w) ∧ opcodeOf w ≠ 0x30 ∧ opcodeOf w ≠ 0x31 ∧ opcodeOf w ≠ 0x32 ∧ i.wf = false ∧
    (evalOf (tRun 0 0 [w] 1 0).la 0).any (fun c => nodeSound c.img c.i c.ent && windowSound c.img c.ent && fetchOk c w && !c.settle) := by
  decide +kernel

/-! ## Registers -/

/-- A condition of every lane. -/
def tAll (p : LaneId → Bool) : Bool := p .a && p .b && p .c

/-- An open session 1 that entered on J9. -/
def tSess : Session :=
  { id := 1, maint := false, comm := false, ownJ10 := false, tunnel := none, chain := [], lanes := allLanes,
    keyGen := PerLane.const 0, own := [], mask := 0, sels := PerLane.const Sels.init, latches := PerLane.const [] }

/-- The armed module of the node tests with session 1 and a change of every lane. -/
def tHost (h : Lane → Lane) : State :=
  { tState (h (tLane (tImg 0 0 [0xFC000000]) (tSeat 0 0))) with sessions := [tSess] }

/-- A selection of lanes. -/
def tSel (lanes : LaneSet) (voted : Bool) : LaneSel := { lanes := lanes, voted := voted, z := 0 }

/-- RegisterWrites: the test port in an armed module and in SAFE-HALT, each selection register, a clearing register and a
read-only one, in lanes that act and in one that does not. -/
theorem witness_RegisterWrites :
    let s := tHost id
    s.session 1 = some tSess ∧ tSess.comm = false ∧ s.respLane tSess = some .a ∧ (tSel allLanes false).z = 0 ∧
    (tSel allLanes false).lanes.count ≠ 0 ∧
    ([0x2824, 0x1020, 0x1910, 0x1C44, 0x2018, 0x2C10, 0x820, 0x000].all fun a => a % 4 == 0 && mapped.contains a) ∧
    tAll (fun x => (s.lane x).acts && tSess.lanes.has x) ∧ s.countsArmed = true ∧
    (tHost fun l => { l with mode := { l.mode with mode := 5 } }).countsArmed = false ∧
    ((tHost fun l => { l with boot := { l.boot with hold := 2 } }).la.acts = false) := by
  decide +kernel

/-- ClearsByWriting: a byte for its last clause. -/
theorem witness_ClearsByWriting :
    let value : Word := 0xFF
    let hold : Word := 0x80
    let r : Byte := 0x7F
    ∀ b, b < 8 → r.getLsbD b = (value.getLsbD b && !hold.getLsbD b) := by
  decide +kernel

/-- RegisterReads: a read of several registers of two lanes, and the four low registers. -/
theorem witness_RegisterReads :
    let s := tHost fun l => { l with sec := { l.sec with loaded := true } }
    let sel := tSel (noLanes.put .b true) false
    s.session 1 = some tSess ∧ s.respLane tSess = some .a ∧ sel.lanes.count ≠ 0 ∧
    (∀ i, i < 4 → mapped.contains (0x810 + 4 * i) = true) ∧ s.readOf 1 7 = none ∧
    tAll (fun x => tSess.lanes.has x && !(s.lane x).boot.inReset && (s.lane x).sec.loaded) = true := by
  decide +kernel

/-- A voted read that waits for lanes B and C. -/
def tRead : VRead :=
  { sess := 1, req := 7, sel := tSel (noLanes.put .c true) true, addr := 0x810, count := 1, m := 6, resp := .a,
    got := noLanes.put .a true, samples := PerLane.const none, counted := none, late := noLanes }

/-- VotedReads: a new voted read, the request at another lane, its samples and its timeout, and entries with and without
two equal samples. -/
theorem witness_VotedReads :
    let s := tHost id
    let t : State := { s with reads := [tRead] }
    let r : VRead := { tRead with
      samples := { a := some [some 5], b := some [some 5], c := none }, counted := some allLanes }
    (s.session 1 = some tSess ∧ s.respLane tSess = some .a ∧ s.readOf 1 7 = none ∧
      mapped.contains 0x810 = true ∧ s.la.samplesAtFreeze .a = true) ∧
    (t.session 1 = some tSess ∧ t.readOf 1 7 = some tRead ∧ LaneId.b ≠ tRead.resp ∧ t.lb.boot.inReset = false ∧
      tRead.samples.get .b = none ∧ t.lb.samplesAtFreeze .b = true ∧ [some (5 : Word)].length = tRead.count ∧
      tRead.late.has .c = false) ∧
    (r.counted = some allLanes ∧ r.addr.toNat + 4 * 0 ≠ 0x408 ∧ r.sel.lanes.has .c = true ∧ r.samples.get .c = none ∧
      r.votes 0 = [5, 5] ∧ ({ r with samples := { r.samples with b := some [some 6] } } : VRead).votes 0 = [5, 6]) := by
  decide +kernel

/-! ## Host commands -/

/-- Lanes B and C and lane A of a state in a host test obey session 1. -/
def tObeyed (s : State) : Bool := tAll fun x => (obeying s tSess allLanes).has x

/-- Posts: an ordinary command at both ends of its window, and one that comes too late by each rule. -/
theorem witness_Posts :
    let s := tHost id
    let t := tHost fun l => { l with cyc := { l.cyc with frozen := true } }
    s.session 1 = some tSess ∧ tSess.maint = false ∧ tSess.comm = false ∧ tObeyed s ∧ (3071 : Half).toNat ≤ 3071 ∧
    tAll (fun x => (s.lane x).runsLogic && (s.lane x).cyc.num == 5 && !(s.lane x).cyc.frozen) ∧
    (5 < (6 : Cycle).toNat ∧ (261 : Cycle).toNat ≤ 5 + 256) ∧
    (s.obeys tSess .a = true ∧ s.respLane tSess = some .a ∧ (5 : Cycle).toNat ≤ s.la.cyc.num.toNat ∧
      s.la.cyc.num.toNat + 256 < (262 : Cycle).toNat) ∧
    (t.obeys tSess .a = true ∧ t.respLane tSess = some .a ∧ (6 : Cycle).toNat = t.la.cyc.num.toNat + 1 ∧ t.la.cyc.frozen) := by
  decide +kernel

/-- PrepareGivesChallenge: an emergency release of the highest slot, prepared 256 cycles ahead. -/
theorem witness_PrepareGivesChallenge :
    let s := tHost id
    let params : List Byte := [0x0F, 0xFF, 0, 1]
    s.session 1 = some tSess ∧ plenOk 1 params.length = true ∧ 3072 ≤ beAt params 0 2 ∧ beAt params 0 2 ≤ 4095 ∧
    tObeyed s ∧ tAll (fun x => let l := s.lane x
      l.mode.armed && decide (l.cyc.num.toNat ≤ (261 : Cycle).toNat + 256) &&
        decide ((261 : Cycle).toNat ≤ l.cyc.num.toNat + 256) && l.host.prepared.isEmpty) ∧
    (let u := tHost fun l => { l with mode := ModeState.init }
     u.session 1 = some tSess ∧ plenOk 4 0 = true ∧ tObeyed u ∧
       tAll fun x => !(u.lane x).mode.armed && (u.lane x).mode.mode == 0 && (u.lane x).host.prepared.isEmpty) := by
  decide +kernel

/-- ObjectReads: one lane's record, and the whole of a section. -/
theorem witness_ObjectReads :
    let s := { tHost id with la := tLane { tImg 0 0 [] with sections := [[1, 2, 3]] } (tSeat 0 0) }
    s.session 1 = some tSess ∧ s.respLane tSess = some .a ∧ tSess.lanes.has .b = true ∧ s.lb.acts = true ∧
    (s.la.boot.img.bind fun i => i.sections[0]?) = some ([1, 2, 3] : List Byte) ∧ 0 + 3 ≤ ([1, 2, 3] : List Byte).length := by
  decide +kernel

/-- A command of an OP that every lane of a test has prepared. -/
def tPrep (op : Byte) (params : List Byte) : Prepared :=
  { challenge := 99, op := op, wsId := 4, prepCyc := 5, params := params, sessions := [1], expired := false,
    confirmed := false }

/-- A module whose lanes have prepared a command and hold the key of its workstation. -/
def tConf (op : Byte) (params : List Byte) (h : Lane → Lane) : State :=
  tHost fun l => h { l with
    host := { l.host with prepared := [tPrep op params] }, nv := { l.nv with ws := [{ wsId := 4, key := 8 }] } }

/-- The confirm of that command by lanes. -/
def tMsg (op : Byte) (lanes : LaneSet) (m : Cycle) : ConfirmMsg :=
  { sess := 1, req := 7, lanes := lanes, challenge := 99, applyCyc := m,
    cmac := cmac 8 (bytesOf (99 : BitVec 128) ++ bytesOf m ++ [op]) }

/-- A lane with nothing but its prepared command and the key of the workstation changed passes the confirm. -/
theorem tConf_passes {l : Lane} {op : Byte} {params : List Byte} {lanes : LaneSet} {m : Cycle}
    (h : l.host.prepared = [tPrep op params]) (k : l.host.locks = []) (w : l.nv.ws = [{ wsId := 4, key := 8 }]) :
    ConfirmPasses l (tMsg op lanes m) (tPrep op params) :=
  ⟨by simp [Lane.preparedFor, h, tPrep, tMsg], ⟨rfl, rfl⟩, by simp [k], ⟨_, by simp [w, tPrep]; rfl, rfl⟩⟩

/-- AreaConfirmsPost: an emergency release and a force for the last cycle of the window. -/
theorem witness_AreaConfirmsPost :
    let s := tConf 1 [0x0C, 0, 0, 1] id
    let t := tConf 3 [1, 0, 0, 0, 2, 0, 1] id
    s.session 1 = some tSess ∧ tSess.comm = false ∧ s.confirmed (tMsg 1 allLanes 261) = some (tPrep 1 [0x0C, 0, 0, 1]) ∧
    t.confirmed (tMsg 3 allLanes 261) = some (tPrep 3 [1, 0, 0, 0, 2, 0, 1]) ∧ tObeyed s ∧
    (∀ x, ConfirmPasses (s.lane x) (tMsg 1 allLanes 261) (tPrep 1 [0x0C, 0, 0, 1])) ∧
    (∀ x, ConfirmPasses (t.lane x) (tMsg 3 allLanes 261) (tPrep 3 [1, 0, 0, 0, 2, 0, 1])) ∧
    tAll (fun x => (s.lane x).runsLogic && decide ((s.lane x).cyc.num.toNat < 261 ∧ 261 ≤ (s.lane x).cyc.num.toNat + 256) &&
      !(s.lane x).cyc.frozen) :=
  ⟨rfl, rfl, rfl, rfl, by decide +kernel, fun x => by cases x <;> exact tConf_passes rfl rfl rfl,
    fun x => by cases x <;> exact tConf_passes rfl rfl rfl, by decide +kernel⟩

/-- ModuleConfirms: a mode change that waits in lanes that run cycles, and a restart and a re-key in lane A outside one. -/
theorem witness_ModuleConfirms :
    let stop (l : Lane) : Lane := { l with
      cyc := { l.cyc with running := false }, nv := { l.nv with gens := [(0, some { cur := 1, pend := none })] } }
    let only := noLanes.put .a true
    let s := tConf 7 [4] id
    let t := tConf 7 [0] stop
    let u := tConf 6 [0, 0] stop
    (s.confirmed (tMsg 7 allLanes 0) = some (tPrep 7 [4]) ∧ (∀ x, ConfirmPasses (s.lane x) (tMsg 7 allLanes 0) (tPrep 7 [4])) ∧
      tAll (fun x => (s.lane x).inCycle && (s.lane x).boot.img.isSome && (s.lane x).ptn.role == 0)) ∧
    (t.confirmed (tMsg 7 only 0) = some (tPrep 7 [0]) ∧ ConfirmPasses t.la (tMsg 7 only 0) (tPrep 7 [0]) ∧
      t.obeys tSess .a = true ∧ t.la.inCycle = false ∧ byteAt [0] 0 = 0 ∧ t.la.mode.mode ≠ 0 ∧ t.respLane tSess = some .a) ∧
    (u.confirmed (tMsg 6 only 0) = some (tPrep 6 [0, 0]) ∧ ConfirmPasses u.la (tMsg 6 only 0) (tPrep 6 [0, 0]) ∧
      u.la.inCycle = false ∧ u.la.mode.armed = true ∧ beAt [0, 0] 0 2 < (tImg 0 0 [0xFC000000]).stations.length ∧
      u.la.gen 0 = some { cur := 1, pend := none }) :=
  ⟨⟨rfl, fun x => by cases x <;> exact tConf_passes rfl rfl rfl, by decide +kernel⟩,
   ⟨rfl, tConf_passes rfl rfl rfl, by decide +kernel, by decide +kernel, by decide +kernel, by decide +kernel, by decide +kernel⟩,
   ⟨rfl, tConf_passes rfl rfl rfl, by decide +kernel, by decide +kernel, by decide +kernel, by decide +kernel⟩⟩

/-- A heartbeat of the partner in slot 9 by role and epoch, for cycle 5. -/
def tBeat (role : Byte) (epoch : Word) : Heartbeat :=
  { slot := 9, role := role, areaId := 2, cyc := 5, flags := 0, epoch := epoch, sepoch := 0, lanes := 0x111, digest := 0,
    bdig := 0, img := 0, gen := 3, hoAt := 0, pair := 1 }

/-- ModuleCommandsSettle: each mode change, a re-key of the generation before the last, and a ready candidate at exactly
256 matches. -/
theorem witness_ModuleCommandsSettle :
    let img := tImg 0 0 [0xFC000000]
    let l := tLane img (tSeat 0 0)
    let c (op a : Byte) : ModCmd := { sess := 1, req := 0, op := op, wsId := 0, params := [a, 0] }
    let perm : Force := { node := 0, value := 1, out := false, perm := true, start := 5, remove := none, next := none }
    let m : Lane := { l with mode := { l.mode with mode := 4 }, force := { l.force with table := [perm] } }
    let g : GenRec := { cur := 0xFFFFFFFE, pend := none }
    let k : Lane := { l with ptn := { l.ptn with last := some (tBeat 4 1), prole := 4, bmatch := 256, path1 := true, path2 := true } }
    ((c 7 4).op = 7 ∧ byteAt (c 7 4).params 0 = 4 ∧ l.mode.mode = 1) ∧
    (byteAt (c 7 1).params 0 = 1 ∧ ({ m with force := l.force } : Lane).permissive img = false ∧ m.mode.mode = 4 ∧
      m.permissive img = true) ∧
    (byteAt (c 7 3).params 0 = 3 ∧ ({ l with ptn := { l.ptn with role := 2 } } : Lane).ptn.role = 2) ∧
    (byteAt (c 7 1).params 0 = 1 ∧ ({ l with mode := { l.mode with mode := 3 } } : Lane).mode.mode = 3) ∧
    (beAt [0, 0] 0 2 < img.stations.length ∧
      ({ l with nv := { l.nv with gens := [(0, some g)] } } : Lane).gen 0 = some g ∧ g.cur.toNat < 2 ^ 32 - 1) ∧
    (k.ptn.last = some (tBeat 4 1) ∧ k.ptn.prole = 4 ∧ 256 ≤ k.ptn.bmatch ∧ k.forced k.cyc.num = false ∧
      lanesOf (tBeat 4 1).lanes = 3 ∧ k.fail.ho = .idle ∧ k.fail.tookAt = none ∧ k.recentlyByHand k.cyc.num = false) := by
  decide +kernel

/-- A lane at stage 5 that holds every key which the test image asks for, with an arming prepared. -/
def tArm (l : Lane) : Lane :=
  { l with
    boot := { l.boot with stage := 5, set := allLanes }
    mode := ModeState.init
    cyc := CycState.init
    nv := { l.nv with
      master := some 1, gens := [(0, some { cur := 1, pend := none })], uses := [(0x48, 2, 1)]
      peers := [{ slot := 20, purpose := 0x42, gen := 1, keys := PerLane.const 0 },
                { slot := 9, purpose := 0x48, gen := 1, keys := PerLane.const 0 }] } }

/-- ArmingAccepted: three lanes that pass. -/
theorem witness_ArmingAccepted :
    let s : State := { tConf 4 [] tArm with fcu := { Fcu.init with testsOk := true } }
    let img := tImg 0 0 [0xFC000000]
    s.session 1 = some tSess ∧ s.confirmed (tMsg 4 allLanes 0) = some (tPrep 4 []) ∧ tObeyed s ∧
    (∀ x, ConfirmPasses (s.lane x) (tMsg 4 allLanes 0) (tPrep 4 [])) ∧
    tAll (fun x => let l := s.lane x
      l.boot.img == some img && (match l.roleTaken img with | .ok r => r == 0 | .error _ => false) && l.armCode s.fcu == (0, 0)) ∧
    img.params.minLanes.toNat ≤ (obeying s tSess allLanes).count ∧ img.hdr.gen = 3 :=
  ⟨rfl, rfl, by decide +kernel, fun x => by cases x <;> exact tConf_passes rfl rfl rfl, by decide +kernel, by decide +kernel, rfl⟩

/-! ## Provisioning -/

/-- A session of a maintainer on the own J10. -/
def tMaint : Session := { tSess with maint := true, ownJ10 := true }

/-- The public key of a test authority: twice the base point, so its private key is 2 (R149). -/
def tAuthPub : List Byte :=
  4 :: toBe 48 0x08D999057BA3D2D969260045C55B97F089025959A6F434D651D207D19FB96E9E4FE0E86EBE0E64F85B96A9C75295DF61 ++
    toBe 48 0x8E80F1FA5B1B3CEDB7BFE8DFFD6DBA74B275D875BC6CC43E904E505F256AB4255FFD43E94D39E22D61501E700A940E80

theorem test_pubOf : pubOf 1 = tAuthPub := by decide +kernel

/-- An image with that authority. -/
def tAuthImg : Image :=
  { tImg 0 0 [0xFC000000] with sections := List.replicate 10 [] ++ [List.replicate 0x1E0 0 ++ tAuthPub] }

/-- The module with that session and authority, in service, and in START at stage 5. -/
def tProv (start : Bool) (h : Nv → Nv) : State :=
  { tState (let l := tLane tAuthImg (tSeat 0 0)
            let m := if start then tArm l else l
            { m with nv := h m.nv, sec := { m.sec with trngOk := true } }) with sessions := [tMaint] }

/-- The authority's key as the lanes read it in the image. -/
theorem tProv_auth (start : Bool) (h : Nv → Nv) (x : LaneId) : ((tProv start h).lane x).authPub = tAuthPub := by
  have e : slice (tAuthImg.sections.getD 10 []) 0x1E0 97 = tAuthPub := by decide +kernel
  cases x <;> cases start <;> exact e

/-- A lane whose last claim is the authority's finds its true signature right. -/
theorem tProv_signed {start : Bool} {h : Nv → Nv} {x : LaneId} {body sig : List Byte}
    (c : ((tProv start h).lane x).nv.claim = some (sha384 tAuthPub)) (v : ecdsaVerify tAuthPub body sig = true) :
    ((tProv start h).lane x).signedBy body sig := by
  rw [Lane.signedBy, tProv_auth]; exact ⟨c, v⟩

/-- The signature of the authority over the bytes 1, 2, 3. -/
def tSig : List Byte := toBe 96
  975341650828787512803558953074432577973368023013155239079791632396733824827660391428181355576701055303071405112627368621371029981514605909514024772658010377663855128379027379608037913486435278431127807418012064828748584009677801451

theorem test_signature : ecdsaVerify tAuthPub [1, 2, 3] tSig = true := by decide +kernel

/-- Provisioning and AnchorsInStart: a first claim, a later one where the signature over the MID, which is free, is right, the
secret for CSR, and, where the uninterpreted functions accept the chain and give the layout of the records, a chain, anchors
and a revocation list in service and in START. -/
theorem witness_Provisioning (chain : List Cert) (c : Cert) (secret hash : BitVec 384) (sig : List Byte)
    (hl : ecdsaVerify tAuthPub ([0x4E, 0x44, 0x41, 0x43] ++ midBytes ++ [1] ++ bytesOf hash) sig = true)
    (hc : ∀ n : Nv, n.secret = some secret → n.anchors = [c] → n.ownChain chain = true)
    (ha : Config.anchorBytes 1 [c] = [1, 2, 3]) (hr : Config.revokeBytes 1 [] = [1, 2, 3]) :
    let h (n : Nv) : Nv := { n with claims := [sha384 tAuthPub], secret := some secret, anchors := [c] }
    (tProv true id).session 1 = some tMaint ∧
    (∀ x, ((tProv true id).lane x).nothingWaits ∧ ((tProv true id).lane x).mode.armed = false ∧
      ((tProv true id).lane x).mode.mode = 0 ∧ ((tProv true id).lane x).nv.claims = [] ∧ tMaint.ownJ10 = true) ∧
    (∀ x, let l := (tProv true h).lane x
      l.nothingWaits ∧ l.mode.armed = false ∧ l.mode.mode = 0 ∧ l.nv.claims.length < 4 ∧ l.nv.claim = some (sha384 tAuthPub) ∧
        ecdsaVerify tAuthPub ([0x4E, 0x44, 0x41, 0x43] ++ midBytes ++ [BitVec.ofNat 8 l.nv.claims.length] ++ bytesOf hash)
          sig = true) ∧
    (∀ x, let l := (tProv false h).lane x
      l.nothingWaits ∧ l.nv.secret = some secret ∧ l.nv.ownChain chain = true ∧ l.hasBoundaries = true ∧
        l.signedBy (Config.anchorBytes 1 [c]) tSig ∧ l.nv.anchSeq.toNat < 1 ∧
        l.signedBy (Config.revokeBytes 1 []) tSig ∧ l.nv.revSeq = none) ∧
    (∀ x, let l := (tProv true h).lane x
      l.hasBoundaries = false ∧ l.signedBy (Config.anchorBytes 1 [c]) tSig ∧ l.nv.anchSeq.toNat < 1) := by
  intro h
  have v := test_signature
  have k : ∀ start x, ((tProv start h).lane x).nv.claim = some (sha384 tAuthPub) := by
    intro start x; cases x <;> cases start <;> rfl
  refine ⟨rfl, fun x => ?_, fun x => ?_, fun x => ?_, fun x => ?_⟩
  · cases x <;> exact ⟨⟨rfl, rfl, rfl, rfl⟩, rfl, rfl, rfl, rfl⟩
  · refine ⟨?_, ?_, ?_, ?_, k true x, ?_⟩ <;> cases x <;>
      first | exact ⟨rfl, rfl, rfl, rfl⟩ | rfl | exact (Nat.lt_add_left 2 Nat.one_lt_two : 1 < 4) | exact hl
  · rw [ha, hr]
    refine ⟨?_, ?_, ?_, ?_, tProv_signed (k false x) v, ?_, tProv_signed (k false x) v, ?_⟩ <;> cases x <;>
      first | exact ⟨rfl, rfl, rfl, rfl⟩ | exact hc _ rfl rfl | exact Nat.zero_lt_one | rfl
  · rw [ha]
    refine ⟨?_, tProv_signed (k true x) v, ?_⟩ <;> cases x <;> first | exact Nat.zero_lt_one | rfl

/-- The wrapped key of a test registration: the key 8 under the module secret 5 and twice the base point (R314). -/
def tWsWrap : List Byte := toBe 40
  1485672951360750882356594026454224144726612208286594025526089683830570990863417082530467572823507

/-- The bytes of a registration or a revocation of workstation 4 with number 2 that its signature covers. -/
def tWsBody (action : Byte) : List Byte := bytesOf (4 : Word) ++ [action] ++ bytesOf (2 : Word) ++ tAuthPub ++ tWsWrap

/-- That record, signed by the authority. -/
def tWsReg (action : Byte) : WsReg :=
  { wsId := 4, action := action, seq := 2, eph := tAuthPub, wrap := tWsWrap, sig := toBe 96 (if action = 1 then
      50415784547724480527438326385985370003644527123508263251501135970148880446077071679599837561288860090727490129593572667811837793804832923272760924241784339354665100673850960160870699584899236582517467037008833221545879506027877291
      else 733801445137457197324753824972133535678164157968858290803300513410042070216993044107963912373934769462294891015593566334453685447351923575943799012791812954064815979700739611947942154995070895191139814182585587793706516058011872267) }

theorem test_wsSigned : ∀ action : Byte, action = 1 ∨ action = 2 → ecdsaVerify tAuthPub (tWsBody action) (tWsReg action).sig = true := by
  rintro action (rfl | rfl) <;> decide +kernel

/-- The identity seed of the module secret 5 where the free serial number is 0 (R307). -/
def tSeed : BitVec 448 :=
  0x0DF7EDD6572FB4BDD9B69C5BEC54BAAA2A602E78F526EB65BD03651A3092305EE860F6DA8F831121ED4BDE89C4593C206EFACA0AFEBF7A55

theorem tSeed_of (h : Config.factorySerial = 0) : identitySeed 5 = tSeed := by
  have m : midBytes = [0x33, 0x64, 0x43, 0, 0, 0, 0, 0, 0, 0, 0, 0, 0, 0, 0, 0] := by
    rw [midBytes, mid, h]; decide
  simp only [identitySeed, mk, kdf, kdfBlocks, m]
  decide +kernel

/-- The wrapping key of that registration under that seed. -/
def tWsKek : BitVec 256 := 0xAB9D587A56DE9541CEE31EB3479235D1D87A856B1976A1F0D1BC8D7E98620579

theorem test_wsKek : wsWrapKey tSeed (tWsReg 1) = tWsKek ∧ (pointOf tAuthPub).isSome = true := by decide +kernel

theorem test_wsKey : kwUnwrap tWsKek tWsWrap = some 8 := by decide +kernel

/-- WorkstationKeys: a registration and a revocation with a number above the last one, in service and in START, where the
free serial number is 0. -/
theorem witness_WorkstationKeys (serial : Config.factorySerial = 0) :
    let h (n : Nv) : Nv := { n with claims := [sha384 tAuthPub], secret := some 5, wsSeq := [(4, 1)] }
    (∀ start, (tProv start h).session 1 = some tMaint) ∧ tMaint.maint = true ∧ tMaint.comm = false ∧
    (tWsReg 1).eph.length = 97 ∧ (tWsReg 1).wrap.length = 40 ∧
    ∀ start x (action : Byte), action = 1 ∨ action = 2 → let l := (tProv start h).lane x
      l.signedBy (bytesOf (tWsReg action).wsId ++ [(tWsReg action).action] ++ bytesOf (tWsReg action).seq ++
        (tWsReg action).eph ++ (tWsReg action).wrap) (tWsReg action).sig ∧
      (∀ q, (l.nv.wsSeq.find? fun p => p.1 == (tWsReg action).wsId) = some q → q.2.toNat < (tWsReg action).seq.toNat) ∧
      l.otherWs (tWsReg action).wsId < 64 ∧ l.nv.wsKeyOf (tWsReg action) = some 8 ∧ l.hasBoundaries = !start ∧ l.nothingWaits := by
  intro h
  have key : ∀ (n : Nv) (action : Byte), n.secret = some 5 → n.wsKeyOf (tWsReg action) = some 8 := by
    intro n action e
    obtain ⟨k, p⟩ := test_wsKek
    obtain ⟨q, hq⟩ := Option.isSome_iff_exists.mp p
    have w : wsWrapKey tSeed (tWsReg action) = tWsKek := k
    rw [Nv.wsKeyOf, e, show (tWsReg action).eph = tAuthPub from rfl, Option.bind_some, hq, Option.bind_some, tSeed_of serial, w]
    exact test_wsKey
  refine ⟨fun start => by cases start <;> rfl, rfl, rfl, by decide +kernel, by decide +kernel, fun start x action ha => ?_⟩
  refine ⟨tProv_signed (by cases x <;> cases start <;> rfl) (test_wsSigned action ha), ?_, ?_, key _ _ ?_, ?_, ?_⟩ <;>
    cases x <;> cases start <;>
    first
    | (intro q hq
       obtain rfl : ((4, 1) : Word × Word) = q := Option.some.inj hq
       exact Nat.one_lt_two)
    | exact Nat.zero_lt_succ 63
    | exact ⟨rfl, rfl, rfl, rfl⟩
    | rfl

/-- A package of a test that waits in session 1, with the fields that lanes hold. -/
def tPkgWait (mark : PkgMark) (held : PerLane (PerLane (Option (List Byte)))) : PkgWait :=
  { sess := 1, req := 7, sub := 7
    pkg := { magic := [0x4E, 0x44, 0x50, 0x4B], area := 2, stn := 0x77, gen := 1, pub := tAuthPub }
    mark := mark, held := held }

/-- PackagesIssued: a first generation of station 0, a border key for a chain that the uninterpreted functions accept, and a
package that waits for its first field and for the last one of two lanes. -/
theorem witness_PackagesIssued (secret : BitVec 384) (master : BitVec 256) (chain : List Cert) (c : Cert)
    (hc : ∀ n : Nv, n.anchors = [c] → n.chainOk chain = true) :
    let h (n : Nv) : Nv := { n with secret := some secret, master := some master, gens := [], anchors := [c] }
    let s := tProv true h
    let lone := tPkgWait (.station 0 1) (PerLane.const (PerLane.const none))
    let most := tPkgWait (.peer 0x42 5 6)
      { a := { a := some [1], b := some [2], c := none }, b := { a := some [1], b := some [2], c := some [3] },
        c := PerLane.const none }
    let put (w : PkgWait) : PkgWait := { w with held := w.held.put .a ((w.held.get .a).put .c (some [3])) }
    (s.session 1 = some tMaint ∧ tMaint.maint = true ∧ tMaint.comm = false ∧ s.respLane tMaint = some .a ∧
      (obeying s tMaint allLanes).has .a = true ∧ tAuthImg.stations[0]? = some tStation ∧ tAuthPub.length = 97 ∧
      (0 : Byte).toNat ≤ 1 ∧ (0x42 : Byte) ≠ 0x48) ∧
    (∀ x, let l := s.lane x
      l.boot.img = some tAuthImg ∧ l.nv.secret = some secret ∧ l.sec.trngOk = true ∧ l.atStage5 = true ∧ l.gen 0 = none ∧
      (∃ k, l.keyFor x [0x4E, 0x44, 0x54] tStation.stnId tStation.keyGen = some k) ∧
      (∃ k, l.keyFor x [0x4E, 0x44, 0x42] 5 6 = some k) ∧ l.nv.chainOk chain = true) ∧
    (∀ w : PkgWait, w = lone ∨ w = most →
      (({ s with pkgs := [w] } : State).pkgs.find? fun u => u.sess == 1 && u.req == 7) = some w) ∧
    (s.obeys tMaint .a = true ∧ (∀ x y, x ≠ y → (put lone).fieldsIn x = none ∨ (put lone).fieldsIn y = none) ∧
      ∀ x, x = LaneId.a ∨ x = .b → (put most).fieldsIn x = some [1, 2, 3]) := by
  intro h s lone most put
  have o : (tProv true id).obeys tMaint .a = true := by decide +kernel
  have v : (obeying (tProv true id) tMaint allLanes).has .a = true := by decide +kernel
  refine ⟨⟨rfl, rfl, rfl, rfl, v, rfl, by decide +kernel, by decide, by decide⟩, fun x => ?_, ?_, o, fun x y _ => ?_, ?_⟩
  · cases x <;> exact ⟨rfl, rfl, rfl, rfl, rfl, ⟨_, rfl⟩, ⟨_, rfl⟩, hc _ rfl⟩
  · rintro w (rfl | rfl) <;> rfl
  · left; cases x <;> rfl
  · rintro x (rfl | rfl) <;> rfl

/-- The certificate of a test module whose MID is 0. -/
def tPeerCert : Cert :=
  { raw := [], pub := tAuthPub, subject := hexText (List.replicate 16 0), ou := [], issuer := [], serial := [] }

/-- A border package of slot 20 for the module secret 5: generation 1, key 8 for each lane, under twice the base point. -/
def tPeerPkg : List Byte :=
  [0x4E, 0x44, 0x50, 0x50, 0, 1, 20, 0] ++ List.replicate 16 0 ++ bytesOf (2 : Word) ++ bytesOf (0x42000000 : Word) ++
    bytesOf (1 : Word) ++ [0, 0, 0, 0] ++ List.replicate 48 0 ++
    (tAuthPub ++ toBe 40 2123381325497352922376806305229745466570063950132852310171501538297873291930228995016167573737807) ++
    (tAuthPub ++ toBe 40 2080680559044334512345473525079347242649425324041892119045030205651072874546598640862248487663660) ++
    (tAuthPub ++ toBe 40 1917988238001862038823167424594176504387049566872516451602675454177604522088691034065530612909452) ++
    toBe 96 135713776448050827542339916629125312301847566221318517377521116297198652943094564077141193718156205543582667054191422608820116574291921895178510732631718911233582792102744240320993956184265509332981757282535665564696691818315886803

theorem test_peerForm : peerForm tPeerPkg = true ∧ byteAt tPeerPkg 6 = 20 ∧ byteAt tPeerPkg 0x1C = 0x42 := by decide +kernel

theorem test_packageOpen : ∀ z, packageOpen tSeed tPeerPkg z = some 8 := by
  intro z; cases z <;> decide +kernel

theorem test_packageSigned : ecdsaVerify tPeerCert.pub (slice tPeerPkg 0 0x1F3) (slice tPeerPkg 0x1F3 96) = true ∧
    tPeerCert.subject = hexText (slice tPeerPkg 8 16) ∧ ofBytes 32 (slice tPeerPkg 0x18 4) = tAuthImg.params.areaId := by
  decide +kernel

/-- PeerKeys: a true package where the free serial number is 0 and the uninterpreted function accepts its chain, and an
exported generation. -/
theorem witness_PeerKeys (c : Cert) (serial : Config.factorySerial = 0)
    (hc : ∀ n : Nv, n.anchors = [c] → n.chainOk [tPeerCert] = true) :
    let h (n : Nv) : Nv := { n with secret := some 5, peers := [], exported := [(0x42, 5, 6)], anchors := [c] }
    (tProv false h).session 1 = some tMaint ∧ peerForm tPeerPkg = true ∧
    (∀ z, packageOpen (identitySeed 5) tPeerPkg z = some ((PerLane.const 8).get z)) ∧
    ∀ x, let l := (tProv false h).lane x
      l.nothingWaits ∧ l.boot.img = some tAuthImg ∧ l.nv.secret = some 5 ∧
      l.peerOk tAuthImg tPeerPkg [tPeerCert] = true ∧ l.nv.peers = [] ∧ l.hasBoundaries = true ∧
      (0x42, 5, 6) ∈ l.nv.exported := by
  intro h
  have ok : ∀ l : Lane, l.nv.anchors = [c] → l.peerOk tAuthImg tPeerPkg [tPeerCert] = true := by
    intro l e
    obtain ⟨v, u, g⟩ := test_packageSigned
    obtain ⟨-, -, p⟩ := test_peerForm
    simp only [Lane.peerOk, hc _ e, v, u, g, p, beq_self_eq_true, Bool.and_true]
    rfl
  refine ⟨rfl, test_peerForm.1, fun z => by rw [tSeed_of serial, test_packageOpen]; cases z <;> rfl, fun x => ?_⟩
  cases x <;> exact ⟨⟨rfl, rfl, rfl, rfl⟩, rfl, rfl, ok _ rfl, rfl, rfl, List.mem_singleton.mpr rfl⟩

/-! ## START -/

/-- Directory entry of node `i` of the image that passes the pre-check: LDI, ST and END. -/
def tGoodEntry (i : Nat) : NodeEntry :=
  let e : NodeEntry := { tEntry i (BitVec.ofNat 8 (16 * i)) 3 0 1 with pstart := BitVec.ofNat 32 (3 * i) }
  { e with crc := entryCrc e.body i }

/-- An image that passes the pre-check: one node in each hand. -/
def tGood : Image :=
  { tImg 0 0 [] with
    hdr := { tHdr with hwIssues := 4, tFreeze := 200, nodes := 8, timers := 1, progs := 24, stations := 0 }
    nodes := (List.range 8).map tGoodEntry
    progs := tProgs ((List.range 8).flatMap fun i => [0x68400001, 0x08500000 + BitVec.ofNat 32 i, 0xFC000000])
    stations := [], nbs := [], pexp := 12 }

theorem test_preCheck : preCheck tGood 0 allLanes = (0, 0) := by decide +kernel
theorem test_preCheck_floor : (preCheck tGood 4 allLanes).1 = 0x16 := by decide +kernel

/-- What a lane meets at release: all in order, and every calibration out of bounds by one. -/
def tEnv (straps : BitVec 2) (cals : List Nat) : StartEnv :=
  { straps := straps
    clock := { cals := cals, rcCounts := [3072], xtal := [3815, 3900, 4050], locks := [false, true], monitors := true }
    testsFail := 0, romInv := 0, reads := { first := .absent, second := .absent }, keyClosed := true, fcuTests := none }

/-- The module in START: live lanes, not armed, that hold the good image and have posted a digest. -/
def tStart (h : Lane → Lane) : State :=
  let post (slot : BitVec 2) : StartStatus :=
    { slot := slot, mid := mid, digest := some 5, gen := 3, minLanes := 2, testsOk := true, stopped := false, code := 0,
      pubs := none, confirm := none }
  tState (h { tLane tGood (tSeat 0 0) with
    boot := { Boot.init with
      inReset := false, alive := true, kchk := true, present := true, stage := 3, img := some tGood, digest := some 5
      posts := { a := some (post 0), b := none, c := some (post 2) } }
    mode := ModeState.init, cyc := CycState.init })

/-- A row of a section table: number, offset, length and check. -/
def tRow (r : Nat × Nat × Nat × Nat) : List Byte :=
  BitVec.ofNat 8 r.1 :: (List.replicate 3 0 ++ toLe 4 r.2.1 ++ toLe 4 r.2.2.1 ++ toLe 4 r.2.2.2)

/-- An image header of generation 3 for an image of no nodes (R136, R138). -/
def tChipHeader : List Byte :=
  imgMagic ++ [1, 0, 0x11, 0x12] ++ List.replicate 4 0 ++ toLe 4 3 ++ List.replicate 0x28 0 ++ toBe 8 0x92281EE8AD74DE87 ++
    [(0, 0, 512, 0), (1, 512, 0, 0), (2, 512, 0, 0), (3, 512, 0, 0), (4, 512, 64, 0x03C8EB67), (5, 768, 448, 0x33D76238),
     (6, 1280, 256, 0xB872B190), (7, 1536, 64, 0x4A0C1098), (8, 1792, 0, 0), (9, 1792, 16, 0x42709AEA),
     (10, 2048, 673, 0x44F17A8B)].flatMap tRow ++ List.replicate 268 0 ++ toLe 4 0x8BA0E1B6

/-- The digest of an empty section. -/
def tNoBytes : List Byte :=
  toBe 48 0x38B060A751AC96384CD9327EB1B1E36A21FDB71114BE07434C0CC7BF63F6E1DA274EDEBFE76F65FBD51AD2F14898B95B

/-- The signature section of that image (R149), signed by the test authority. -/
def tChipSig : List Byte :=
  toBe 48 0xBD94CF0E2FEEB1D37EA604266A35B3C962BE5C9927A6BDAEBE36B95B5117C6A87EF5EBC072C209BD16EB6688F8ED480C ++
  tNoBytes ++ tNoBytes ++ tNoBytes ++
  toBe 48 0xC516AA8D3B457C636C6826937099C0D23A13F2C3701A388B3C8FE4BC2073281B0C4462610369884C4ABABA8E97B6DEBE ++
  toBe 48 0xDAB51F63DA499668728964B78515EF33A2EE05DCA2788F3B8A6025EAA9BA4BADD8CC6AAAA66F84BB512867B308D31892 ++
  toBe 48 0x983980373213482DD5C9A5A424DB89418E3344C459FA31A356E42EAA28544CA01B9839F6593C9E5D79FD439B5DA6EBEF ++
  toBe 48 0xC8833F894D74F93965CD9905357434C389FAE7021FC5B1D8A313B130E150A2EF5A0577B14D5FE01EDE824D0547D60FB9 ++
  tNoBytes ++
  toBe 48 0xAE40659DA1193CDEC8DF474B5E36416A82473B83D32DBBE1DD6DF8EC9499D24902CA08C334876BC8E69E818BEECC046A ++
  tAuthPub ++
  toBe 48 0xAA87CA22BE8B05378EB1C71EF320AD746E1D3B628BA79B9859F741E082542A385502F25DBF55296C3A545E3872760AB7 ++
  toBe 48 0x51AFC4B8DB7DEF54D857635BF8B6DCEE2961F46D08C227FD57510093DCA450982AADEF9752F6DB8F2918BAF01D323E2A

/-- A key chip of lane A whose image holds nothing but its area identifier. -/
def tChip : List Byte :=
  keyMagic ++ [1, 0, 0x11, 0x41] ++ toLe 4 0x1000 ++ toLe 4 2721 ++ List.replicate 236 0 ++ toLe 4 0xCC3777C2 ++
    List.replicate 0xF00 0 ++ tChipHeader ++ List.replicate 0x400 0 ++ toLe 4 7 ++ List.replicate 0x1FC 0 ++ tChipSig

/-- The chip passes every check of the load, on its first read; the digest is that of its signature section. -/
theorem test_chipLoads :
    (match (loadKey 0 [sha384 tAuthPub] { first := .bytes tChip, second := .absent }).2.end_ with
      | .ok p => p.1.params.areaId == 7 &&
          p.2 == 0xFCA030735E67E4E5BAF3D51E127582054D277DA7F172F0CC322917D6C06A57E630DC264065ADD7AC8E483154D1D07BA2
      | .error _ => false) = true := by decide +kernel

/-- StartReleases: reserved straps, calibrations out of bounds, a good clock start, and a repeat with the key present and
absent, a wrong inverse, a failed test, an open contact and a chip that loads. -/
theorem witness_StartReleases :
    (∃ img dig, (loadKey 0 [sha384 tAuthPub] { first := .bytes tChip, second := .absent }).2.end_ = .ok (img, dig)) ∧
    (let e : StartEnv := { tEnv 0 [15625] with romInv := Config.kInvOf 0, reads := { first := .bytes tChip, second := .absent } }
     decide (Config.kOf e.straps * e.romInv = 1) = true ∧ e.testsFail = 0 ∧ e.keyClosed = true ∧
       ({ e with testsFail := 4 } : StartEnv).testsFail ≠ 0 ∧ ({ e with keyClosed := false } : StartEnv).keyClosed = false ∧
       decide (Config.kOf e.straps * (tEnv 0 [15625]).romInv = 1) = false) ∧
    (tEnv 3 []).straps = 3 ∧
    ((tEnv 2 [11718, 19532]).straps ≠ 3 ∧ ∀ c ∈ (tEnv 2 [11718, 19532]).clock.cals.take 3, c < 11719 ∨ 19531 < c) ∧
    ((tEnv 0 [15625]).straps ≠ 3 ∧ (clockSteps (tEnv 0 [15625]).clock (tStart id).la.nv.rcTrim Clk.init).2.1 = 0 ∧
      (tEnv 0 [15625]).clock.monitors = true) ∧
    (let s : State := { tStart id with keyWait := true }
     let t := tStart fun l => { l with boot := { l.boot with present := false } }
     s.keyWait = true ∧ (s.la.live && !s.la.mode.armed) = true ∧ s.la.boot.kchk = true ∧ s.la.boot.present = true ∧
       t.la.boot.present = false ∧ ((tHost id).la.live && !(tHost id).la.mode.armed) = false) := by
  refine ⟨?_, by decide +kernel, by decide +kernel, by decide +kernel, by decide +kernel, by decide +kernel⟩
  have h := test_chipLoads
  revert h
  cases (loadKey 0 [sha384 tAuthPub] { first := .bytes tChip, second := .absent }).2.end_ with
  | error e => intro h; cases h
  | ok p => exact fun _ => ⟨p.1, p.2, rfl⟩

/-- KeysMarksAndProbes: a module in START, one in service, a stopped lane, and a probe that is outstanding. -/
theorem witness_KeysMarksAndProbes :
    let s := tStart fun l => { l with boot := { l.boot with stopped := true } }
    let t := tHost fun l => { l with align := { l.align with probes := l.align.probes.put .b (some 8) } }
    tAll (fun x => !(s.lane x).mode.armed && (s.lane x).mode.mode == 0) ∧ s.la.boot.stopped = true ∧
    t.la.mode.armed = true ∧ t.la.live = true ∧ LaneId.b ≠ .a ∧ t.la.align.probes.get .b = some 8 := by
  decide +kernel

/-- SetFormation: the third equal digest arrives, and the waits end with two equal digests, with one that stands alone
against two, and with none. -/
theorem witness_SetFormation :
    let l := (tStart id).la
    let other (f : StartStatus) : StartStatus := { f with digest := some 6 }
    let alone (l : Lane) : Lane := { l with boot := { l.boot with
      digest := some 6, posts := { l.boot.posts with a := l.boot.posts.a.map other, b := l.boot.posts.c } } }
    let none_ (l : Lane) : Lane := { l with boot := { l.boot with posts := { l.boot.posts with c := none } } }
    ((tStart id).unarmed = true ∧ l.live = true ∧ LaneId.b ≠ .a ∧ l.boot.stopped = false ∧ l.sec.eph = none ∧
      l.boot.img = some tGood ∧ l.boot.stage = 3 ∧ (1 : BitVec 2) ≠ l.boot.straps ∧ l.boot.digest = some 5 ∧
      (l.boot.posts.get .a).any (fun g => g.digest == some 5 && !g.stopped) ∧
      (l.boot.posts.get (LaneId.third .a .b)).any (fun g => g.digest == some 5 && !g.stopped && g.slot != l.boot.straps &&
        g.slot != 1) ∧
      (preCheck tGood l.nv.genFloor allLanes).1 = 0) ∧
    (l.boot.late = false ∧ 2 ≤ (l.setOf .a).count ∧ (preCheck tGood l.nv.genFloor (l.setOf .a)).1 = 0) ∧
    (preCheck tGood 4 (l.setOf .a)).1 ≠ 0 ∧
    (((alone l).setOf .a).count < 2 ∧ 2 ≤ ((alone l).setOf LaneId.a.next).count) ∧
    (((none_ l).setOf .a).count < 2 ∧ ((none_ l).setOf LaneId.a.next).count < 2) := by
  decide +kernel

/-! ## The vital cycle -/

/-- The module of the node tests with a change of lane A. -/
def tCycle (h : Lane → Lane) : State := tState (h (tLane (tImg 0 0 [0xFC000000]) (tSeat 0 0)))

/-- The image of those lanes. -/
def tPlain : Image := tImg 0 0 [0xFC000000]

/-- An entry of zeros with its check. -/
def tZeros (size : Nat) (crc : Word) : List Byte := List.replicate (size - 4) 0 ++ toLe 4 crc.toNat

/-- The image of the test lanes with sound entries for its networks, station, neighbour and parameters. -/
def tFieldImg : Image :=
  { tPlain with sections := [[], [], [], [], tZeros 64 0x03C8EB67 ++ tZeros 48 0x288C3AB9, [], tZeros 32 0x8A9136AA, tZeros 64 0x03C8EB67] }

theorem test_tablesSound : tFieldImg.tableSound netTable 0 = true ∧ tFieldImg.tableSound paramTable 0 = true ∧
    stationSound tFieldImg 0 = true ∧ nbSound tFieldImg 0 = true ∧ stationSound tFieldImg 1 = false := by
  decide +kernel

/-- Lane A runs the phases of a cycle when the changes keep the fields that say so. -/
theorem tRunsCycle {h : Lane → Lane} (a : (tCycle h).la.boot.img = some tPlain) (b : (tCycle h).la.inCycle = true)
    (c : (tCycle h).la.phased .a = true) (d : (tCycle h).la.evaluates = true) : RunsCycle (tCycle h) .a tPlain := ⟨a, b, c, d⟩

/-- Boundaries: a cycle that sealed, one with each reason to drop, and an accepted arming. -/
theorem witness_Boundaries :
    let m (h : CycState → CycState) : Lane := (tCycle fun l => { l with cyc := h { l.cyc with voted := true, sealed := true } }).la
    let ok (m : Lane) : Bool := !m.boot.inReset && m.codeOf .a == 1 && m.ptn.role == 0 && !m.fail.standDown &&
      m.fail.ho == .idle && m.pwr.mode.ult 2
    RunsCycle (tCycle fun l => { l with cyc := { l.cyc with voted := true, sealed := true } }) .a tPlain ∧
    (ok (m id) ∧ (m id).cyc.voted ∧ (m id).cyc.sealed ∧ (m id).cyc.notice = false ∧ (m id).cyc.drop = none) ∧
    ok (m fun c => { c with drop := some { cause := 1, phase := 1 } }) ∧ ok (m fun c => { c with sealed := false }) ∧
    ok (m fun c => { c with notice := true }) ∧
    (let l : Lane := (tStart fun l => { l with mode := { l.mode with accepted := true, takes := 4 } }).la
     l.boot.img = some tGood ∧ l.live = true ∧ l.mode.armed = false ∧ l.mode.accepted = true ∧ l.mode.takes ≠ 3) :=
  ⟨tRunsCycle rfl rfl rfl rfl, by decide +kernel, by decide +kernel, by decide +kernel, by decide +kernel, by decide +kernel⟩

/-- FreezeClosesInputs: nothing due, a due ordinary post, and a waiting mode change. -/
theorem witness_FreezeClosesInputs :
    let q : Post := { sess := 1, req := 0, cyc := 6, op := 0, wsId := 0, kind := .pulse 3 4 }
    let c : ModCmd := { sess := 1, req := 0, op := 7, wsId := 0, params := [4] }
    RunsCycle (tCycle fun l => { l with host := { l.host with posts := [{ q with cyc := 7 }] } }) .a tPlain ∧
    RunsCycle (tCycle fun l => { l with host := { l.host with posts := [q] } }) .a tPlain ∧
    RunsCycle (tCycle fun l => { l with host := { l.host with modCmds := [c] } }) .a tPlain ∧
    (let m := (tCycle id).la
     m.cyc.frozen = false ∧ m.serves .a = true ∧ (tCycle id).reads = [] ∧ q.cyc = m.cyc.num + 1 ∧ (7 : Cycle) ≠ m.cyc.num + 1 ∧
       c.op = 7 ∧ byteAt c.params 0 = 4 ∧ m.mode.mode = 1) :=
  ⟨tRunsCycle rfl rfl rfl rfl, tRunsCycle rfl rfl rfl rfl, tRunsCycle rfl rfl rfl rfl, by decide +kernel⟩

/-- SliceOutcomes: the dummy of a lane in service with 2 and with 3 incomplete slices, a lane under test, and a lane in
service at the limit with one retired seat. -/
theorem witness_SliceOutcomes :
    let slice (k : Nat) : Lane := (tCycle fun l => { l with
      rot := { l.rot with dummy := some 8 }, bist := { l.bist with sliceRun := true }
      seats := l.seats.set 8 { SeatState.init with code := 2, incRun := k } }).la
    let test : Lane := (tCycle fun l => { l with
      bist := { l.bist with sliceRun := true }, vote := { l.vote with codes := l.vote.codes.put .a 2 } }).la
    let old : Lane := (tCycle fun l => { l with
      boot := { l.boot with img := some tFieldImg }
      seats := l.seats.set 8 { SeatState.init with code := 5 }, re := { l.re with untested := 72000 } }).la
    ((slice 2).runsSlice .a 8 ∧ (slice 2).underTest .a = false ∧ ((slice 2).seat 8).incRun < 3) ∧
    ((slice 3).runsSlice .a 8 ∧ 3 ≤ ((slice 3).seat 8).incRun) ∧
    (test.runsSlice .a 4 ∧ test.underTest .a = true ∧ test.re.sliceSeats.length < 8) ∧
    (old.live ∧ old.mode.armed ∧ old.serves .a = true ∧ old.retired = 1 ∧
      old.boot.img = some tFieldImg ∧ tFieldImg.tableSound paramTable 0 = true ∧
      tFieldImg.params.tUntested.toNat * 36000000 / tFieldImg.hdr.tCycle ≤ old.re.untested) := by
  decide +kernel

/-- SweepAndCorrection: hands that are done, at the deadline of the sweep, and a bitmap that is full or lacks node 1. -/
theorem witness_SweepAndCorrection :
    let done (l : Lane) : Lane := { l with seats := l.seats.set 0 { SeatState.init with code := 1 } }
    let p5 (l : Lane) : Lane := { done l with cyc := { l.cyc with p5 := true } }
    let full (l : Lane) : Lane := { l with store := { l.store with bitmap := [(0, true), (1, true), (2, true)] } }
    RunsCycle (tCycle done) .a tPlain ∧ (tCycle done).la.handsDone = true ∧ (tCycle done).la.cyc.sweep = false ∧
    (tCycle done).la.cyc.p5 = false ∧
    (RunsCycle (tCycle p5) .a tPlain ∧ (tCycle p5).la.handsDone = true ∧ (tCycle p5).la.cyc.corr = false ∧
      ∀ f ∈ (tCycle p5).la.force.table, f.out = false) ∧
    (RunsCycle (tCycle full) .a tPlain ∧ (tCycle full).la.cyc.checked = false ∧ (∀ x, ((tCycle full).la.seat x).code ≠ 3) ∧
      ∀ k, k < 3 → Mem.get false (tCycle full).la.store.bitmap k = true) ∧
    (Mem.get false (tCycle id).la.store.bitmap 1 = false ∧ ∀ k, k < 1 → Mem.get false (tCycle id).la.store.bitmap k = true) :=
  ⟨tRunsCycle rfl rfl rfl rfl, by decide +kernel, by decide +kernel, by decide +kernel,
   ⟨tRunsCycle rfl rfl rfl rfl, by decide +kernel, by decide +kernel, by decide +kernel⟩,
   ⟨tRunsCycle rfl rfl rfl rfl, by decide +kernel, by decide +kernel, by decide +kernel⟩, by decide +kernel⟩

/-! ## Field telegrams, agreement and vote -/

/-- A status telegram of the test station without its tags, by number. -/
def tHead (seq : Byte) : List Byte :=
  [1, 0x53, 0, 0, 0, 0, 0, 0x77, 0, 0, 0, 2, 0, 0, 0, 0, 0, 0, 0xFF, 7, 0, 0, 0, 0, 0, 0, 0, seq, 0, 0, 0, 1, 0, 4, 1, 2, 3, 4]

/-- That telegram with a tag of lane A. -/
def tTel (seq : Byte) (tag : List Byte) : List Byte := tHead seq ++ tag ++ List.replicate 16 0

/-- The tag that lane A with master key 1 finds right. -/
def tTag (seq : Byte) : List Byte :=
  bytesOf (tagOf (kdf 256 1 labelStation ([LaneId.a.byte] ++ bytesOf (0x77 : Word) ++ bytesOf (1 : Word))) (tHead seq))

/-- A frame on network A with those bytes. -/
def tFrame (data : List Byte) : FieldFrame :=
  { fcsOk := true, tagged := true, vid := 5, options := false, fragment := false, srcIp := 0x0A000002,
    dstIp := 0x0A000001, dstPort := 4000, sumOk := true, coderErr := 0, data := data }

/-- Lane A that takes telegrams, with or without a master key, and a change of its cycle and field state. -/
def tTakes (key : Option (BitVec 256)) (h : Lane → Lane) : State :=
  tCycle fun l => h { l with
    boot := { l.boot with img := some tFieldImg }
    nv := { l.nv with master := key, gens := [(0, some { cur := 1, pend := none })] } }

/-- A candidate of the test station by number. -/
def tCand (seq : Word) : Tel :=
  { seq := seq, echoCyc := 0, echoCmdr := 0xFF, echoEp := 0, keyGen := 1, cmdMiss := false, net := .a, halves := [] }

/-- A lane with master key 1 finds that tag right. -/
theorem tTag_true {l : Lane} (h : l.nv.master = some 1) (z : l.sec.zeroed = false) :
    l.telTagOk .a tStation.stnId (tFrame (tTel 8 (tTag 8))).data = true := by
  have len : (tTag 8).length = 8 := length_bytesOf _
  have n : 0x22 + telLen (tTel 8 (tTag 8)) = 38 := by decide +kernel
  have g : BitVec.ofNat 32 (beAt (tTel 8 (tTag 8)) 0x1C 4) = 1 := by decide +kernel
  have s0 : slice (tTel 8 (tTag 8)) 0 38 = tHead 8 := by
    rw [tTel, List.append_assoc, slice, List.drop_zero, List.take_left' (by decide)]
  have s1 : slice (tTel 8 (tTag 8)) (38 + 8 * LaneId.a.num) 8 = tTag 8 := by
    rw [tTel, List.append_assoc, slice, List.drop_left' (by decide), List.take_left' len]
  have d : (tFrame (tTel 8 (tTag 8))).data = tTel 8 (tTag 8) := rfl
  have k : l.keyFor .a labelStation tStation.stnId 1 =
      some (kdf 256 1 labelStation ([LaneId.a.byte] ++ bytesOf (0x77 : Word) ++ bytesOf (1 : Word))) := by
    rw [Lane.keyFor, z, h]; rfl
  simp only [Lane.telTagOk, d, n, g, s0, s1, k]
  exact beq_self_eq_true (tTag 8)

/-- TelegramsTaken: a frame in error, one that a lane in START hears, a word that the coder garbles, a wrong tag, and
telegram 8 with its right tag at the freeze and before it, with no candidate and with an older and a newer one. -/
theorem witness_TelegramsTaken :
    let fr := tFrame (tTel 8 (tTag 8))
    let bad : FieldFrame := { fr with coderErr := 1 }
    let s := tTakes (some 1) id
    let hears := (tStart fun l => { l with
      boot := { l.boot with img := some tFieldImg }, nv := { l.nv with gens := [(0, some { cur := 1, pend := none })] } }).la
    let held := (tTakes (some 1) fun l => { l with cyc := { l.cyc with frozen := true } }).la
    let with_ (c : Tel) := (tTakes (some 1) fun l => { l with field := { l.field with cands := [(0, some c)] } }).la
    let found (m : Lane) (fr : FieldFrame) : Bool := frameOk (tFieldImg.netOf .a) fr &&
      (match m.telStation tFieldImg .a fr.srcIp fr.data with | .ok p => p == 0 | .error _ => false)
    let back (m : Lane) (fr : FieldFrame) : Bool := m.coderBack 0 (m.codeTel 0 .a fr.data m.cyc.num fr.coderErr) fr.data m.cyc.num
    let ok (m : Lane) (fr : FieldFrame) : Bool := m.takesField && found m fr && back m fr
    (s.la.boot.img = some tFieldImg ∧ s.la.takesField = true ∧ frameOk (tFieldImg.netOf .a) { fr with fcsOk := false } = false) ∧
    (hears.boot.img = some tFieldImg ∧ hears.hearsField = true ∧ found hears fr = true ∧
      ∀ q, hears.telStation tFieldImg .a fr.srcIp fr.data = .ok q → stationSound tFieldImg q = true) ∧
    tFieldImg.stations[0]? = some tStation ∧ (s.la.takesField && found s.la bad && !back s.la bad) = true ∧
    (ok (tTakes none id).la fr ∧ (tTakes none id).la.telTagOk .a tStation.stnId fr.data = false) ∧
    (ok held fr ∧ held.telTagOk .a tStation.stnId fr.data = true ∧ held.cyc.frozen = true) ∧
    (ok s.la fr ∧ s.la.telTagOk .a tStation.stnId fr.data = true ∧ s.la.cyc.frozen = false ∧
      s.la.telLate 0 (s.la.codeTel 0 .a fr.data s.la.cyc.num 0) s.la.cyc.num = none ∧ s.la.cand 0 = none) ∧
    (∀ c ∈ [tCand 7, tCand 9], ok (with_ c) fr ∧ (with_ c).telTagOk .a tStation.stnId fr.data = true ∧
      (with_ c).cyc.frozen = false ∧
      (with_ c).telLate 0 ((with_ c).codeTel 0 .a fr.data (with_ c).cyc.num 0) (with_ c).cyc.num = none ∧ (with_ c).cand 0 = some c) := by
  intro fr bad s hears held with_ found back ok
  have one : found hears fr = true := by decide +kernel
  refine ⟨⟨rfl, by decide +kernel, by decide +kernel⟩, ⟨rfl, by decide +kernel, one, ?_⟩, rfl, by decide +kernel,
    ⟨by decide +kernel, rfl⟩, ⟨by decide +kernel, tTag_true rfl rfl, rfl⟩,
    ⟨by decide +kernel, tTag_true rfl rfl, rfl, by decide +kernel, rfl⟩, ?_⟩
  · intro q h
    simp only [found, h, Bool.and_eq_true, beq_iff_eq] at one
    rw [one.2]
    exact test_tablesSound.2.2.1
  · intro c hc
    rcases List.mem_cons.mp hc with rfl | hc
    · exact ⟨by decide +kernel, tTag_true rfl rfl, rfl, by decide +kernel, rfl⟩
    · rw [List.mem_singleton.mp hc]
      exact ⟨by decide +kernel, tTag_true rfl rfl, rfl, by decide +kernel, rfl⟩

/-- The round-1 frame of a lane that reports telegram 8 of the test station. -/
def tR1 : Round1 := { cyc := 5, cands := [(0, 8)] }

/-- Agreement: round-1 frames before the freeze and as the last one, a target to fetch and one to keep, an answered fetch,
round 2, and the end with a target that is held, that is not, and that is absent. -/
theorem witness_Agreement :
    let st (h : Field → Field) : State := tTakes (some 1) fun l => { l with
      cyc := { l.cyc with frozen := true }, field := h { l.field with r1 := l.field.r1.put .b (some tR1) } }
    let fr := tFrame (tTel 8 (tTag 8))
    let fetch := st fun f => { f with r1Done := true, targets := [(0, some 8)], fetches := [0], store := [(0, some (.a, fr))] }
    let own := st fun f => { f with cands := [(0, some (tCand 8))] }
    let ended (h : Field → Field) := st fun f => h { f with r1Done := true, r2Sent := true }
    let third : Lane := { (st id).la with field := { (st id).la.field with r1 := (st id).la.field.r1.put .c (some tR1) } }
    (∀ h : Field → Field, RunsCycle (st h) .a tFieldImg) ∧
    (let s := tTakes (some 1) id
     RunsCycle s .a tFieldImg ∧ s.la.serves .b = true ∧ tR1.cyc = s.la.cyc.num ∧ s.la.field.r1Done = false ∧ s.la.cyc.frozen = false) ∧
    ((st id).la.serves .c = true ∧ (st id).la.field.r1Done = false ∧ (st id).la.cyc.frozen = true ∧ third.heardAll .a = true ∧
      (st id).la.heardAll .a = false) ∧
    ((st id).la.field.targets = [] ∧ (st id).la.field.hold = [] ∧ (st id).la.field.fetches = [] ∧ 0 < tFieldImg.stations.length ∧
      newest (reportsFor ((st id).la.reports .a) 0) = some 8 ∧ (st id).la.candIs 0 8 = none ∧
      newest (reportsFor (own.la.reports .a) 0) = some 8 ∧ own.la.candIs 0 8 = some (tCand 8)) ∧
    (Mem.get none fetch.la.field.store 0 = some (.a, fr) ∧ 0 ∈ fetch.la.field.fetches ∧ fetch.la.field.r2Sent = false ∧
      fr.coderErr = 0 ∧ tFieldImg.tableSound netTable 0 = true ∧ tFieldImg.tableSound paramTable 0 = true ∧
      frameOk (tFieldImg.netOf .a) fr = true ∧
      (match fetch.la.telStation tFieldImg .a fr.srcIp fr.data with | .ok p => p == 0 | .error _ => false) = true ∧
      stationSound tFieldImg 0 = true ∧ fetch.la.telTagOk .a ((tFieldImg.stations[0]?.map (·.stnId)).getD 0) fr.data = true ∧
      fetch.la.telLate 0 (fetch.la.codeTel 0 .a fr.data fetch.la.cyc.num 0) fetch.la.cyc.num = none ∧
      Mem.get none fetch.la.field.targets 0 = some ((fetch.la.codeTel 0 .a fr.data fetch.la.cyc.num 0).seq.setWidth 16)) ∧
    (fetch.la.field.r1Done = true ∧ fetch.la.cyc.agreed = false ∧ fetch.la.serves .a = true) ∧
    (∀ h : Field → Field, h = id ∨ h = (fun f => { f with targets := [(0, some 8)] }) ∨
        h = (fun f => { f with targets := [(0, some 8)], hold := [(0, some (tCand 8))], r2 := f.r2.put .b (some { cyc := 5, held := [0] }) }) →
      (ended h).la.field.r2Sent = true ∧ (ended h).la.cyc.agreed = false ∧ dAgree tFieldImg.hdr ≤ dAgree tFieldImg.hdr ∧
      dAgree tFieldImg.hdr < dAgree tFieldImg.hdr + 1 ∧ (ended h).la.field.agreed = [] ∧ (ended h).la.lio.gotSet = false) ∧
    (let all := (ended fun f => { f with r2 := PerLane.const (some { cyc := 5, held := [] }) }).la
     tAll (fun y => (all.field.r2.get y).isSome) = true ∧ all.field.r2Sent = true ∧ all.cyc.agreed = false) ∧
    (let held (f : Field) : Field :=
       { f with targets := [(0, some 8)], hold := [(0, some (tCand 8))], r2 := f.r2.put .b (some { cyc := 5, held := [0] }) }
     2 ≤ (ended held).la.holders .a 0 ∧ (ended held).la.copyOf 0 8 = some (tCand 8)) := by
  refine ⟨fun h => ⟨rfl, rfl, rfl, rfl⟩, ⟨⟨rfl, rfl, rfl, rfl⟩, by decide +kernel, rfl, rfl, rfl⟩, by decide +kernel,
    by decide +kernel, ⟨rfl, by decide, rfl, rfl, test_tablesSound.1, test_tablesSound.2.1, by decide +kernel, by decide +kernel, by decide +kernel, tTag_true rfl rfl, by decide +kernel,
      by decide +kernel⟩, by decide +kernel, ?_, by decide +kernel, by decide +kernel⟩
  rintro h (rfl | rfl | rfl) <;> exact ⟨rfl, rfl, Nat.le_refl _, Nat.lt_succ_self _, rfl, rfl⟩

/-- Lane A with sound outbound half-words of value 0 in its cycle, every node retired, and a change. -/
def tOutputs (h : Lane → Lane) : State :=
  tCycle fun l => h { l with
    store := { l.store with
      bitmap := [(0, true), (1, true), (2, true)]
      out := (stationOutKeys tStation 0 ++ (tPlain.outNbs.flatMap fun p => nbOutKeys p.2 p.1.val) ++ localKeys).foldl
        (fun m k => Mem.set 0 m k (encode 0 0 (sigKey outByte k) 5)) [] }
    cyc := { l.cyc with corr := true } }

/-- The digest frame of a lane in cycle 5. -/
def tDigest (shadow : Bool) (whole : BitVec 128) : DigestFrame := { cyc := 5, shadow := shadow, whole := whole, stn := [] }

/-- DigestsAndVotes: words that decode and one that does not, frames of a lane in service and of one in shadow, a vote with
every ballot in and with one by D_vote, the votes of three equal digests, of an outvoted lane and of no pair. -/
theorem witness_DigestsAndVotes :
    let s := tOutputs id
    let bad := tCycle fun l => { s.la with store := { s.la.store with out := [] } , boot := l.boot }
    let shadow := (tCycle fun l => { l with vote := { l.vote with
      service := { allLanes with b := false }, codes := l.vote.codes.put .b 5 } }).la
    let ballots (b : PerLane (Option DigestFrame)) : State := tCycle fun l => { l with
      vote := { l.vote with own := b.a, digs := b } }
    let d (w : BitVec 128) : Option DigestFrame := some (tDigest false w)
    let g : SealFrame := { cyc := 5, tags := none }
    (RunsCycle s .a tPlain ∧ s.la.cyc.corr = true ∧ s.la.cyc.digSent = false ∧ s.la.cyc.drop = none ∧
      s.la.missingRetire tPlain.hdr.nodes = none ∧ (s.la.digest .a tPlain).isSome = true) ∧
    (RunsCycle bad .a tPlain ∧ bad.la.cyc.corr = true ∧ bad.la.cyc.digSent = false ∧ bad.la.cyc.drop = none ∧
      bad.la.missingRetire tPlain.hdr.nodes = none ∧ (bad.la.digest .a tPlain).isSome = false) ∧
    (LaneId.b ≠ .a ∧ (tDigest true 1).cyc = s.la.cyc.num ∧ s.la.serves .b = true ∧ s.la.cyc.voted = false ∧
      (tDigest true 1).shadow = true ∧ shadow.serves .b = false ∧ shadow.codeOf .b = 5 ∧ (tDigest false 1).shadow = false) ∧
    (∀ b, RunsCycle (ballots b) .a tPlain ∧ (ballots b).la.cyc.voted = false ∧ (ballots b).la.ptn.role = 0 ∧
      (ballots b).la.fail.ho = .idle ∧ dVote tPlain.hdr ≤ dVote tPlain.hdr) ∧
    ((ballots { a := d 1, b := d 1, c := d 1 }).la.ballotsIn .a = true ∧
      (ballots { a := d 1, b := d 1, c := none }).la.ballotsIn .a = false) ∧
    (let r (b : PerLane (Option DigestFrame)) := settleVote (ballots b).la.vote.service ((ballots b).la.ballots .a)
     (r { a := d 1, b := d 1, c := d 1 }).outcome = 0 ∧ (r { a := d 1, b := d 1, c := d 2 }).outvoted = some .c ∧
       (r { a := d 1, b := d 2, c := d 3 }).sealed = false) ∧
    (g.cyc = s.la.cyc.num ∧ s.la.cyc.guard = false ∧ (5 : Cycle) = s.la.cyc.num) :=
  ⟨⟨⟨rfl, rfl, rfl, rfl⟩, rfl, rfl, rfl, by decide +kernel, by decide +kernel⟩,
   ⟨⟨rfl, rfl, rfl, rfl⟩, rfl, rfl, rfl, by decide +kernel, by decide +kernel⟩,
   by decide +kernel, fun b => ⟨⟨rfl, rfl, rfl, rfl⟩, rfl, rfl, rfl, Nat.le_refl _⟩, by decide +kernel, by decide +kernel,
   by decide +kernel⟩

/-- GuardStarts: an ordinary cycle, every 16th with each slice, a word, none, and each end of the seal. -/
theorem witness_GuardStarts :
    let s (h : Lane → Lane) : State := tOutputs fun l => h { l with
      tx := [(.j4, .a)]
      cyc := { l.cyc with voted := true, sealed := true }
      vote := { l.vote with pair := some .ab, tags := l.vote.tags.put .a (some { cyc := 5, tags := some ([], []) }) } }
    let both (l : Lane) : Lane := { l with vote := { l.vote with
      tags := l.vote.tags.put .b (some { cyc := 5, tags := some ([], []) }) } }
    let sixteen (l : Lane) : Lane := { l with cyc := { l.cyc with num := 16 }, bist := { l.bist with supBad := true } }
    let unsealed (l : Lane) : Lane := { l with cyc := { l.cyc with sealed := false } }
    (∀ h, h = id ∨ h = both ∨ h = sixteen ∨ h = unsealed → RunsCycle (s h) .a tPlain ∧ (s h).la.cyc.guard = false ∧
      (s h).la.cyc.voted = true ∧ dSeal tPlain.hdr ≤ dSeal tPlain.hdr ∧ (s h).la.pwr.want = none) ∧
    ((s sixteen).la.cyc.num.toNat % 16 = 0 ∧ (s sixteen).sup.warnNow = false ∧ (s sixteen).la.bist.supBad = true ∧
      (s id).la.cyc.num.toNat % 16 ≠ 0) ∧
    ((s id).la.serves .a = true ∧ (s id).la.active = true ∧ (s id).la.cyc.drop = none ∧ (s id).la.cyc.sealed = true ∧
      (s id).la.localWord 5 = some 0 ∧ (s unsealed).la.cyc.sealed = false) ∧
    ((s id).la.sealsNow = true ∧ (s id).la.transmits .a = true ∧ (s id).la.settlePair = none ∧
      (s both).la.settlePair = some (.ab, false)) ∧
    ((s both).la.serves .a = true ∧ (s both).la.active = true ∧ (s both).la.cyc.drop = none ∧ (s both).la.cyc.sealed = true ∧
      (s both).la.cyc.notice = false ∧ (s both).la.localWord 5 = some 0) := by
  refine ⟨?_, by decide +kernel, by decide +kernel, by decide +kernel, by decide +kernel⟩
  rintro h (rfl | rfl | rfl | rfl) <;> exact ⟨⟨rfl, rfl, rfl, rfl⟩, rfl, rfl, Nat.le_refl _, rfl⟩

/-- A snapshot base of a cycle with nothing in it. -/
def tBase (n : Cycle) : SnapBase :=
  { cyc := n, bcnCur := n, bcnPrev := n - 1, nodes := [], timers := [], owners := [], acc := 0, stns := [], borders := [],
    forces := [], epoch := 0, sepoch := 0 }

/-- PeersLinksAndSnapshots: frames of this cycle and the next, a link whose loss leaves no lane alone and one whose loss
does, each kind of port, and a lane at each step of its return. -/
theorem witness_PeersLinksAndSnapshots :
    let s := tHost id
    let f (n : Cycle) : LaneStatus :=
      { cyc := n, arrival := 0, relayed := false, service := allLanes, overs := noLanes, takeover := false, code := 5,
        mode := 1, dropped := false, outvotes := PerLane.const 0, seats := [], devNext := none, devPrev := none, links := 7,
        relays := false, portDown := 0 }
    let back (code : BitVec 4) : Lane := (tCycle fun l => { l with
      vote := { l.vote with service := { allLanes with a := false }, codes := l.vote.codes.put .a code }
      re := { l.re with source := some .b } }).la
    let alone : State := { s with links := 3 &&& ~~~1 }
    (s.la.live = true ∧ s.la.mode.armed = true ∧ s.la.cyc.running = true ∧ LaneId.b ≠ .a ∧ (f 5).cyc = s.la.cyc.num ∧
      (f 6).cyc = s.la.cyc.num + 1 ∧ (back 5).serves .a = false ∧ (f 5).code ≠ 1) ∧
    ((s.lane (linkEnds .ab).1).live = true ∧ ({ s with links := 2 } : State).links &&& ~~~(1#3 <<< linkNum .bc) = 0 ∧
      alone.isolatedLane = some .a ∧ s.la.serves .a = true ∧ s.lb.mode.armed = true ∧ s.lb.serves .a = true) ∧
    (Port.j4 ≠ .j9 ∧ Port.j4 ≠ .j10 ∧ s.sessions = [tSess]) ∧
    (s.la.serves .a = true ∧ (back 3).live = true ∧ (back 3).codeOf .a = 3 ∧ (back 3).re.source = some .b ∧
      (back 4).codeOf .a = 4 ∧ (back 4).re.source = some .b ∧ (back 4).re.baseOk = false ∧ (back 4).snapSource .a = some .b ∧
      s.route .a .b = some false) ∧
    (let late : Lane := { back 4 with cyc := { (back 4).cyc with num := 69 }, re := { (back 4).re with base := some (tBase 5) } }
     late.live = true ∧ late.codeOf .a = 4 ∧ late.re.baseOk = false ∧ late.re.base = some (tBase 5) ∧
       (tBase 5).cyc.toNat + 64 ≤ late.cyc.num.toNat ∧ late.snapSource .a = some .b) := by
  decide +kernel

/-! ## The field controller -/

/-- The module of the node tests with a change of its FCU. -/
def tFcu (h : Fcu → Fcu) : State := { tHost id with fcu := h Fcu.init }

/-- A BOUNDARY frame of cycle 5 from an ACTIVE lane at an instant. -/
def tBound (seq : Half) (at_ : Nat) : BoundaryFrame :=
  { crcOk := true, seq := seq, cyc := 5, excluded := false, active := true, mask := 0, at_us := at_ }

/-- FcuFrames: a frame out of sequence, a single frame that opens the next cycle, one that finds a frame of its cycle within
0.5 ms, a cycle without frames, and a set not yet latched. -/
theorem witness_FcuFrames_cycles :
    let ran := tFcu fun u => { u with
      cyc := 4, first := some 0, b2 := some 0, held := PerLane.const (some { tBound 1 0 with cyc := 4 })
      seqB := PerLane.const (some 1), latched := true, active := true }
    let pair := tFcu fun u => { u with held := u.held.put .b (some (tBound 1 100)) }
    (ran.fcu.seqB.get .a = some 1 ∧ (tBound 3 501).seq ≠ 1 + 1 ∧ (tBound 2 501).seq = 1 + 1) ∧
    (tAll (fun y => (ran.fcu.held.get y).all fun h => h.cyc != 5) = true ∧ ran.fcu.first = some 0 ∧
      (tBound 2 501).cyc ≠ ran.fcu.cyc ∧ ran.fcu.b2.getD 0 + 500 < (tBound 2 501).at_us ∧
      (tBound 2 501).cyc.ult ran.fcu.cyc = false ∧ (tBound 2 501).cyc = ran.fcu.cyc + 1 ∧ ran.fcu.b2.isSome = true) ∧
    (pair.fcu.seqB.get .a = none ∧ pair.fcu.held.get .b = some (tBound 1 100) ∧ (tBound 1 100).cyc = (tBound 2 600).cyc ∧
      (tBound 2 600).at_us ≤ (tBound 1 100).at_us + 500 ∧ pair.fcu.held.get (LaneId.third .a .b) = none ∧ pair.fcu.first = none) ∧
    (ran.fcu.latched = true ∧ ({ ran.fcu with latched := false, present := allLanes } : Fcu).b2.isSome = true ∧
      ran.fcu.active = decide (2 ≤ ({ ran.fcu with present := allLanes } : Fcu).present.count)) := by
  decide +kernel

/-- FcuFrames: the first frame of a cycle, the second one at the end of its time, a set after b2, COMMAND frames in and out of
sequence, votes for a word and for HOLD, and sets that the lane takes and does not. -/
theorem witness_FcuFrames :
    let first := tFcu fun u => { u with
      cyc := 5, first := some 100, held := u.held.put .a (some (tBound 1 100)), seqB := PerLane.const (some 1) }
    let old := tFcu fun u => { u with cyc := 4, first := some 0, b2 := some 0, seqB := PerLane.const (some 1) }
    let c (w : Option (BitVec 32)) : CommandFrame := { crcOk := true, seq := 2, cyc := 4, word := w }
    let set (w : Option (BitVec 32)) := tFcu fun u => { u with
      cyc := 5, first := some 0, b2 := some 9, present := { allLanes with c := false }, active := true,
      cmds := { a := some (c w), b := some (c w), c := none }, seqC := PerLane.const (some 1) }
    let votes (w : Option (BitVec 32)) (p : Option (BitVec 32) → Bool) : Nat :=
      (LaneSet.those fun y => (set w).fcu.present.has y && (match (set w).fcu.cmds.get y with
        | none => false
        | some d => d.cyc + 1 == (set w).fcu.cyc && p d.word)).count
    let z : CycleSet := { (set none).fcu.cycleSet with seq := 8 }
    let lane := tCycle fun l => { l with lio := { l.lio with seqIn := some 7 } }
    ({ tBound 1 0 with crcOk := false }.crcOk = false) ∧
    ((∀ q, (tFcu id).fcu.seqB.get .a = some q → (tBound 1 0).seq = q + 1) ∧ (tFcu id).fcu.first = none ∧
      (∀ q, old.fcu.seqB.get .a = some q → (tBound 2 0).seq = q + 1) ∧ (tBound 2 0).cyc ≠ old.fcu.cyc) ∧
    ((∀ q, first.fcu.seqB.get .b = some q → (tBound 2 600).seq = q + 1) ∧ (tBound 2 600).cyc = first.fcu.cyc ∧
      first.fcu.first = some 100 ∧ first.fcu.b2 = none ∧ (tBound 2 600).at_us ≤ 100 + 500 ∧
      2 ≤ (match exec (.fcuBoundaryRx .b (tBound 2 600)) first with | .next t => t.fcu.present.count | _ => 0)) ∧
    ((set none).fcu.b2.isSome = true ∧ (set none).fcu.active = decide (2 ≤ (set none).fcu.present.count) ∧
      (set none).fcu.applied = false) ∧
    ((c none).crcOk = true ∧ (∀ q, (set none).fcu.seqC.get .a = some q → (c none).seq = q + 1) ∧
      first.fcu.seqC.get .a = none ∧ ∃ q, (set none).fcu.seqC.get .a = some q ∧ (8 : Half) ≠ q + 1) ∧
    (2 ≤ votes none (fun w => w.isNone) ∧ votes (some 1) (fun w => w.isNone) = 0) ∧
    (lane.la.live = true ∧ z.crcOk = true ∧ (∀ q, lane.la.lio.seqIn = some q → z.seq = q + 1) ∧
      ∃ q, lane.la.lio.seqIn = some q ∧ ({ z with seq := 7 } : CycleSet).seq ≠ q + 1) := by
  refine ⟨by decide, ⟨?_, by decide, ?_, by decide⟩, ⟨?_, by decide +kernel⟩, by decide +kernel, ⟨rfl, ?_, by decide +kernel, 1, by decide +kernel⟩,
    by decide +kernel, ⟨by decide +kernel, by decide +kernel, ?_, 7, by decide +kernel⟩⟩
  · intro q h; cases h
  · intro q h; cases h; decide
  · intro q h; cases h; decide
  · intro q h; cases h; decide
  · intro q h; cases h; decide

/-- A local input with filter 3 in domain 0. -/
def tInput : LocalIn := { ch := 0, domain := 0, filter := 3, crc := 0 }

/-- A local group by MODE. -/
def tGroup (mode : Byte) : LocalGrp :=
  { grp := 0, mode := mode, pepOff := 0, pepPer := 10, used := 0xFF, tDeg := 60, crc := 0 }

/-- Entries of zeros with their checks, at their indexes. -/
def tTable (size n : Nat) : List Byte :=
  (List.range n).flatMap fun k => tZeros size (entryCrc (List.replicate (size - 4) 0) k)

/-- A passed pre-check gives the FCU the filter limits and the group modes of the image (R144, R154, R215). -/
theorem test_fcuTakesMap :
    let img := { tGood with
      localIn := [tInput], localGrp := [{ tGroup 1 with pepOff := 100 }]
      sections := [[], [], [], [], [], tTable 12 32 ++ tTable 16 4] }
    let s := tStart fun l => { l with boot := { l.boot with img := some img } }
    let t := s.giveMap s.la .a
    let u := (s.modLane .a fun l => l.formSet .a).giveMap s.la .a
    s.fcu.limit 0 = none ∧ t.fcu = s.fcu ∧ u.la.boot.stage = 5 ∧ u.fcu.limit 0 = some 3 ∧ u.fcu.degrades 0 = true ∧
      u.fcu.tDeg 0 = 60 := by
  decide +kernel

/-- FcuInputs: a level above, between and below the thresholds, a counter that reaches its limit and one that reaches 0, an
input and a read-back path before and at the third pass, presses at each limit, and a latched group with and without a
cause. -/
theorem witness_FcuInputs :
    let base (f : FcuIn → FcuIn) (g : FcuGrp → FcuGrp) (h : FcuCh → FcuCh) : Fcu := (tFcu fun u => { u with
      localIn := [tInput], inputs := u.inputs.set 0 (f u.inputs[0]), groups := u.groups.set 0 (g u.groups[0])
      chans := u.chans.set 0 (h u.chans[0]), active := true }).fcu
    let i := (base (fun x => { x with pathFail := true, passRun := 2 }) id id)
    (let u := base (fun x => { x with c := 2, raw := true }) id id
     u.limit 0 = some 3 ∧ u.limit 1 = none ∧ u.limit 32 = some 20 ∧ (90 : Int) ≤ 90 ∧ (80 : Int) ≤ 80 ∧ (80 : Int) < 85 ∧ (85 : Int) < 90 ∧
       min (u.inputs[0].c + 1) 3 = 3 ∧ (base id id id).inputs[0].c - 1 = 0 ∧ u.inputs[0].c - 1 = 1) ∧
    ((base id id id).inputs[0].pathFail = false ∧ i.inputs[0].pathFail = true ∧ 2 ≤ i.inputs[0].passRun ∧ i.fault = false ∧
      i.domainLow 0 = false) ∧
    (let u := base id (fun x => { x with st := .normal }) fun c => { c with rbLost := true, rbPass := 2, fault := 4 }
     u.groups[groupOf 0].st ≠ .degraded ∧ u.chans[0].rbLost = true ∧ 2 ≤ u.chans[0].rbPass ∧ u.chans[0].fault = 4 ∧
       (base id id id).chans[0].rbLost = false) ∧
    (100 ≤ 100 ∧ 49 < 50 ∧ 2000 ≤ 2000 ∧ 50 ≤ 50 ∧ 1999 < 2000 ∧ (tFcu id).sup.warnNow = false ∧
      ({ tFcu id with sup := { Supply.init with warnNow := true } } : State).sup.warnNow = true) ∧
    ([some (90 : Int)][(0 : Fin 33).val]? = some (some 90) ∧ ([(none : Option Int)][(0 : Fin 33).val]?).join = none) ∧
    (let u := base id (fun x => { x with st := .latched }) id
     let v := base id (fun x => { x with st := .latched, warn := true }) id
     u.groups[0].st = .latched ∧ u.causePresent 0 = false ∧ v.causePresent 0 = true ∧ u.groups[1].st ≠ .latched ∧ u.active = true) := by
  decide +kernel

/-- OutputChannels: each hypothesis on a channel, and its group in each state that counts, with MODE 0 and MODE 1. -/
theorem witness_OutputChannels :
    let u (mode : Byte) (st : GrpSt) (h : FcuCh → FcuCh) : Fcu := (tFcu fun u => { u with
      localGrp := [tGroup mode], groups := u.groups.set 0 { u.groups[0] with st := st, vpr := true }
      chans := u.chans.set 0 (h u.chans[0]) }).fcu
    let on (c : FcuCh) : FcuCh := { c with on := true, cmd := true, pulse := true, cur := Config.openLoad }
    ((u 0 .normal id).chans[0].on = false ∧ (u 0 .normal id).groups[groupOf 0].st = .normal ∧
      (u 0 .degraded id).groups[groupOf 0].st = .degraded ∧ (u 0 .off id).groups[groupOf 0].st = .off ∧
      (u 0 .latched id).groups[groupOf 0].st = .latched) ∧
    ((u 0 .normal fun c => { c with on := true }).chans[0].isOn = true ∧ (u 0 .supplyLow id).groups[groupOf 0].st = .supplyLow ∧
      ({ u 0 .normal id with groups := (u 0 .normal id).groups.map fun x => { x with waitVpr := true } } : Fcu).groups[groupOf 0].waitVpr
        = true ∧ (u 0 .normal id).chans[0].isOn = false ∧ (u 0 .normal id).groups[groupOf 0].waitVpr = false) ∧
    (let v := u 0 .normal fun c => { c with hold := true, cmd := true }
     v.chans[0].hold = true ∧ v.chans[0].cmd = true) ∧
    (let v := u 0 .normal fun c => { c with on := true }
     v.chans[0].on = true ∧ (∀ k : Fin 32, groupOf k = groupOf 0 → v.chans[k].pulse = false) ∧ (tFcu id).sup.warnNow = false) ∧
    ((u 0 .normal id).chans[0].on = false ∧ ({ Supply.init with warnNow := true } : Supply).warnNow = true ∧
      groupOf 0 = groupOf 0 ∧ (u 0 .normal fun c => { c with pulse := true }).chans[0].pulse = true) ∧
    (let v := u 0 .degraded fun c => { c with pulse := true, rbLost := true }
     v.chans[0].pulse = true ∧ v.chans[0].void = false ∧ v.chans[0].rbLost = true ∧ v.groups[groupOf 0].st = .degraded ∧
       v.groups[groupOf 0].st ≠ .normal) ∧
    (let v := u 0 .normal fun c => { c with pulse := true, void := true }
     v.chans[0].pulse = true ∧ v.chans[0].void = true ∧ v.chans[0].on = false) ∧
    (let v := u 0 .normal on
     v.chans[0].pulse = true ∧ v.chans[0].void = false ∧ v.chans[0].on = true ∧ v.chans[0].rbLost = false ∧
       v.groups[groupOf 0].st = .normal ∧ v.chans[0].fault ≠ 3 ∧ Config.openLoad ≤ v.chans[0].cur) ∧
    ((u 0 .normal on).degrades 0 = false ∧ (u 1 .normal on).degrades 0 = true) ∧
    ((u 0 .normal fun c => { on c with cur := 0 }).chans[0].cur < Config.openLoad) := by
  refine ⟨by decide +kernel, by decide +kernel, by decide +kernel, by decide +kernel, by decide +kernel, by decide +kernel,
    by decide +kernel, ⟨rfl, rfl, rfl, rfl, rfl, by decide +kernel, Nat.le_refl _⟩, ⟨rfl, rfl⟩, Nat.add_pos_left (by decide) _⟩

/-- OutputGroups: a group in each state that a clause asks for, voltages at the thresholds, and togglers. -/
theorem witness_OutputGroups :
    let s (mode : Byte) (x : FcuGrp → FcuGrp) : State :=
      { tFcu (fun u => { u with localGrp := [tGroup mode], groups := u.groups.set 0 (x u.groups[0]), active := true }) with
        la := (tCycle fun l => { l with lio := { l.lio with toggle := 1, degLeft := l.lio.degLeft.put .a (some 0) } }).la
        lb := (tCycle fun l => { l with lio := { l.lio with toggle := 1 } }).la }
    (let u := (s 0 fun x => { x with check := true }).fcu
     u.active = true ∧ u.groups[0].st = .off ∧ u.groups[0].check = true ∧ (s 0 id).fcu.groups[0].check = false) ∧
    ((s 0 fun x => { x with st := .off }).fcu.groups[0].st = .off ∧ (s 0 fun x => { x with uv := true }).fcu.groups[0].uv = true ∧
      (s 0 fun x => { x with uv := true }).fcu.groups[0].st ≠ .supplyLow ∧ (s 0 id).fcu.groups[0].degLeft = none ∧
      (s 0 id).lb.lio.deg 0 ≠ some 0 ∧ 16800 ≤ 16800 ∧ 19200 ≤ 19200 ∧ (s 0 id).fcu.groups[0].uv = false) ∧
    (let u := ({ (s 0 id).fcu with b2 := some 0, present := allLanes } : Fcu)
     2 ≤ u.present.count ∧ u.b2.isSome = true ∧ ({ u with active := false } : Fcu).active = false) ∧
    (2 ≤ (s 0 id).togglers 0 ∧ (s 0 id).fcu.groups[0].cut = false ∧ (s 0 id).fcu.fault = false ∧ (s 0 id).togglers 1 < 2 ∧
      (s 0 fun x => { x with st := .degraded, cut := true }).fcu.groups[0].cut = true ∧ (s 0 id).fcu.b2 = none) ∧
    (let u := ({ (s 0 fun x => { x with st := .degraded, cut := true }).fcu with b2 := some 0 } : Fcu)
     u.b2.isSome = true ∧ u.present.count < 2 ∧ u.active = true ∧ u.groups[0].st = .degraded ∧ u.groups[0].cut = true) ∧
    (16799 < 16800 ∧ (s 0 fun x => { x with st := .normal }).fcu.groups[0].st = .normal ∧ (s 1 id).fcu.degrades 0 = true) ∧
    (let low (x : FcuGrp) : FcuGrp := { x with st := .supplyLow, uv := true }
     let u := (s 1 low).fcu
     u.groups[0].uv = true ∧ 19200 < 19201 ∧ u.groups[0].st = .supplyLow ∧ u.degrades 0 = true ∧ u.groups[0].degExp = false ∧
       (s 0 low).fcu.degrades 0 = false ∧ (s 1 fun x => { low x with degExp := true }).fcu.groups[0].degExp = true) ∧
    (let u := (s 1 fun x => { x with st := .degraded, degLeft := some 5 }).fcu
     u.groups[0].degLeft.isSome = true ∧ u.groups[0].st = .degraded ∧
       (s 1 fun x => { x with st := .supplyLow, degLeft := some 5 }).fcu.groups[0].st ≠ .degraded) ∧
    (s 1 id).la.lio.deg 0 = some 0 := by
  decide +kernel

/-! ## Partner, ring and power -/

/-- Partner keys of zeros of the module in slot 9. -/
def tPeer : PeerKey := { slot := 9, purpose := 0x48, gen := 6, keys := PerLane.const 0 }

/-- The bytes of a heartbeat of slot 9 for cycle 5 that its tags cover: ROLE 0, epoch 2, pair AB. -/
def tBeatHead : List Byte :=
  [1, 0x48, 9, 0, 0, 0, 0, 2, 0, 0, 0, 0, 0, 5, 0, 0, 0, 0, 0, 2] ++ List.replicate 50 0 ++ [1, 0]

/-- A heartbeat with a tag in each place. -/
def tBeatBytes (tag : BitVec 64) : List Byte := tBeatHead ++ bytesOf tag ++ bytesOf tag

/-- The tag that zero keys give it. -/
def tBeatTag : BitVec 64 := tagOf 0 tBeatHead

/-- What the module reads in it. -/
def tBeatRead : Heartbeat :=
  { slot := 9, role := 0, areaId := 2, cyc := 5, flags := 0, epoch := 2, sepoch := 0, lanes := 0, digest := 0,
    bdig := 0, img := 0, gen := 0, hoAt := 0, pair := 1 }

/-- A lane that holds the partner keys finds that tag right. -/
theorem tBeat_true {l : Lane} (h : l.nv.peers = [tPeer]) :
    l.heartbeatTrue tPlain tBeatRead (tBeatBytes tBeatTag) = true := by
  have len : ∀ g : BitVec 64, (bytesOf g).length = 8 := fun g => length_bytesOf g
  have s0 : slice (tBeatBytes tBeatTag) 0 0x48 = tBeatHead := by
    rw [tBeatBytes, List.append_assoc, slice, List.drop_zero, List.take_left' (by decide)]
  have s1 : slice (tBeatBytes tBeatTag) 0x48 8 = bytesOf tBeatTag := by
    rw [tBeatBytes, List.append_assoc, slice, List.drop_left' (by decide), List.take_left' (len _)]
  have s2 : slice (tBeatBytes tBeatTag) 0x50 8 = bytesOf tBeatTag := by
    rw [tBeatBytes, slice, List.drop_left' (by rw [List.length_append, len]; rfl), List.take_of_length_le (by rw [len])]
  have k : l.partnerKeys 9 = [tPeer] := by rw [Lane.partnerKeys, h]; rfl
  have p : pairOfByte tBeatRead.pair = some .ab := by decide
  have q : (tBeatRead.slot == tPlain.partnerSlot) = true := by decide
  simp only [Lane.heartbeatTrue, p, q, s0, s1, s2, ofBytes_bytesOf _ (show 64 % 8 = 0 from rfl)]
  rw [show tBeatRead.slot = 9 from rfl, k]
  show (true && ((tBeatTag == tBeatTag && tBeatTag == tBeatTag) || false)) = true
  simp

/-- A ring frame of a class from a slot to all, that lanes A to C receive. -/
def tRing (cls src : Byte) : RingRx :=
  { port := .east, lanes := allLanes, ether := 0x88B5, fcsOk := true, resid := 0,
    hdr := { ver := 1, cls := cls, dst := 0xFE, src := src, dir := 0, hops := 0, len := 0, seq := 3, res := 0 } }

/-- Lane A takes such a frame when the change keeps what matters. -/
theorem tTakesFrame {h : Lane → Lane} {r : RingRx} (a : r.lanes.has .a = true)
    (b : ((tCycle h).la.onRing && (tCycle h).la.ringTakes r && !((tCycle h).la.ring.window r.hdr.src).contains r.hdr.seq) = true) :
    TakesFrame (tCycle h) r .a := by
  simp only [Bool.and_eq_true, Bool.not_eq_true', List.contains_eq_mem, decide_eq_false_iff_not] at b
  exact ⟨a, b.1.1, b.1.2, b.2⟩

/-- HeartbeatsHeard: a heartbeat with the right tags on each path, one with wrong tags, and an ACTIVE of a lower epoch. -/
theorem witness_HeartbeatsHeard :
    let s := tCycle fun l => { l with nv := { l.nv with peers := [tPeer] }, ptn := { l.ptn with epoch := 1 } }
    let t := tCycle id
    let m := s.la
    (m.live = true ∧ m.boot.img = some tPlain ∧ m.hasPartner = true ∧ m.ptn.role ≠ 4) ∧
    (parseHeartbeat (tBeatBytes tBeatTag) = some tBeatRead ∧ parseHeartbeat (tBeatBytes 0) = some tBeatRead) ∧
    (m.meter.portDown.getLsbD 8 = false ∧ m.heartbeatTrue tPlain tBeatRead (tBeatBytes tBeatTag) = true) ∧
    (m.cyc.num = tBeatRead.cyc ∧ m.cyc.agreed = false ∧ (10000 : Int) ≤ (dAgree tPlain.hdr : Nat) * 100 ∧ tBeatRead.cyc ≠ 0) ∧
    (m.ptn.role ≠ 3 ∧ m.mode.armed = true ∧ m.ptn.role = 0 ∧ m.fail.ho = .idle ∧ tBeatRead.role = 0 ∧
      m.ptn.epoch.toNat < tBeatRead.epoch.toNat) ∧
    (m.tooEarly tBeatRead = false ∧ m.cyc.judged = false ∧
      ({ m with cyc := { m.cyc with judged := true } } : Lane).tooEarly tBeatRead = false ∧
      ({ m with cyc := { m.cyc with num := tBeatRead.cyc - 1 } } : Lane).tooEarly tBeatRead = true) ∧
    (t.la.live = true ∧ t.la.heartbeatTrue tPlain tBeatRead (tBeatBytes 0) = false) ∧
    ((tRing 0x10 9).fcsOk = true ∧ (tRing 0x10 9).hdr.cls = 0x10 ∧ TakesFrame s { tRing 0x10 9 with lanes := noLanes.put .a true } .a) :=
  ⟨by decide +kernel, by decide +kernel, ⟨rfl, tBeat_true rfl⟩, by decide +kernel, by decide +kernel, by decide +kernel, by decide +kernel,
   by decide +kernel, by decide +kernel, tTakesFrame rfl (by decide +kernel)⟩

/-- SNAP_END for a digest with the tags that zero keys give it. -/
def tEnd (d : BitVec 256) : SnapEnd :=
  { digest := d, pair := 1, gen := 6, tag1 := tagOf 0 (bytesOf d), tag2 := tagOf 0 (bytesOf d) }

/-- A lane that holds the partner keys finds those tags right. -/
theorem tEnd_true {l : Lane} (h : l.nv.peers = [tPeer]) (d : BitVec 256) : l.endTrue tPlain (tEnd d) = true := by
  have e : l.endTrue tPlain (tEnd d) = (l.partnerKeys 9).any fun k => k.gen == 6 && tagsHold k .ab (bytesOf d) (tEnd d).tag1 (tEnd d).tag2 := rfl
  have k : l.partnerKeys 9 = [tPeer] := by rw [Lane.partnerKeys, h]; rfl
  rw [e, k]
  show ((true && (tagOf 0 (bytesOf d) == tagOf 0 (bytesOf d) && tagOf 0 (bytesOf d) == tagOf 0 (bytesOf d))) || false) = true
  simp

/-- PartnerFrames: a standby before its first segment, between segments and at SNAP_END with a digest of its base and with
another, an active and a dormant module. -/
theorem witness_PartnerFrames :
    let s (role : BitVec 4) (re : Reentry) : Lane := (tCycle fun l => { l with
      ptn := { l.ptn with role := role, snapReq := true }, re := re, nv := { l.nv with peers := [tPeer] } }).la
    let r (since : Option Cycle) : Reentry := { Reentry.init with base := some (tBase 5), since := since }
    ((s 1 Reentry.init).wantsBase .a = true ∧ (s 1 Reentry.init).re.base = none) ∧
    ((s 1 (r none)).wantsBase .a = true ∧ (s 1 (r none)).re.base = some (tBase 5) ∧ (tBase 5).cyc = (tBase 5).cyc ∧
      (s 1 (r none)).re.since = none ∧ (s 1 (r none)).re.base.isSome = true) ∧
    (∀ d, (s 1 (r (some 5))).wantsBase .a = true ∧ (s 1 (r (some 5))).boot.img = some tPlain ∧
      (s 1 (r (some 5))).re.base = some (tBase 5) ∧ (s 1 (r (some 5))).re.since = some (tBase 5).cyc ∧
      (s 1 (r (some 5))).endTrue tPlain (tEnd d) = true) ∧
    (Config.baseDigest (tBase 5) = (tEnd (Config.baseDigest (tBase 5))).digest ∧
      Config.baseDigest (tBase 5) ≠ (tEnd (Config.baseDigest (tBase 5) + 1)).digest) ∧
    ((s 0 Reentry.init).live = true ∧ (s 0 Reentry.init).mode.armed = true ∧ (s 0 Reentry.init).ptn.role = 0 ∧
      (List.replicate 80 (0 : Byte)).length = 80) ∧
    ((s 3 Reentry.init).live = true ∧ (s 3 Reentry.init).mode.armed = true ∧
      ({ s 3 Reentry.init with pwr := { Pwr.init with mode := 2 } } : Lane).pwr.mode = 2 ∧
      ({ s 3 Reentry.init with pwr := { Pwr.init with mode := 2 } } : Lane).pwr.wakeDue = false ∧
      (s 3 Reentry.init).ptn.role = 3) ∧
    ((tBase 5).cyc ≠ (tBase 6).cyc ∧ (s 1 (r (some 5))).re.since.isSome = true ∧
      (s 1 Reentry.init).meter.portDown.getLsbD 8 = false ∧
      ({ s 1 Reentry.init with meter := { Meter.init with portDown := 0x100 } } : Lane).meter.portDown.getLsbD 8 = true) := by
  refine ⟨by decide +kernel, by decide +kernel, fun d => ⟨by decide +kernel, rfl, rfl, rfl, tEnd_true rfl d⟩, ⟨rfl, ?_⟩,
    by decide +kernel, by decide +kernel, by decide +kernel⟩
  show Config.baseDigest (tBase 5) ≠ Config.baseDigest (tBase 5) + 1
  bv_omega

/-- PowerModes: a lane of each kind that a clause asks for, and the ends of the handshake's time and blocks. -/
theorem witness_PowerModes :
    let s (h : Lane → Lane) : Lane := (tCycle h).la
    let wake : WakeEnv := { count := 32769, clock := { (tEnv 0 []).clock with monitors := false } }
    (let n := s fun l => { l with
       boot := { l.boot with img := some { tPlain with params := { tPlain.params with standby := 1 } } }
       ptn := { l.ptn with role := 3 }, pwr := { l.pwr with mode := 2 }, fail := { l.fail with dozeCyc := 1000000 } }
     n.mayCrossToSlumber = true ∧ (s id).mayCrossToSlumber = false ∧ n.live = true ∧ n.pwr.mode = 2 ∧ n.ptn.role = 3) ∧
    (let n := s fun l => { l with pwr := { l.pwr with mode := 2 } }
     n.live = true ∧ n.pwr.mode = 2 ∧ n.ptn.role ≠ 3) ∧
    (let n := s fun l => { l with pwr := { l.pwr with mode := 3 } }
     n.live = true ∧ n.pwr.mode = 3 ∧ n.mode.armed = true ∧ wake.clock.monitors = false) ∧
    (let n := s fun l => { l with ptn := { l.ptn with role := 3 }, pwr := { l.pwr with mode := 3, wakeDue := true } }
     n.live = true ∧ n.ptn.role = 3 ∧ n.pwr.wakeDue = true ∧ n.pwr.mode = 3 ∧ (crystalSteps (tEnv 0 []).clock n.clk).2 = 0 ∧
       (tEnv 0 []).clock.monitors = true ∧ (s id).pwr.mode.ult 2 = true ∧
       (s fun l => { l with boot := { l.boot with inReset := true } }).live = false ∧
       (s fun l => { l with ptn := { l.ptn with role := 3 } }).pwr.wakeDue = false) ∧
    (s id).mayWait = true ∧
    (let n := s fun l => { l with vote := { l.vote with codes := l.vote.codes.put .a 2 }, pwr := { l.pwr with rolled := true } }
     n.handshakes .a = true ∧ n.pwr.hs = .idle ∧ n.pwr.rolled = true ∧ 1000 ≤ 1000 ∧ 999 < 1000) ∧
    (∀ b, b = 13 ∨ b = 14 → (s fun l => { l with pwr := { l.pwr with hs := .asking b } }).pwr.hs = .asking b) := by
  refine ⟨by decide +kernel, by decide +kernel, by decide +kernel, by decide +kernel, by decide +kernel, by decide +kernel, fun _ _ => rfl⟩

/-- Fields and values of a BORDER frame for cycle 5 with a pair byte: areas 2, one segment of 4 half-words, epoch 1. -/
def tBorderHead (pair : Byte) : List Byte :=
  [0, 0, 0, 2, 0, 0, 0, 2, 0, 0, 0, 0, 0, 5, 1, pair, 0, 0, 0, 1, 0, 0, 0, 1, 0, 0, 0, 4, 0, 1, 0, 2, 0, 3, 0, 4]

/-- That frame with the tags that zero keys give it. -/
def tBorder (pair : Byte) : List Byte :=
  tBorderHead pair ++ bytesOf (tagOf 0 (tBorderHead 0)) ++ bytesOf (tagOf 0 (tBorderHead 0))

/-- Lane A with border keys of zeros from slot 20, a sound neighbour record and a change. -/
def tBorders (h : Lane → Lane) : State :=
  tCycle fun l => h { l with
    boot := { l.boot with img := some tFieldImg }
    nv := { l.nv with peers := [{ slot := 20, purpose := 0x42, gen := 1, keys := PerLane.const 0 }] } }

/-- The tags of that frame hold. -/
theorem tBorder_tagged :
    borderTagged { slot := 20, purpose := 0x42, gen := 1, keys := PerLane.const 0 } (tBorder 1) = true := by
  have len : ∀ g : BitVec 64, (bytesOf g).length = 8 := fun g => length_bytesOf g
  have n : 0x1C + 2 * beAt (tBorder 1) 0x1A 2 = 36 := by decide +kernel
  have p : pairOfByte (byteAt (tBorder 1) 0x0F) = some .ab := by decide +kernel
  have s0 : (slice (tBorder 1) 0 36).set 0x0F 0 = tBorderHead 0 := by
    rw [tBorder, List.append_assoc, slice, List.drop_zero, List.take_left' (by decide)]
    decide
  have s1 : slice (tBorder 1) 36 8 = bytesOf (tagOf 0 (tBorderHead 0)) := by
    rw [tBorder, List.append_assoc, slice, List.drop_left' (by decide), List.take_left' (len _)]
  have s2 : slice (tBorder 1) (36 + 8) 8 = bytesOf (tagOf 0 (tBorderHead 0)) := by
    rw [tBorder, slice, List.drop_left' (by rw [List.length_append, len]; rfl), List.take_of_length_le (by rw [len])]
  simp only [borderTagged, n, p, s0, s1, s2, ofBytes_bytesOf _ (show 64 % 8 = 0 from rfl)]
  show (tagOf 0 (tBorderHead 0) == tagOf 0 (tBorderHead 0) && tagOf 0 (tBorderHead 0) == tagOf 0 (tBorderHead 0)) = true
  simp

/-- A lane of those keys takes the frame where it is newer than the last. -/
theorem tBorder_ok {l : Lane} {b : Bool} (k : l.nv.peers = [{ slot := 20, purpose := 0x42, gen := 1, keys := PerLane.const 0 }])
    (f : l.ring.nbs[(0 : Fin 8)].fresh 1 5 = b) :
    l.borderCheck tFieldImg 20 (tBorder 1) = if b then .ok (0, borderSeg 20 (tBorder 1)) else .error .old := by
  have r : ∃ r, tFieldImg.nbsOf = [((0 : Fin 8), r)] ∧ r.used.getLsbD 0 = true ∧ r.nbArea = 2 ∧ r.inCount = 4 ∧ r.keyGen = 1 :=
    ⟨_, rfl, rfl, rfl, rfl, rfl⟩
  obtain ⟨r, hr, hu, ha, hi, hg⟩ := r
  have a0 : ofBytes 32 (slice (tBorder 1) 0 4) = 2 := by decide +kernel
  have a1 : ofBytes 32 (slice (tBorder 1) 4 4) = 2 := by decide +kernel
  have a2 : ofBytes 32 (slice (tBorder 1) 0x14 4) = 1 := by decide +kernel
  have n : borderNb tFieldImg (tBorder 1) = some (0, r) := by
    simp only [borderNb, a0, a1, hr]
    simp [hu, ha, show tFieldImg.params.areaId = 2 from rfl]
  have sh : borderShape 4 (tBorder 1) = true := by decide +kernel
  have bk : l.borderKeys r 20 1 = some { slot := 20, purpose := 0x42, gen := 1, keys := PerLane.const 0 } := by
    simp only [Lane.borderKeys, k, hg]
    rfl
  have ep : (borderSeg 20 (tBorder 1)).epoch = 1 := by decide +kernel
  have cy : (borderSeg 20 (tBorder 1)).cyc = 5 := by decide +kernel
  simp only [Lane.borderCheck, n, hi, show (4 : Half).toNat = 4 from rfl, sh, a2, bk, tBorder_tagged, ep, cy, f]
  cases b <;> rfl

/-- RingFrames: a port that sends, frames of every class from another slot, a CENSUS of the own slot, a delay answer that is
awaited, and a BORDER segment that is taken, too short of its shape, without a pair, and too old. -/
theorem witness_RingFrames :
    let s := tCycle id
    let other : Census := { mid := mid + 1, areaId := 0, partner := 0, role := 0, gen := 0, stage := 0 }
    let asked (l : Lane) : Lane := { l with ring := { l.ring with probeE := some 8 } }
    let error (r : Except BorderFail (Fin 8 × BorderSeg)) : Option BorderFail := match r with
      | .error e => some e
      | .ok _ => none
    let late (l : Lane) : Lane := { l with ring := { l.ring with nbs := l.ring.nbs.set 0 { NbState.init with last := some (1, 5) } } }
    (([Port.j6, .j7].filterMap s.txLane).head? = some .a ∧ s.la.boot.img = some tPlain ∧ (s.txLane .j6).isSome = true ∧
      (s.txLane .j7).isSome = true) ∧
    (∀ c, c = (1 : Byte) ∨ c = 2 → (tRing c 9).hdr.cls = c ∧ TakesFrame s (tRing c 9) .a) ∧
    ((tRing 1 7).hdr.cls = 1 ∧ (tRing 1 7).lanes.has .a = true ∧ s.la.onRing = true ∧ s.la.ringAdmits (tRing 1 7) = true ∧
      (tRing 1 7).hdr.src = tPlain.own ∧ other.mid ≠ mid) ∧
    (s.txLane (ringPortOf .east) = some .a ∧ s.txLane (ringPortOf (tRing 2 9).port) = some .a ∧ s.la.onRing = true) ∧
    ((tRing 3 9).hdr.cls = 3 ∧ TakesFrame (tCycle asked) (tRing 3 9) .a ∧
      (tCycle asked).la.ring.probe (tRing 3 9).port = some 8) ∧
    (∀ h : Lane → Lane, h = id ∨ h = late → (tRing 0x20 20).hdr.cls = 0x20 ∧ TakesFrame (tBorders h) (tRing 0x20 20) .a ∧
      (tBorders h).la.boot.img = some tFieldImg ∧ (tBorders h).la.takesBorder = true) ∧
    (0x2C ≤ (tBorder 1).length ∧ 0x2C ≤ (tBorder 0).length ∧ 0x2C ≤ (List.replicate 44 (0 : Byte)).length ∧ nbSound tFieldImg 0 = true ∧
      ((borderNb tFieldImg (tBorder 1)).map (·.1) = some 0 ∧ (borderNb tFieldImg (tBorder 0)).map (·.1) = some 0 ∧
        (borderNb tFieldImg (List.replicate 44 0)).map (·.1) = none)) ∧
    ((tBorders id).la.borderCheck tFieldImg 20 (tBorder 1) = .ok (0, borderSeg 20 (tBorder 1)) ∧
      (tBorders late).la.borderCheck tFieldImg 20 (tBorder 1) = .error .old ∧
      error ((tBorders id).la.borderCheck tFieldImg 20 (tBorder 0)) = some .tag ∧
      error ((tBorders id).la.borderCheck tFieldImg 20 (List.replicate 44 0)) = some .format) := by
  have ok : (tBorders id).la.ring.nbs[(0 : Fin 8)].fresh 1 5 = true := by decide +kernel
  have old : (tBorders fun l => { l with ring := { l.ring with
      nbs := l.ring.nbs.set 0 { NbState.init with last := some (1, 5) } } }).la.ring.nbs[(0 : Fin 8)].fresh 1 5 = false := by
    decide +kernel
  refine ⟨by decide +kernel, ?_, ⟨rfl, rfl, rfl, by decide +kernel, rfl, ?_⟩, by decide +kernel,
    ⟨rfl, tTakesFrame rfl (by decide +kernel), rfl⟩, ?_, by decide +kernel, tBorder_ok rfl ok, tBorder_ok rfl old,
    by decide +kernel, by decide +kernel⟩
  · rintro c (rfl | rfl) <;> exact ⟨rfl, tTakesFrame rfl (by decide +kernel)⟩
  · show mid + 1 ≠ mid
    bv_omega
  · rintro h (rfl | rfl) <;> exact ⟨rfl, tTakesFrame rfl (by decide +kernel), rfl, by decide +kernel⟩

/-! ## Host connections -/

/-- A tunnel of the gateway 7 to slot 9 whose data starts at 4. -/
def tTunnel : Tunnel :=
  { gateway := true, peer := 9, tid := 2, conn := 6, maint := false, sent := 0, acked := 0, recv := 4, unacked := [1],
    queue := [] }

/-- A tunnel body. -/
def tBody (opn : Bool) (off : Word) (data : List Byte) : TunnelBody :=
  { tid := 2, opn := opn, cls := false, mnt := false, off := off, ack := 0, data := data }

/-- TunnelsAndConnections: data in sequence at the gateway, an OPEN, a named tunnel, a preamble of the own slot, of another and
of none, and handshakes of each kind, where the uninterpreted functions accept the client's chain. -/
theorem witness_TunnelsAndConnections (secret : BitVec 384) (chain : List Cert) (c : Cert)
    (hc : ∀ n : Nv, n.anchors = [c] → n.clientOk chain = true) :
    let s := tCycle fun l => { l with nv := { l.nv with secret := some secret, anchors := [c] } }
    let t : State := { s with tunnels := [tTunnel] }
    let conn : Conn := { id := 6, maint := false, ownJ10 := false, tunnel := none, tuple := [] }
    let u : State := { s with conns := [conn] }
    let hello (suite group : Half) : TlsHello :=
      { suite := suite, group := group, scheme := 0x0503, psk := false, early := false, random := 0, chain := chain,
        finished := allLanes, tapOk := allLanes }
    ((tRing 0x30 9).hdr.cls = 0x30 ∧ TakesFrame s (tRing 0x30 9) .a ∧ t.la = s.la ∧ (tBody false 4 [1]).data.length ≤ 1400 ∧
      t.tunnelOf (tRing 0x30 9).hdr.src (tBody false 4 [1]) = some tTunnel ∧ (tBody false 4 [1]).cls = false ∧
      tTunnel.gateway = true ∧ (tBody false 4 [1]).data ≠ [] ∧ (tBody false 4 [1]).off = tTunnel.recv) ∧
    ((tBody true 0 []).opn = true ∧ (tBody true 0 []).cls = false ∧ (tBody true 0 []).data = [] ∧ (tBody true 0 []).tid.toNat < 16 ∧
      s.tunnelOf (tRing 0x30 9).hdr.src (tBody true 0 []) = none ∧ s.terminated = 0) ∧
    t.tunnelNamed 7 2 = some tTunnel ∧
    (s.txLane .j9 = some .a ∧ s.txLane .j10 = some .a ∧ s.connUsed 6 = false ∧ (7 : Byte).toNat < 64 ∧ 7 = s.la.ownSlot ∧
      64 ≤ (64 : Byte).toNat ∧ (9 : Byte) ≠ s.la.ownSlot ∧ s.ringOwn = some 7 ∧ s.freeTid 9 = some 0) ∧
    ((u.conns.find? fun d => d.id == 6) = some conn ∧ (hello 0x1301 0x18).suite ≠ 0x1302 ∧ (hello 0x1302 0x17).scheme = 0x0503 ∧
      (hello 0x1302 0x17).group ≠ 0x0018 ∧ (hello 0x1302 0x18).suite = 0x1302 ∧ (hello 0x1302 0x18).group = 0x0018 ∧
      u.txLane conn.port = some .a ∧ u.la.nv.secret = some secret ∧
      u.sessions.length + (u.conns.filter fun d => d.tunnel.isSome && d.id != 6).length < 8 ∧
      (u.sessions.filter (·.maint)).length < 2 ∧ u.la.accepts .a conn (hello 0x1302 0x18) = true) := by
  refine ⟨⟨rfl, tTakesFrame rfl ?_, rfl, by decide, rfl, rfl, rfl, by decide, rfl⟩, ⟨rfl, rfl, rfl, by decide, rfl, rfl⟩, rfl,
    ⟨rfl, rfl, rfl, by decide, rfl, by decide, ?_, rfl, rfl⟩,
    ⟨rfl, ?_, rfl, ?_, rfl, rfl, rfl, rfl, Nat.zero_lt_succ 7, Nat.zero_lt_succ 1, ?_⟩⟩
  · have h : ((tCycle id).la.onRing && (tCycle id).la.ringTakes (tRing 0x30 9) &&
        !((tCycle id).la.ring.window (tRing 0x30 9).hdr.src).contains (tRing 0x30 9).hdr.seq) = true := by decide +kernel
    exact h
  · show (9 : Byte) ≠ 7
    decide
  · show (0x1301 : Half) ≠ 0x1302
    decide
  · show (0x17 : Half) ≠ 0x0018
    decide
  · have h : (tCycle id).la.meter.portDown.getLsbD 7 = false := by decide +kernel
    rw [Lane.accepts, hc _ rfl]
    show (true && true && !(tCycle id).la.meter.portDown.getLsbD 7 && true && true) = true
    rw [h]
    rfl

/-- SessionsEnd: an open session, and a module in ACTIVE and one in standby on each network. -/
theorem witness_SessionsEnd :
    let s := tHost fun l => { l with boot := { l.boot with img := some tFieldImg } }
    let t := tCycle fun l => { l with ptn := { l.ptn with role := 1 }, boot := { l.boot with img := some tFieldImg } }
    s.session 1 = some tSess ∧ s.txLane .j4 = some .a ∧ s.txLane .j5 = some .c ∧ s.la.boot.img = some tFieldImg ∧
    s.lc.boot.img = some tFieldImg ∧ s.la.active = true ∧ s.lc.active = true ∧ t.txLane .j4 = some .a ∧ t.la.active = false ∧
    t.la.boot.img = some tFieldImg ∧ tFieldImg.stations[0]? = some tStation ∧ tFieldImg.tableSound netTable 0 = true ∧
    stationSound tFieldImg 0 = true := by
  decide +kernel

/-- SessionSetAndOutputCommandsComplete, the revocation: a true signature and a number above the last one. -/
theorem witness_RevocationCompletes :
    let h (n : Nv) : Nv := { n with claims := [sha384 tAuthPub], secret := some 5, wsSeq := [(4, 1)] }
    let r := tWsReg 2
    (tProv false h).session 1 = some tMaint ∧ tMaint.maint = true ∧ tMaint.comm = false ∧ r.action = 2 ∧
    r.eph.length = 97 ∧ r.wrap.length = 40 ∧ ∀ x, let l := (tProv false h).lane x
      l.signedBy (bytesOf r.wsId ++ [r.action] ++ bytesOf r.seq ++ r.eph ++ r.wrap) r.sig ∧
      ∀ q, (l.nv.wsSeq.find? fun p => p.1 == r.wsId) = some q → q.2.toNat < r.seq.toNat := by
  intro h r
  refine ⟨rfl, rfl, rfl, rfl, by decide +kernel, by decide +kernel, fun x => ⟨tProv_signed (by cases x <;> rfl) (test_wsSigned 2 (.inr rfl)), ?_⟩⟩
  cases x <;>
    (intro q hq
     obtain rfl : ((4, 1) : Word × Word) = q := Option.some.inj hq
     exact Nat.one_lt_two)

/-- SessionSetAndOutputCommandsComplete, the other clauses: a session, both networks, a lane in START, and channels and groups
in the states that the clauses ask for. -/
theorem witness_SessionSetAndOutputCommandsComplete :
    let s := tHost fun l => { l with boot := { l.boot with img := some tFieldImg } }
    let u (h : FcuCh → FcuCh) (k : FcuGrp → FcuGrp) : State :=
      { tFcu (fun u => { u with localGrp := [tGroup 0], active := true, groups := u.groups.set 0 (k u.groups[0])
                                chans := u.chans.set 0 (h u.chans[0]) }) with
        la := (tCycle fun l => { l with lio := { l.lio with toggle := 1, degLeft := l.lio.degLeft.put .a (some 0) } }).la
        lb := (tCycle fun l => { l with lio := { l.lio with toggle := 1 } }).la }
    let v := u id id
    (s.session 1 = some tSess ∧ s.txLane .j4 = some .a ∧ s.txLane .j5 = some .c ∧ s.la.boot.img = some tFieldImg ∧
      s.lc.boot.img = some tFieldImg ∧ s.la.active = true ∧ s.lc.active = true ∧ tFieldImg.tableSound netTable 0 = true ∧
      tFieldImg.stations[0]? = some tStation ∧ stationSound tFieldImg 0 = true) ∧
    (let l := (tStart id).la
     l.live = true ∧ l.mode.armed = false ∧ LaneId.b ≠ .a ∧ l.boot.late = false ∧ l.boot.img = some tGood ∧
       l.boot.stage = 3 ∧ 2 ≤ (l.setOf .a).count) ∧
    (v.fcu.chans[0].on = false ∧ v.fcu.chans[0].pulse = false ∧ v.fcu.groups[groupOf 0].waitVpr = false ∧
      v.fcu.groups[groupOf 0].st ≠ .supplyLow) ∧
    (let w := (u (fun c => { c with on := true }) id).fcu
     w.chans[0].on = true ∧ (∀ k : Fin 32, groupOf k = groupOf 0 → w.chans[k].pulse = false) ∧ v.sup.warnNow = false) ∧
    (let c := (u (fun c => { c with hold := true, cmd := true }) id).fcu.chans[0]
     c.hold = true ∧ c.cmd = true) ∧
    (let c := (u (fun c => { c with pulse := true }) id).fcu.chans[0]
     c.pulse = true ∧ c.void = false ∧ c.rbLost = false) ∧
    (let x := (u id fun x => { x with check := true }).fcu
     x.active = true ∧ x.groups[0].st = .off ∧ x.groups[0].check = true) ∧
    (2 ≤ v.togglers 0 ∧ v.fcu.groups[0].cut = false ∧ v.fcu.fault = false ∧ v.togglers 1 < 2) ∧
    (19199 < 19200 ∧ 16799 < 16800 ∧ (u id fun x => { x with st := .normal }).fcu.groups[0].st = .normal ∧
      (u id fun x => { x with uv := true }).fcu.groups[0].uv = true ∧ 19200 < 19201) ∧
    (let x := (u id fun x => { x with st := .degraded, degLeft := some 5 }).fcu.groups[0]
     x.st = .degraded ∧ x.degLeft.isSome = true) ∧
    v.la.lio.deg 0 = some 0 := by
  decide +kernel

/-! ## Clocks, power and supplies -/

/-- ClocksInService: a watched domain and one whose gate is closed, calibrations at the ends of each range, both meters'
counts at the ends of their windows, and a converter that failed before. -/
theorem witness_ClocksInService :
    let m (h : Lane → Lane) : Lane := (tCycle h).la
    let open_ := m fun l => { l with clk := { l.clk with gates := 0x1FFFF, cal := 15000, convRun := l.clk.convRun.set 0 1 } }
    (open_.live = true ∧ (∀ d : Fin 9, open_.clk.watched d.val = true) ∧ (m id).clk.watched 3 = false ∧ open_.clocked = true ∧
      (m fun l => { l with boot := { l.boot with inReset := true, alive := false } }).clocked = false) ∧
    (open_.acts = true ∧ open_.clk.coast = false ∧ (m fun l => { l with clk := { l.clk with coast := true } }).clk.coast = true ∧
      (m fun l => { l with boot := { l.boot with inReset := true } }).acts = false) ∧
    (11719 ≤ 15750 ∧ 15750 ≤ 19531 ∧ 20 * (15750 - open_.clk.cal) ≤ open_.clk.cal ∧ 20 * (open_.clk.cal - 15750) ≤ open_.clk.cal ∧
      11718 < 11719 ∧ 19531 < 19532) ∧
    (open_.boot.inReset = false ∧ open_.pwr.mode ≠ 3 ∧ open_.mode.armed = true ∧
      1 ≤ open_.clk.convRun.toList.getD (3 - 3) 0) ∧
    (let e := meterExpected 3
     100 * (e + e / 10 - e) ≤ 10 * e ∧ 100 * (e - (e + e / 10)) ≤ 10 * e ∧ 10 * e < 100 * (e + e / 10 + 1 - e)) := by
  decide +kernel

/-- RailsGatesAndPoints: gates under open and closed parents and over open and closed children, voltages and dividers at
their limits, and a hot lane at each point. -/
theorem witness_RailsGatesAndPoints :
    let m (h : Lane → Lane) : Lane := (tCycle h).la
    let gates (v : BitVec 17) : Lane := m fun l => { l with clk := { l.clk with gates := v } }
    let need (d : Nat) : Nat := if d < 8 then 900 else if d < 15 then 800 else 700
    (∃ g k, gateParent g = some k ∧ (gates 0).clk.gates.getLsbD k = false ∧ (gates 0x1FFFF).clk.gates.getLsbD k = true ∧
      (∃ j < 17, gateParent j = some k ∧ (gates 0x1FFFF).clk.gates.getLsbD j = true) ∧
      ∀ j < 17, gateParent j = some k → (gates 0).clk.gates.getLsbD j = false) ∧
    ((m id).acts = true ∧ (m id).clk.coast = false ∧ (m fun l => { l with clk := { l.clk with coast := true } }).clk.coast = true) ∧
    (need (min (m id).clk.seatCur.toNat (m id).clk.seatTgt.toNat) ≤ 900 ∧
      899 < need (min (m id).clk.seatCur.toNat (m id).clk.seatTgt.toNat) ∧ 4 ≤ (4 : BitVec 6).toNat ∧ (60 : BitVec 6).toNat ≤ 60 ∧
      need 4 ≤ (m id).pwr.mv ∧ (m fun l => { l with pwr := { l.pwr with mv := 800 } }).pwr.mv < need 7) ∧
    (let hot (o : BitVec 2) : Lane := m fun l => { l with pwr := { l.pwr with hot := true, op := o, admitOps := 7 } }
     (hot 0).live = true ∧ (hot 0).mode.armed = true ∧ (hot 0).pwr.hot = true ∧ (hot 2).pwr.op ≠ 3 ∧
       (hot 0).pwr.lowerPoint = some 1 ∧ (hot 1).pwr.lowerPoint = some 2 ∧ (hot 2).pwr.lowerPoint = none ∧ (hot 0).pwr.admitOps = 7) ∧
    (let cool := m fun l => { l with pwr := { l.pwr with tempSeen := true, tempNow := 95, op := 2 } }
     cool.live = true ∧ cool.mode.armed = true ∧ cool.pwr.tempSeen = true ∧ cool.pwr.tempNow ≤ 95 ∧ cool.pwr.op = 2) := by
  refine ⟨?_, by decide +kernel, by decide +kernel, by decide +kernel, by decide +kernel⟩
  exact ⟨1, 0, by decide +kernel, by decide +kernel, by decide +kernel, ⟨1, by decide, by decide +kernel, by decide +kernel⟩,
    by decide +kernel⟩

/-- SuppliesAndScrub: voltages at their thresholds, the source states that the clauses ask for, and dips at the ends of
their ranges. -/
theorem witness_SuppliesAndScrub :
    let s (p : Supply → Supply) : State := { tHost id with sup := p Supply.init }
    168 ≤ 168 ∧ 1600 ≤ (if (s id).sup.ov .main then 1540 else 1600) ∧
    1540 ≤ (if (s fun p => { p with mainOv := true }).sup.ov .main then 1540 else 1600) ∧ 180 < 181 ∧ 180 ≤ 180 ∧ (s id).sup.pref = true ∧ 159 < 160 ∧ 1600 < 1601 ∧
    (s fun p => { p with bkP := true }).sup.bkP = true ∧
    (let p := (s fun p => { p with mainP := true, mainV := 181, onBk := true }).sup
     p.mainP = true ∧ 180 < p.mainV ∧ p.onBk = true) ∧
    ((s id).sup.mainP = false ∧ (s id).sup.bkP = false ∧ (s id).sup.holdup = false) ∧
    (let p := (s fun p => { p with warnNow := true }).sup
     p.warnNow = true ∧ p.inReset = false ∧ (s id).fcu.heldPress = false) ∧
    ((s id).la.boot.inReset = false ∧ (s id).la.live = true) ∧ (9 < 10 ∧ 10 ≤ 10 ∧ 99 < 100 ∧ 999 < 1000 ∧ 1000 ≤ 1000) := by
  decide +kernel

/-! ## The coded word, timers, decoding and sessions -/

/-- CodedWords and RegisterTermsDiffer: every slot but 3, values at both ends, and two registers. -/
theorem witness_CodedWords : (2 : BitVec 2) ≠ 3 ∧ (0xFFFFFFFF : Word) ≠ 0 ∧ decode 2 (encode 2 0xFFFF 9 7) 9 7 = some 0xFFFF ∧
    decode 2 (encode 2 0xFFFF 9 7 + 1) 9 7 = none := by decide +kernel

/-- RegisterTermsDiffer: the first and the last register. -/
theorem witness_RegisterTermsDiffer : (0 : BitVec 2) ≠ 3 ∧ (15 : BitVec 4) ≠ 0 := by decide

/-- CheckValueUnits: the largest running value of each width. -/
theorem witness_CheckValueUnits : ∀ fn : BitVec 2, (BitVec.ofNat 64 (2 ^ (polyOf fn).width - 1)).toNat < 2 ^ (polyOf fn).width := by
  decide +kernel

/-- TimersExpire: the ends of the ranges of the count, the accumulator and T_CYCLE, and each of its conclusions. -/
theorem witness_TimersExpire :
    (1 : Half).toNat = 1 ∧ (16382 : Half).toNat ≤ 16382 ∧ 999 < 1000 ∧ 20 ≤ 20 ∧ 1000 ≤ 1000 ∧
    tExpired (timerAfter 999 1000 (tStarted false 1) 1) = true ∧ tExpired (timerAfter 999 20 (tStarted true 1) 100) = true ∧
    1000 * (1 + 1) ≤ 20 * 100 ∧ tExpired (timerAfter 0 20 (tStarted true 1) 50) = false := by decide +kernel

/-- EntriesDecode: an entry and its word. -/
theorem witness_EntriesDecode :
    encodeWord (.stn .a 0 { ck := 0, z := 0, index := 410 }) = some (.a, 0, 0x8000019A) ∧
    decodeWord .a 0 0x8000019A = some (.stn .a 0 { ck := 0, z := 0, index := 410 }) := by decide

/-- SessionLimitsKept: the module after reset and one with a session. -/
theorem witness_SessionLimitsKept : sessionLimits State.reset ∧ sessionLimits (tHost id) ∧
    ∃ t, step State.reset = .next t := ⟨⟨by decide, by decide⟩, ⟨by decide, by decide⟩, _, rfl⟩

/-! ## Results worked out by hand -/

/-- The check column of R123: each polynomial over the nine ASCII digits, by bytes and by half bytes. -/
theorem test_check_values : ∀ feed : Poly → Coded → Byte → Coded, feed = polyByte ∨ feed = polyNibbles →
    [0, 1, 2, 3].map (fun fn : BitVec 2 => let p := polyOf fn
      ([0x31, 0x32, 0x33, 0x34, 0x35, 0x36, 0x37, 0x38, 0x39].foldl (feed p) p.init) ^^^ p.fin) =
      [0xE3069283, 0xCBF43926, 0x29B1, 0x6C40DF5F0B497347] := by
  rintro feed (rfl | rfl) <;> decide +kernel

/-- The register `r` of seat 0 in lane A after a command holds a value under its own term (R74, R95). -/
def tGives (s : State) (i : Instr) (r : BitVec 4) (v : Half) : Bool :=
  match exec i s with
  | .next t => (t.la.seat 0).regs[r.toNat] == tReg r v
  | _ => false

/-- R82: CADD is clamped at 65535 and CSUB at 0, and CMP compares without sign. -/
theorem test_counts :
    tGives (tRun 0 0 [tWordOf (.cadd .a 0 (tG 4 1 2 0 0))] 65000 65000) (.cadd .a 0 (tG 4 1 2 0 0)) 4 65535 ∧
    tGives (tRun 0 0 [tWordOf (.csub .a 0 (tG 4 1 2 0 0))] 3 7) (.csub .a 0 (tG 4 1 2 0 0)) 4 0 ∧
    tGives (tRun 0 0 [tWordOf (.csub .a 0 (tG 1 1 2 0 0))] 7 3) (.csub .a 0 (tG 1 1 2 0 0)) 1 4 ∧
    tGives (tRun 0 0 [tWordOf (.cmp .a 0 (tG 4 1 2 0 2))] 1 0x8000) (.cmp .a 0 (tG 4 1 2 0 2)) 4 1 := by decide +kernel

/-- R90: a field of 4 bits at bit 6 of the half-word 0x1234 is 8. -/
theorem test_field : fieldIn { w := 0, e := 0, wid := 3, z := 0, off := 6 } (fun _ => 0x1234) = 8 := by decide

/-- R217, R221: a boundary frame more than 500 µs after the first fixes no b2. -/
theorem test_late_boundary :
    let s := tFcu fun u => { u with cyc := 5, first := some 100, held := u.held.put .a (some (tBound 1 100)) }
    (match exec (.fcuBoundaryRx .b (tBound 2 601)) s with | .next t => t.fcu.b2 == none | _ => false) = true := by
  decide +kernel

end Sys2Proof.Tests
end

section
/-!
PROOFS. What several of the proofs below need: values held for each lane, what sending leaves of the module, how messages cross
between lanes, and which lane answers a session.
-/
namespace Sys2Proof.Machine

/-! ## Lanes, and words given bit by bit -/

/-- What is put in a lane's place is read there, and nowhere else. -/
@[simp] theorem PerLane.get_put {α : Type} (p : PerLane α) (l x : LaneId) (v : α) :
    (p.put l v).get x = if x = l then v else p.get x := by
  cases l <;> cases x <;> rfl

/-- Of three lanes, one that is neither of two different ones is the third. -/
theorem LaneId.eq_third {l y z : LaneId} (hy : y ≠ l) (hz : z ≠ l) (hzy : z ≠ y) : z = l.third y := by
  cases l <;> cases y <;> cases z <;> simp_all [LaneId.third, LaneId.next, LaneId.prev]

@[simp] theorem LaneSet.put_has (v : LaneSet) (l x : LaneId) (b : Bool) : (v.put l b).has x = if x = l then b else v.has x := by
  cases l <;> cases x <;> rfl

@[simp] theorem allLanes_has (x : LaneId) : allLanes.has x = true := by cases x <;> rfl

/-- Two pairs of three lanes share a lane. -/
theorem LaneId.pairs_meet {x y p q : LaneId} (hxy : x ≠ y) (hpq : p ≠ q) : p = x ∨ p = y ∨ q = x ∨ q = y := by
  cases x <;> cases y <;> cases p <;> cases q <;> simp_all

/-- The bits that a word collects from a list of positions are those of its tests. -/
theorem foldl_bits_getLsbD (p : Fin 32 → Bool) (ks : List (Fin 32)) (w : BitVec 32) (k : Fin 32) :
    (ks.foldl (fun w k => if p k then w ||| (1#32 <<< k.val) else w) w).getLsbD k.val =
      (w.getLsbD k.val || (decide (k ∈ ks) && p k)) := by
  induction ks generalizing w with
  | nil => simp
  | cons j ks ih =>
    have bit : (1#32 <<< j.val).getLsbD k.val = decide (k = j) := by
      rw [BitVec.getLsbD_shiftLeft, BitVec.getLsbD_one]
      grind
    rw [List.foldl_cons, ih]
    by_cases e : k = j
    · subst e
      cases hp : p k <;> simp [-BitVec.getLsbD_eq_getElem, bit]
    · cases hp : p j <;> simp [-BitVec.getLsbD_eq_getElem, bit, e]

/-- Bit `k` of a word given by a test is the test of `k`. -/
theorem wordOf_getLsbD (p : Fin 32 → Bool) (k : Fin 32) : (wordOf p).getLsbD k.val = p k := by
  rw [wordOf, foldl_bits_getLsbD]
  simp

/-! ## What sending leaves of the module -/

theorem OnlySends.fcu_eq {u t : State} (h : OnlySends u t) : t.fcu = u.fcu := by rw [h.rest]
theorem OnlySends.links_eq {u t : State} (h : OnlySends u t) : t.links = u.links := by rw [h.rest]
theorem OnlySends.ports_eq {u t : State} (h : OnlySends u t) : t.ports = u.ports := by rw [h.rest]
theorem OnlySends.sessions_eq {u t : State} (h : OnlySends u t) : t.sessions = u.sessions := by rw [h.rest]

/-- What a lane sends to a peer that it reaches leaves the module (R13, R14). -/
theorem State.xsend_mem {s : State} {l m : LaneId} {r : Bool} (h : s.route l m = some r) (msg : XMsg) :
    .xl l m r msg ∈ (s.xsend l m msg).out := by
  simp [State.xsend, h]

/-- The event of changed state codes is all that telling them sends (R277). -/
theorem OnlySends.tellCodes (s : State) (x : LaneId) (l : Lane) : OnlySends s (s.tellCodes x l) := by
  unfold State.tellCodes
  split
  · exact notify ..
  · exact refl s

/-! ## Sessions and the lanes that act -/

/-- A session found by a number has that number. -/
theorem State.session_id {s : State} {sess : Nat} {k : Session} (h : s.session sess = some k) : k.id = sess := by
  simpa using List.find?_some h

@[simp] theorem State.begin_obeys (s : State) (k : Session) (x : LaneId) : s.begin.obeys k x = s.obeys k x := by
  simp [State.obeys]

/-- Messages cross by the links alone. -/
theorem State.route_congr {s t : State} (h : t.links = s.links) (x z : LaneId) : t.route x z = s.route x z := by
  simp [State.route, State.linkUp, h]

/-- The response lane rests on the transmit lanes, modes and starts of the lanes (R18, R381). -/
theorem State.respLane_congr {s t : State}
    (h : ∀ x, (t.lane x).tx = (s.lane x).tx ∧ (t.lane x).mode = (s.lane x).mode ∧ (t.lane x).boot = (s.lane x).boot)
    (k : Session) : t.respLane k = s.respLane k := by
  have tx : ∀ x p, (t.lane x).txOf p = (s.lane x).txOf p := fun x p => by rw [Lane.txOf, (h x).1]; rfl
  have mode : ∀ x, (t.lane x).mode = (s.lane x).mode := fun x => (h x).2.1
  have boot : ∀ x, (t.lane x).boot = (s.lane x).boot := fun x => (h x).2.2
  have live : ∀ x, (t.lane x).live = (s.lane x).live := fun x => by simp only [Lane.live, mode, boot]
  have bounded : t.hasBoundaries = s.hasBoundaries := by simp only [State.hasBoundaries, mode]
  unfold State.respLane State.txLane
  simp only [tx, live, boot, bounded]

/-- What one of several steps sends has left after all of them. -/
theorem OnlySends.foldl_mem {α : Type} {op : State → α → State} (h : ∀ s a, OnlySends s (op s a)) {as : List α} {a : α}
    (ha : a ∈ as) {o : Out} {u : State} (sends : ∀ t, OnlySends u t → o ∈ (op t a).out) : o ∈ (as.foldl op u).out := by
  induction as generalizing u with
  | nil => cases ha
  | cons b as ih =>
    rcases List.mem_cons.mp ha with rfl | later
    · exact (OnlySends.foldl h as _).mem (sends u (.refl u))
    · exact ih later fun t ht => sends t ((h u b).trans ht)

/-- A cast reaches each of the other lanes that a route leads to. -/
theorem State.xcast_mem {s : State} {l z : LaneId} {r : Bool} (hz : z ≠ l) (h : s.route l z = some r) (msg : XMsg) :
    .xl l z r msg ∈ (s.xcast l msg).out := by
  have peer : z = l.next ∨ z = l.prev := by cases l <;> cases z <;> simp_all [LaneId.next, LaneId.prev]
  rcases peer with rfl | rfl
  · exact (OnlySends.xsend ..).mem (State.xsend_mem h msg)
  · exact State.xsend_mem ((State.route_congr (OnlySends.xsend ..).links_eq ..).trans h) msg

/-- Drawing free values goes with sending. -/
theorem OnlySends.drawn (s : State) (n : Nat) : OnlySends s { s with freeCtr := n } :=
  { sent := ⟨[], by simp⟩, rest := rfl, lanes := fun x => by cases x <;> rfl }

end Sys2Proof.Machine
end

section
/-!
PROOFS. O20: reads of the voted view (spec/19_register_space.md R381), at a lane that a session's frames do not reach.
-/
namespace Sys2Proof.Machine

/-- A request at a lane that cannot answer its session changes nothing (R333, R381). -/
theorem exec_votedRequest_unheard {s : State} {sess : Nat} {k : Session} {l : LaneId} (hk : s.session sess = some k)
    (hl : s.hears k l = false) (req a : Word) (n : Nat) (m : Cycle) :
    exec (.votedViewRx l (.request sess req a n m)) s = .next s.begin := by
  have hl' : s.begin.hears k l = false := by simpa [State.hears] using hl
  simp only [exec, execVotedViewRx, State.serve, show s.begin.session sess = some k from hk]
  split
  · rfl
  · simp [hl']

/-- A host session on J9 that every lane holds. -/
def portSession : Session :=
  { id := 1, maint := false, comm := false, ownJ10 := false, tunnel := none, chain := [], own := [], lanes := allLanes,
    keyGen := PerLane.const 0, mask := 0, sels := PerLane.const Sels.init, latches := PerLane.const [] }

/-- A voted read of one register, of which Lane A, which answers it, alone holds the request. -/
def portRead : VRead :=
  { sess := 1, req := 7, sel := { lanes := noLanes, voted := true, z := 0 }, addr := 0x400, count := 1, m := 5, resp := .a,
    got := noLanes.put .a true, samples := PerLane.const none, counted := none, late := noLanes }

/-- A lane in service in cycle 4 of the logic that knows Lane A to transmit on J9; bits of `down` name its domains down. -/
def portLane (down : BitVec 9) : Lane :=
  { Lane.init with
    boot := { Boot.init with inReset := false, alive := true }
    mode := { ModeState.init with armed := true, mode := 1 }
    cyc := { CycState.init with num := 4, running := true }
    vote := { Vote.init with service := allLanes, codes := PerLane.const 1 }
    meter := { Meter.init with portDown := down }
    tx := [(.j9, .a)] }

/-- Three lanes in service, of which Lane B has its host ports down (domain 7, R333), and the read waiting. -/
def portState : State :=
  { State.reset with la := portLane 0, lb := portLane 0x80, lc := portLane 0, sessions := [portSession], reads := [portRead] }

/-- Lane B does not hear the session. -/
theorem portState_unheard : portState.hears portSession .b = false := by decide

/-- Refutes O20: a lane in service whose host ports are down does not hear the session (R333), so the request of a voted
read leaves no mark in it, where the statement has it among the lanes that have still to sample. -/
theorem not_votedReads : ¬ Obligations.VotedReads := by
  unfold Obligations.VotedReads
  rintro ⟨commands, -⟩
  obtain ⟨-, waiting⟩ := commands portState 1 7 portRead.sel 0x400 1 portSession .a .b .a portRead [] 0x400 1 5 (by decide)
    (by decide)
  obtain ⟨request, -⟩ := waiting (by decide)
  have marked := request (by decide) (by decide) (by decide) (by decide) (by decide) (by decide)
  rw [exec_votedRequest_unheard (by decide) portState_unheard] at marked
  injection marked with same
  have reads := congrArg State.reads same
  exact absurd reads (by decide)

end Sys2Proof.Machine
end

section
/-!
PROOFS. What the operations of the FCU change (spec/10_local_vital_io.md R217 to R233): the groups and the channels alone for
those that switch, the frame's own fields for the others.
-/
namespace Sys2Proof.Machine
namespace Fcu

/-- `g` is `f` but for its groups and channels. -/
structure SwitchesOnly (f g : Fcu) : Prop where
  eq : g = { f with groups := g.groups, chans := g.chans }

namespace SwitchesOnly

theorem active {f g : Fcu} (h : SwitchesOnly f g) : g.active = f.active := by rw [h.eq]
theorem cyc {f g : Fcu} (h : SwitchesOnly f g) : g.cyc = f.cyc := by rw [h.eq]
theorem first {f g : Fcu} (h : SwitchesOnly f g) : g.first = f.first := by rw [h.eq]
theorem b2 {f g : Fcu} (h : SwitchesOnly f g) : g.b2 = f.b2 := by rw [h.eq]
theorem present {f g : Fcu} (h : SwitchesOnly f g) : g.present = f.present := by rw [h.eq]
theorem inputs {f g : Fcu} (h : SwitchesOnly f g) : g.inputs = f.inputs := by rw [h.eq]
theorem applied {f g : Fcu} (h : SwitchesOnly f g) : g.applied = f.applied := by rw [h.eq]

theorem refl (f : Fcu) : SwitchesOnly f f := ⟨rfl⟩

theorem trans {f g h : Fcu} (a : SwitchesOnly f g) (b : SwitchesOnly g h) : SwitchesOnly f h := ⟨by rw [b.eq, a.eq]⟩

theorem foldl {α : Type} {op : Fcu → α → Fcu} (h : ∀ f a, SwitchesOnly f (op f a)) (as : List α) (f : Fcu) :
    SwitchesOnly f (as.foldl op f) := by
  induction as generalizing f with
  | nil => exact refl f
  | cons a as ih => exact (h f a).trans (ih _)

theorem modGrp (f : Fcu) (g : Fin 4) (h : FcuGrp → FcuGrp) : SwitchesOnly f (f.modGrp g h) := ⟨rfl⟩

theorem shut (f : Fcu) : SwitchesOnly f f.shut := ⟨by simp only [Fcu.shut]⟩

theorem drive (f : Fcu) (low : Bool) : SwitchesOnly f (f.drive low) := ⟨rfl⟩

theorem takeActive (f : Fcu) : SwitchesOnly f f.takeActive := ⟨rfl⟩

theorem latch (f : Fcu) (g : Fin 4) : SwitchesOnly f (f.latch g) := (modGrp f g _).trans (shut _)

theorem leaveActive (f : Fcu) : SwitchesOnly f f.leaveActive := by
  refine (foldl (fun f g => ?_) _ f).trans (shut _)
  dsimp only
  split
  · exact refl f
  · split
    · exact latch f g
    · exact modGrp f g _

theorem regain (f : Fcu) (g : Fin 4) : SwitchesOnly f (f.regain g) := by
  unfold Fcu.regain
  split
  · exact modGrp f g _
  · exact refl f

/-- Taking or leaving the role sets it, and switches. -/
theorem setActive (f : Fcu) (a : Bool) : SwitchesOnly { f with active := a } (f.setActive a) := by
  unfold Fcu.setActive
  split
  · next h => rw [beq_iff_eq] at h; subst h; exact refl f
  · split
    · next h => subst h; exact takeActive _
    · next h => rw [Bool.not_eq_true] at h; subst h; exact leaveActive _

/-- An application notes itself, sets the commands, and switches. -/
theorem apply (f : Fcu) (low : Bool) : SwitchesOnly { f with applied := true } (f.apply low) := by
  refine trans ?_ (foldl regain _ _)
  split
  · exact drive _ low
  · exact trans ⟨rfl⟩ (drive _ low)

end SwitchesOnly

/-! ## The role: every field but the groups and channels -/

@[simp] theorem setActive_active (f : Fcu) (a : Bool) : (f.setActive a).active = a := (SwitchesOnly.setActive f a).active
@[simp] theorem setActive_cyc (f : Fcu) (a : Bool) : (f.setActive a).cyc = f.cyc := (SwitchesOnly.setActive f a).cyc
@[simp] theorem setActive_first (f : Fcu) (a : Bool) : (f.setActive a).first = f.first := (SwitchesOnly.setActive f a).first
@[simp] theorem setActive_b2 (f : Fcu) (a : Bool) : (f.setActive a).b2 = f.b2 := (SwitchesOnly.setActive f a).b2
@[simp] theorem setActive_present (f : Fcu) (a : Bool) : (f.setActive a).present = f.present := (SwitchesOnly.setActive f a).present
@[simp] theorem setActive_inputs (f : Fcu) (a : Bool) : (f.setActive a).inputs = f.inputs := (SwitchesOnly.setActive f a).inputs
@[simp] theorem setActive_applied (f : Fcu) (a : Bool) : (f.setActive a).applied = f.applied := (SwitchesOnly.setActive f a).applied

/-- The role as it stands changes nothing. -/
theorem setActive_self {f : Fcu} {a : Bool} (h : f.active = a) : f.setActive a = f := by simp [setActive, h]

/-! ## The cycle's frames and b2 -/

/-- Settling the role once every frame is held leaves the FCU or takes the role from it (R222). -/
theorem settleFull_eq (f : Fcu) : f.settleFull = f ∨ f.settleFull = f.setActive false := by
  unfold settleFull settleRole
  split
  · split
    · exact .inr rfl
    · exact .inl rfl
  · exact .inl rfl

@[simp] theorem settleFull_cyc (f : Fcu) : f.settleFull.cyc = f.cyc := by rcases f.settleFull_eq with h | h <;> simp [h]
@[simp] theorem settleFull_first (f : Fcu) : f.settleFull.first = f.first := by rcases f.settleFull_eq with h | h <;> simp [h]
@[simp] theorem settleFull_b2 (f : Fcu) : f.settleFull.b2 = f.b2 := by rcases f.settleFull_eq with h | h <;> simp [h]
@[simp] theorem settleFull_present (f : Fcu) : f.settleFull.present = f.present := by
  rcases f.settleFull_eq with h | h <;> simp [h]

/-- With two lanes present the role stands as it is (R222). -/
theorem settleFull_of_two {f : Fcu} (h : 2 ≤ f.present.count) : f.settleFull = f := by
  have : ¬ f.present.count < 2 := by omega
  simp [settleFull, settleRole, this]

/-- A lane is present by a frame of the running cycle that counts, in time for b2 (R221). -/
theorem presentBy_has (f : Fcu) (t : Nat) (y : LaneId) :
    (f.presentBy t).has y = true ↔
      ∃ b, f.held.get y = some b ∧ b.cyc = f.cyc ∧ b.excluded = false ∧ b.active = true ∧ b.at_us ≤ t + 500 := by
  cases h : f.held.get y with
  | none => simp [presentBy, frameOf, h]
  | some b =>
    by_cases hc : b.cyc = f.cyc <;> simp [presentBy, frameOf, h, Option.filter, hc, and_assoc]

/-- Fixing b2 sets it and the lanes present, and the role with two of them (R217, R222). -/
theorem fixB2_fields (f : Fcu) (t : Nat) :
    (f.fixB2 t).b2 = some t ∧ (f.fixB2 t).present = f.presentBy t ∧ (f.fixB2 t).cyc = f.cyc ∧ (f.fixB2 t).first = f.first ∧
      (2 ≤ (f.presentBy t).count → (f.fixB2 t).active = true) := by
  by_cases first : f.b2.isNone = true <;> by_cases two : 2 ≤ (f.presentBy t).count <;>
    simp [fixB2, countLimits, first, two]

/-- Joining a cycle whose b2 is open, in time, fixes b2 and the lanes present, and the role with two of them (R217, R222). -/
theorem joinCycle_fields (f : Fcu) (l : LaneId) (b : BoundaryFrame) {t : Nat} (h2 : f.b2 = none) (ht : b.at_us ≤ t + 500) :
    let g := f.joinCycle l b t
    g.b2 = some b.at_us ∧ g.present = f.presentBy b.at_us ∧ g.cyc = f.cyc ∧ g.first = f.first ∧
      (2 ≤ g.present.count → g.active = true) := by
  let a : Fcu := { f with arrived := f.arrived ++ [(l, b.at_us)] }
  have joined : f.joinCycle l b t = (a.fixB2 b.at_us).settleFull := by simp [joinCycle, h2, ht, a]
  obtain ⟨hb, hp, hc, hf, ha⟩ := a.fixB2_fields b.at_us
  refine ⟨by simp [joined, hb], by simp [joined, hp]; rfl, by simp [joined, hc, a], by simp [joined, hf, a], ?_⟩
  intro two
  rw [joined, settleFull_present, hp] at two
  rw [joined, settleFull_of_two (by rwa [hp])]
  exact ha two

/-- A cycle that opens has no lane present, and keeps the role only as the next one after a fixed b2 (R15, R222). -/
theorem openCycle_fields (f : Fcu) (n : Cycle) (t : Nat) (l : LaneId) :
    let g := f.openCycle n t l
    g.first = some t ∧ g.cyc = n ∧ g.b2 = none ∧ g.present = noLanes ∧ g.applied = false ∧ g.inputs = f.inputs ∧
      (n = f.cyc + 1 → f.b2.isSome = true → g.active = f.active ∧ g.chans = f.chans ∧ g.groups = f.groups) ∧
      (n ≠ f.cyc + 1 ∨ f.b2 = none → g.active = false) := by
  refine ⟨rfl, rfl, rfl, rfl, rfl, ?_, fun next fixed => ?_, fun fails => ?_⟩
  · simp only [openCycle]
    split <;> simp
  · simp [openCycle, next, fixed]
  · have drops : ¬ (n == f.cyc + 1 && f.b2.isSome) = true := by
      rw [Bool.and_eq_true, beq_iff_eq]
      rintro ⟨next, fixed⟩
      rcases fails with h | h
      · exact h next
      · simp [h] at fixed
    unfold openCycle
    rw [if_neg drops]
    simp

/-- No lane has sent a frame of the cycle within 0.5 ms. -/
theorem pairOf_eq_none {f : Fcu} {l : LaneId} {n : Cycle} {t : Nat}
    (h : ∀ y k, y ≠ l → f.held.get y = some k → k.cyc = n → k.at_us + 500 < t) : f.pairOf l n t = none := by
  rw [pairOf, List.findSome?_eq_none_iff]
  intro y _
  split
  · rfl
  · next hy =>
    split
    · rfl
    · next k hk =>
      rw [if_neg]
      intro hit
      simp only [Bool.and_eq_true, beq_iff_eq, decide_eq_true_eq] at hit
      have := h y k (by simpa using hy) hk hit.1
      omega

/-- One lane alone has sent a frame of the cycle, and did so within 0.5 ms. -/
theorem pairOf_eq_some {f : Fcu} {l y : LaneId} {n : Cycle} {t : Nat} {k : BoundaryFrame} (hy : y ≠ l)
    (hk : f.held.get y = some k) (hn : k.cyc = n) (ht : t ≤ k.at_us + 500)
    (other : ∀ j, f.held.get (l.third y) = some j → j.cyc ≠ n) : f.pairOf l n t = some (y, k.at_us) := by
  have third : ∀ z, z ≠ l → z ≠ y → ∀ j, f.held.get z = some j → j.cyc ≠ n := fun z hz hzy =>
    LaneId.eq_third hy hz hzy ▸ other
  have find : ∀ z, (if z == l then none else match f.held.get z with
      | none => none
      | some h => if h.cyc == n && t ≤ h.at_us + 500 then some (z, h.at_us) else none) =
      if z = y then some (y, k.at_us) else none := by
    intro z
    by_cases hzy : z = y
    · subst hzy
      simp [hy, hk, hn, ht]
    · by_cases hz : z = l
      · simp [hz, hy.symm]
      · cases hj : f.held.get z with
        | none => simp [hz, hzy]
        | some j => simp [hz, hzy, third z hz hzy j hj]
  have all : f.pairOf l n t = laneList.findSome? fun z => if z = y then some (y, k.at_us) else none :=
    congrArg (fun p => laneList.findSome? p) (funext find)
  rw [all]
  cases y <;> rfl

/-- The FCU with the number of a lane's last BOUNDARY frame noted (R220). -/
def numbered (f : Fcu) (l : LaneId) (q : Half) : Fcu := { f with seqB := f.seqB.put l (some q) }

/-- The FCU with a frame noted as the last in sequence of its lane (R217). -/
def hold (f : Fcu) (l : LaneId) (b : BoundaryFrame) : Fcu := { f with held := f.held.put l (some b), mask := f.mask.put l b.mask }

/-- A frame of the running cycle joins it. -/
theorem boundary_joins {f : Fcu} {b : BoundaryFrame} {t : Nat} (l : LaneId) (hc : b.cyc = f.cyc) (hf : f.first = some t) :
    f.boundary l b = (f.hold l b).joinCycle l b t := by
  simp [boundary, hold, hc, hf]

/-- A frame of no running cycle that finds one other within 0.5 ms opens its cycle with that one (R217). -/
theorem boundary_pairs {f : Fcu} {l y : LaneId} {b k : BoundaryFrame} (hc : f.first = none ∨ b.cyc ≠ f.cyc) (hy : y ≠ l)
    (hk : f.held.get y = some k) (hn : k.cyc = b.cyc) (ht : b.at_us ≤ k.at_us + 500)
    (other : ∀ j, f.held.get (l.third y) = some j → j.cyc ≠ b.cyc) :
    f.boundary l b = ((f.hold l b).openCycle b.cyc k.at_us y).joinCycle l b k.at_us := by
  have none : (if b.cyc == f.cyc then f.first else none) = none := by
    rcases hc with h | h <;> simp [h]
  have third : l.third y ≠ l := by cases l <;> cases y <;> simp [LaneId.third, LaneId.next, LaneId.prev]
  have paired : (f.hold l b).pairOf l b.cyc b.at_us = some (y, k.at_us) :=
    pairOf_eq_some hy (by simpa [hold, hy] using hk) hn ht (by simpa [hold, third] using other)
  unfold hold at paired ⊢
  simp only [boundary, none, paired]

/-- A single frame of no running cycle opens its cycle, unless the running one stands (log entry 97). -/
theorem boundary_opens {f : Fcu} {l : LaneId} {b : BoundaryFrame}
    (alone : ∀ y k, y ≠ l → f.held.get y = some k → k.cyc = b.cyc → k.at_us + 500 < b.at_us)
    (idle : ∀ t, f.first = some t → b.cyc ≠ f.cyc ∧ f.b2.getD t + 500 < b.at_us ∧ (f.b2.isSome = true → b.cyc.ult f.cyc = false)) :
    f.boundary l b = (f.hold l b).openCycle b.cyc b.at_us l := by
  have none : (if b.cyc == f.cyc then f.first else none) = none := by
    cases hf : f.first with
    | none => simp
    | some t => simp [(idle t hf).1]
  have unpaired : (f.hold l b).pairOf l b.cyc b.at_us = Option.none :=
    pairOf_eq_none fun y k hy hk => alone y k hy (by simpa [hold, hy] using hk)
  have free : (f.hold l b).stands b = false := by
    show f.stands b = false
    cases hf : f.first with
    | none => simp [stands, hf]
    | some t =>
      obtain ⟨-, late, order⟩ := idle t hf
      simp only [stands, hf, Bool.or_eq_false_iff, decide_eq_false_iff_not, Bool.and_eq_false_imp]
      exact ⟨by omega, order⟩
  unfold hold at unpaired free ⊢
  simp only [boundary, none, unpaired, free, Bool.false_eq_true, if_false]

/-! ## Applications -/

/-- Restored coverage leaves the channels (R231). -/
theorem regain_chans (f : Fcu) (g : Fin 4) : (f.regain g).chans = f.chans := by unfold regain; split <;> rfl

/-- Coverage rests on the channels alone. -/
theorem covered_congr {f g : Fcu} (h : g.chans = f.chans) (k : Fin 4) : g.covered k = f.covered k := by
  simp [covered, pathsGood, h]

/-- A group `x` stays as it is, or was DEGRADED and is NORMAL again, its coverage restored (R231). -/
def Regains (x y : FcuGrp) (covered : Bool) : Prop := y = x ∨ (x.st = .degraded ∧ y.st = .normal ∧ covered = true)

/-- What restored coverage leaves of each group (R231). -/
theorem regain_groups (f : Fcu) (g k : Fin 4) : Regains f.groups[k] (f.regain g).groups[k] ((f.regain g).covered k) := by
  have cov := covered_congr (regain_chans f g) k
  by_cases h : (f.groups[g].st == .degraded && f.covered g) = true
  · have normal : f.regain g = f.modGrp g fun x => { x.stopLimit with st := .normal, covLost := false, degExp := false } :=
      if_pos h
    by_cases e : g = k
    · subst e
      rw [Bool.and_eq_true, beq_iff_eq] at h
      exact .inr ⟨h.1, by simp [normal, modGrp], cov.trans h.2⟩
    · exact .inl (by simp [normal, modGrp, Vector.getElem_set_ne _ _ (Fin.val_ne_of_ne e)])
  · have same : f.regain g = f := if_neg h
    exact .inl (by rw [same])

/-- Groups regain their coverage one after the other. -/
theorem foldl_regain (gs : List (Fin 4)) (f : Fcu) :
    (gs.foldl regain f).chans = f.chans ∧ ∀ k, Regains f.groups[k] (gs.foldl regain f).groups[k] ((gs.foldl regain f).covered k) := by
  induction gs generalizing f with
  | nil => exact ⟨rfl, fun k => .inl rfl⟩
  | cons g gs ih =>
    obtain ⟨chans, groups⟩ := ih (f.regain g)
    refine ⟨chans.trans (regain_chans f g), fun k => ?_⟩
    have cov := covered_congr chans k
    rcases groups k with same | ⟨deg, norm, c⟩ <;> rcases regain_groups f g k with same' | ⟨deg', norm', c'⟩
    · exact .inl (same.trans same')
    · exact .inr ⟨deg', by rw [List.foldl_cons, same, norm'], cov.trans c'⟩
    · exact .inr ⟨same' ▸ deg, norm, c⟩
    · rw [norm'] at deg
      cases deg

/-- Switching leaves the groups. -/
theorem drive_groups (f : Fcu) (low : Bool) : (f.drive low).groups = f.groups := by simp only [drive]

/-- What switching leaves of a channel: it follows the command that it holds (R221, R223, R235). -/
theorem drive_chan (f : Fcu) (low : Bool) (k : Fin 32) :
    let x := f.chans[k]
    let y := (f.drive low).chans[k]
    y.cmd = x.cmd ∧ y.pulse = x.pulse ∧
      y.on = (x.cmd && f.follows (groupOf k) && !x.hold && (x.on || (x.pulse && !x.void) || !low) && !x.pulse) := by
  have follows : ∀ g, ({ f with chans := f.chans.map fun (x : FcuCh) => { x with dip := false } } : Fcu).follows g = f.follows g :=
    fun _ => rfl
  simp only [drive, driveCh, wants, follows, FcuCh.switch, FcuCh.isOn, Fin.getElem_fin, Vector.getElem_ofFn, Vector.getElem_map]
  have held : ∀ want isOn low pulse : Bool,
      (want && !(want && !isOn && (low || false)) && !pulse) = (want && (isOn || !low) && !pulse) := by decide
  exact ⟨trivial, trivial, held ..⟩

/-- The commands that an application takes (R221, R37): those that stand where two lanes present withhold their word. -/
def taken (f : Fcu) (k : Fin 32) : Bool :=
  if 2 ≤ f.votesFor fun w => w.isNone then f.chans[k].cmd
  else decide (2 ≤ f.votesFor fun w => match w with
    | none => false
    | some v => v.getLsbD k.val)

/-- The FCU with the commands that an application takes. -/
def commanded (f : Fcu) : Fcu :=
  { f with applied := true, chans := Vector.ofFn fun c : Fin 32 => { f.chans[c] with cmd := f.taken c } }

/-- Commands leave the groups. -/
theorem commanded_groups (f : Fcu) : f.commanded.groups = f.groups := by simp only [commanded]

/-- Commands that stand leave the channels. -/
theorem commanded_of_withheld {f : Fcu} (h : 2 ≤ f.votesFor fun w => w.isNone) : f.commanded = { f with applied := true } := by
  have stand : (Vector.ofFn fun c : Fin 32 => ({ f.chans[c] with cmd := f.taken c } : FcuCh)) = f.chans := by
    ext1 i hi
    simp only [taken, h, if_true, Vector.getElem_ofFn, Fin.getElem_fin]
  rw [commanded, stand]

/-- An application switches by the commands taken, and then groups may regain their coverage (R221, R231). -/
theorem apply_eq (f : Fcu) (low : Bool) : f.apply low = groupList.foldl regain (f.commanded.drive low) := by
  unfold Fcu.apply
  dsimp only
  congr 1
  by_cases withheld : 2 ≤ f.votesFor fun w => w.isNone
  · rw [if_pos withheld, commanded_of_withheld withheld]
  · rw [if_neg withheld]
    simp only [commanded, taken, withheld, if_false] <;> rfl

/-- What an application leaves of a channel: it takes its command and follows it (R221, R223, R235). -/
theorem apply_chan (f : Fcu) (low : Bool) (k : Fin 32) :
    let x := f.chans[k]
    let y := (f.apply low).chans[k]
    y.cmd = f.taken k ∧ y.pulse = x.pulse ∧
      y.on = (y.cmd && f.follows (groupOf k) && !x.hold && (x.on || (x.pulse && !x.void) || !low) && !x.pulse) := by
  have chan : f.commanded.chans[k] = { f.chans[k] with cmd := f.taken k } := by simp [commanded]
  have chans : (f.apply low).chans = (f.commanded.drive low).chans := by rw [apply_eq, (foldl_regain _ _).1]
  have follows : f.commanded.follows (groupOf k) = f.follows (groupOf k) := by simp only [Fcu.follows, commanded]
  obtain ⟨cmd, pulse, on⟩ := f.commanded.drive_chan low k
  dsimp only
  rw [chans, on, cmd, pulse, follows, chan]
  exact ⟨rfl, rfl, rfl⟩

/-- What an application leaves of a group (R231). -/
theorem apply_group (f : Fcu) (low : Bool) (k : Fin 4) : Regains f.groups[k] (f.apply low).groups[k] ((f.apply low).covered k) := by
  have regained := (foldl_regain groupList (f.commanded.drive low)).2 k
  rwa [← apply_eq, drive_groups, commanded_groups] at regained

@[simp] theorem apply_applied (f : Fcu) (low : Bool) : (f.apply low).applied = true := (SwitchesOnly.apply f low).applied
@[simp] theorem apply_active (f : Fcu) (low : Bool) : (f.apply low).active = f.active := (SwitchesOnly.apply f low).active
@[simp] theorem apply_b2 (f : Fcu) (low : Bool) : (f.apply low).b2 = f.b2 := (SwitchesOnly.apply f low).b2
@[simp] theorem apply_cyc (f : Fcu) (low : Bool) : (f.apply low).cyc = f.cyc := (SwitchesOnly.apply f low).cyc
@[simp] theorem apply_present (f : Fcu) (low : Bool) : (f.apply low).present = f.present := (SwitchesOnly.apply f low).present

/-- With no lane present no lane votes. -/
theorem votesFor_of_absent {f : Fcu} (h : f.present = noLanes) (p : Option (BitVec 32) → Bool) : f.votesFor p = 0 := by
  simp [votesFor, h, LaneSet.those, LaneSet.count, noLanes, LaneSet.has]

/-- A cycle in which no frame counted: no lane is present, and every switch is open (R15, R222). -/
theorem lostCycle_fields (f : Fcu) (low : Bool) :
    let g := f.lostCycle low
    g.cyc = f.cyc + 1 ∧ g.present = noLanes ∧ g.b2 = none ∧ g.active = false ∧ g.applied = true ∧
      ∀ k : Fin 32, g.chans[k].on = false := by
  refine ⟨by simp [lostCycle], by simp [lostCycle], by simp [lostCycle], by simp [lostCycle], by simp [lostCycle], fun k => ?_⟩
  rw [lostCycle]
  obtain ⟨cmd, -, on⟩ := apply_chan (setActive _ false) low k
  rw [on, cmd]
  simp [taken, votesFor_of_absent]

end Fcu
end Sys2Proof.Machine
end

section
/-!
PROOFS. O45: BOUNDARY, COMMAND and cycle-set frames between lanes and FCU (spec/10_local_vital_io.md R217 to R231).
-/
namespace Sys2Proof.Machine

/-- A number follows the last one of its sender, if there was any (R220). -/
def inSequence (old : Option Half) (n : Half) : Prop := ∀ q, old = some q → n = q + 1

/-- A state with a new FCU is the old one in all else. -/
theorem State.withFcu_eq (s : State) (u : Fcu) :
    ({ s with fcu := u } : State) = { s with fcu := ({ s with fcu := u } : State).fcu } := rfl

/-! ## BOUNDARY and COMMAND frames at the FCU -/

/-- A BOUNDARY frame that fails its CRC changes nothing (R220). -/
theorem exec_fcuBoundaryRx_badCrc (s : State) (l : LaneId) {f : BoundaryFrame} (hc : f.crcOk = false) :
    exec (.fcuBoundaryRx l f) s = .next s.begin := by
  simp [exec, execFcuBoundaryRx, hc]

/-- A BOUNDARY frame in sequence acts on the cycle (R217, R220). -/
theorem exec_fcuBoundaryRx_inSeq {s : State} {l : LaneId} {f : BoundaryFrame} (hc : f.crcOk = true)
    (hs : inSequence (s.fcu.seqB.get l) f.seq) :
    exec (.fcuBoundaryRx l f) s =
      .next { s.begin with fcu := (s.fcu.numbered l f.seq).boundary l f } := by
  cases h : s.fcu.seqB.get l with
  | none => simp [exec, execFcuBoundaryRx, hc, h, Fcu.numbered]
  | some q => simp [exec, execFcuBoundaryRx, hc, h, hs q h, Fcu.numbered]

/-- A BOUNDARY frame out of sequence leaves its number alone (R220). -/
theorem exec_fcuBoundaryRx_outOfSeq {s : State} {l : LaneId} {f : BoundaryFrame} (hc : f.crcOk = true)
    (hs : ¬ inSequence (s.fcu.seqB.get l) f.seq) :
    exec (.fcuBoundaryRx l f) s = .next { s.begin with fcu := { s.fcu with seqB := s.fcu.seqB.put l (some f.seq) } } := by
  cases h : s.fcu.seqB.get l with
  | none => exact absurd (fun q e => by simp [h] at e) hs
  | some q =>
    have gap : f.seq ≠ q + 1 := fun e => hs fun r hr => by rw [h] at hr; cases hr; exact e
    simp only [exec, execFcuBoundaryRx, State.begin_fcu, hc, h, beq_false_of_ne gap, Bool.not_true, Bool.false_eq_true, if_false]

/-- A COMMAND frame in sequence is held (R220). -/
theorem exec_fcuCommandRx_inSeq {s : State} {l : LaneId} {c : CommandFrame} (hc : c.crcOk = true)
    (hs : inSequence (s.fcu.seqC.get l) c.seq) :
    exec (.fcuCommandRx l c) s = .next { s.begin with fcu := { s.fcu with
      seqC := s.fcu.seqC.put l (some c.seq)
      cmds := s.fcu.cmds.put l (some c) } } := by
  cases h : s.fcu.seqC.get l with
  | none => simp [exec, execFcuCommandRx, hc, h]
  | some q => simp [exec, execFcuCommandRx, hc, h, hs q h]

/-- A COMMAND frame out of sequence leaves its number alone (R220). -/
theorem exec_fcuCommandRx_outOfSeq {s : State} {l : LaneId} {c : CommandFrame} {q : Half} (hc : c.crcOk = true)
    (h : s.fcu.seqC.get l = some q) (gap : c.seq ≠ q + 1) :
    exec (.fcuCommandRx l c) s = .next { s.begin with fcu := { s.fcu with seqC := s.fcu.seqC.put l (some c.seq) } } := by
  simp only [exec, execFcuCommandRx, State.begin_fcu, hc, h, beq_false_of_ne gap, Bool.not_true, Bool.false_eq_true, if_false]

/-! ## b2 and what follows it -/

/-- Without a second frame b2 is the first arrival, and the actions due follow at once (R217). -/
theorem exec_b2Timeout_first {s : State} {t : Nat} (hf : s.fcu.first = some t) (h2 : s.fcu.b2 = none) :
    exec .b2Timeout s = .next { s.begin with fcu := ((s.fcu.fixB2 t).setActive false).apply s.sup.warnNow } := by
  simp [exec, execB2Timeout, hf, h2]

/-- A time-out that finds no open cycle opens one in which no frame counted (R15). -/
theorem exec_b2Timeout_lost {s : State} (h : s.fcu.first = none ∨ (s.fcu.b2.isSome = true ∧ s.fcu.latched = true)) :
    exec .b2Timeout s = .next { s.begin with fcu := s.fcu.lostCycle s.sup.warnNow } := by
  cases hf : s.fcu.first with
  | none => simp [exec, execB2Timeout, hf]
  | some t =>
    obtain ⟨fixed, latched⟩ := h.resolve_left (by simp [hf])
    obtain ⟨b, hb⟩ := Option.isSome_iff_exists.mp fixed
    simp [exec, execB2Timeout, hf, hb, latched]

/-- The cycle set of a fixed b2 goes to the lanes, the role being settled by then (R217, R222). -/
theorem exec_cycleSetLatch {s : State} (h2 : s.fcu.b2.isSome = true) (hl : s.fcu.latched = false)
    (ha : s.fcu.active = decide (2 ≤ s.fcu.present.count)) :
    exec .cycleSetLatch s = .next ({ s.begin with fcu := { s.fcu with
      seqOut := s.fcu.seqOut + 1
      accFlag := false
      latched := true } }.emit (.cycleSet s.fcu.cycleSet)) := by
  have due : (s.begin.fcu.b2.isNone || s.begin.fcu.latched) = false := by
    rw [Bool.or_eq_false_iff, Option.isNone_eq_false_iff]
    exact ⟨h2, hl⟩
  have role : s.begin.fcu.setActive (2 ≤ s.begin.fcu.present.count) = s.fcu := Fcu.setActive_self ha
  unfold exec execCycleSetLatch
  dsimp only
  rw [due, role]
  rfl

/-- The output commands apply once for each b2 (R221). -/
theorem exec_outputApply {s : State} (h2 : s.fcu.b2.isSome = true) (ha : s.fcu.applied = false) :
    exec .outputApply s = .next { s.begin with fcu := s.fcu.apply s.sup.warnNow } := by
  simp [exec, execOutputApply, h2, ha]

/-! ## Cycle sets at a lane -/

namespace Lio

/-- The counts of the degrade limits alone move with a group's state (R233). -/
theorem followGroup_eq (o : Lio) (img : Image) (g : Nat) (b : BitVec 8) :
    o.followGroup img g b = { o with
      degLeft := (o.followGroup img g b).degLeft
      deg3 := (o.followGroup img g b).deg3
      expired := (o.followGroup img g b).expired } := by
  unfold followGroup putDeg
  split_ifs <;> rfl

/-- The counts of the degrade limits alone follow the groups of a set. -/
theorem foldl_followGroup (img : Image) (ps : List (Nat × BitVec 8)) (o : Lio) :
    let q := ps.foldl (fun o p => o.followGroup img p.1 p.2) o
    q = { o with degLeft := q.degLeft, deg3 := q.deg3, expired := q.expired } := by
  induction ps generalizing o with
  | nil => rfl
  | cons p ps ih =>
    have moved := ih (o.followGroup img p.1 p.2)
    dsimp only [List.foldl_cons] at moved ⊢
    rw [moved, followGroup_eq o]

end Lio

/-- A wrong table entry leaves the store and the local inputs and outputs (R63). -/
theorem Lane.useTables_fields (l : Lane) (img : Image) (rs : List (Table × Nat)) :
    (l.useTables img rs).1.store = l.store ∧ (l.useTables img rs).1.lio = l.lio := by
  unfold Lane.useTables
  split <;> simp [Lane.tableFail, Lane.codeFail]

/-- A cycle set that a lane takes is held, with its number, and counts for the running cycle until the agreement (R218). -/
theorem Lane.takeSet_fields (l : Lane) (z : CycleSet) :
    let m := l.takeSet z
    m.lio.set = some z ∧ m.lio.seqIn = some z.seq ∧ m.lio.linkErr = l.lio.linkErr ∧ m.store = l.store ∧
      m.lio.gotSet = (l.lio.gotSet || (z.cyc == l.cyc.num && l.cyc.running && !l.cyc.agreed)) := by
  have fresh : ∀ got now : Bool, (got || (now && !got)) = (got || now) := by decide
  unfold Lane.takeSet
  cases l.boot.img with
  | none => exact ⟨rfl, rfl, rfl, rfl, fresh ..⟩
  | some img =>
    dsimp only
    split
    · rw [Lio.foldl_followGroup]
      exact ⟨rfl, rfl, rfl, rfl, fresh ..⟩
    · exact ⟨rfl, rfl, rfl, (l.useTables_fields img _).1, fresh ..⟩

/-- A cycle set in sequence is taken, and may raise an event (R218). -/
theorem exec_cycleSetRx_taken {s : State} {l : LaneId} {z : CycleSet} (hl : (s.lane l).live = true) (hc : z.crcOk = true)
    (hs : inSequence (s.lane l).lio.seqIn z.seq) :
    ∃ t, exec (.cycleSetRx l z) s = .next t ∧ OnlySends (s.begin.setLane l ((s.lane l).takeSet z)) t := by
  have told : ∀ moved : Bool, OnlySends (s.begin.setLane l ((s.lane l).takeSet z))
      (if moved then (s.begin.setLane l ((s.lane l).takeSet z)).notify l 9 else s.begin.setLane l ((s.lane l).takeSet z)) := by
    intro moved
    cases moved
    · exact .refl _
    · exact .notify ..
  cases h : (s.lane l).lio.seqIn with
  | none =>
    simp only [exec, execCycleSetRx, State.begin_lane, hl, hc, h, Bool.not_true, Bool.false_eq_true, if_false, Bool.and_self, if_true,
      Bool.true_and]
    exact ⟨_, rfl, told _⟩
  | some q =>
    simp only [exec, execCycleSetRx, State.begin_lane, hl, hc, h, hs q h, beq_self_eq_true, Bool.not_true, Bool.false_eq_true,
      if_false, Bool.and_self, if_true, Bool.true_and]
    exact ⟨_, rfl, told _⟩

/-- Any other cycle set is counted as a link error (R220). -/
theorem exec_cycleSetRx_discarded {s : State} {l : LaneId} {z : CycleSet} (hl : (s.lane l).live = true)
    (hz : z.crcOk = false ∨ ∃ q, (s.lane l).lio.seqIn = some q ∧ z.seq ≠ q + 1) :
    exec (.cycleSetRx l z) s = .next (s.begin.setLane l { s.lane l with lio := { (s.lane l).lio with
      linkErr := (s.lane l).lio.linkErr + 1
      seqIn := if z.crcOk then some z.seq else (s.lane l).lio.seqIn } }) := by
  rcases hz with bad | ⟨q, h, gap⟩
  · simp only [exec, execCycleSetRx, State.begin_lane, hl, bad, Bool.not_true, Bool.false_eq_true, if_false, Bool.false_and]
  · simp only [exec, execCycleSetRx, State.begin_lane, hl, h, beq_false_of_ne gap, Bool.not_true, Bool.false_eq_true, if_false,
      Bool.and_false, Bool.false_and]

/-- Settles O45: each frame and instant by what its operation leaves of the FCU, of which switching moves groups and channels
alone. -/
theorem fcuFrames : Obligations.FcuFrames := by
  unfold Obligations.FcuFrames
  intro s l f c z t1
  dsimp only
  refine ⟨exec_fcuBoundaryRx_badCrc s l, fun hc hs => exec_fcuBoundaryRx_outOfSeq hc hs, ?single, ?pair, ?second, ?first, ?lost,
    ?latch, ?command, ?output, ?taken, ?discarded⟩
  case single =>
    intro hc hs alone idle
    refine ⟨_, exec_fcuBoundaryRx_inSeq hc hs, State.withFcu_eq .., ?_⟩
    rw [Fcu.boundary_opens (f := s.fcu.numbered l f.seq) alone idle]
    exact Fcu.openCycle_fields ..
  case pair =>
    intro y h hc hs hy hk hn ht other notNow
    refine ⟨_, exec_fcuBoundaryRx_inSeq hc hs, State.withFcu_eq .., ?_⟩
    rw [Fcu.boundary_pairs (f := s.fcu.numbered l f.seq) notNow hy hk hn ht other]
    obtain ⟨b2, -, cyc, first, -⟩ := Fcu.joinCycle_fields (((s.fcu.numbered l f.seq).hold l f).openCycle f.cyc h.at_us y) l f rfl ht
    exact ⟨first, cyc, b2⟩
  case second =>
    intro hc hs same hf h2 ht
    refine ⟨_, exec_fcuBoundaryRx_inSeq hc hs, State.withFcu_eq .., ?_⟩
    rw [Fcu.boundary_joins (f := s.fcu.numbered l f.seq) l same hf]
    obtain ⟨b2, present, -, -, two⟩ := Fcu.joinCycle_fields ((s.fcu.numbered l f.seq).hold l f) l f h2 ht
    refine ⟨b2, fun y => ?_, two⟩
    rw [present]
    exact Fcu.presentBy_has ..
  case first =>
    intro hf h2
    refine ⟨_, exec_b2Timeout_first hf h2, State.withFcu_eq .., ?_⟩
    simp [(Fcu.fixB2_fields s.fcu t1).1]
  case lost =>
    intro h
    obtain ⟨cyc, present, b2, active, applied, off⟩ := Fcu.lostCycle_fields s.fcu s.sup.warnNow
    refine ⟨_, exec_b2Timeout_lost h, State.withFcu_eq .., ?_⟩
    dsimp only
    exact ⟨cyc, present, b2, active, applied, fun _ => off⟩
  case latch =>
    intro h2 hl ha
    exact ⟨exec_cycleSetLatch h2 hl ha, rfl, rfl, rfl, fun k => ⟨wordOf_getLsbD .., wordOf_getLsbD ..⟩⟩
  case command =>
    intro hc
    exact ⟨fun hs => exec_fcuCommandRx_inSeq hc hs, fun ⟨q, h, gap⟩ => exec_fcuCommandRx_outOfSeq hc h gap⟩
  case output =>
    intro h2 ha
    refine ⟨_, exec_outputApply h2 ha, State.withFcu_eq .., ?_⟩
    dsimp only
    exact ⟨Fcu.apply_applied .., fun g => Fcu.apply_group .., fun k => Fcu.apply_chan s.fcu s.sup.warnNow k⟩
  case taken =>
    intro hl hc hs
    obtain ⟨t, ht, sent⟩ := exec_cycleSetRx_taken hl hc hs
    obtain ⟨set, seqIn, linkErr, store, gotSet⟩ := (s.lane l).takeSet_fields z
    have lane := sent.lanes l
    rw [State.setLane_lane_same] at lane
    have fcu : t.fcu = s.fcu := sent.fcu_eq.trans (by simp)
    refine ⟨t, ht, ?_⟩
    rw [lane]
    exact ⟨set, seqIn, linkErr, store, gotSet, fcu⟩
  case discarded =>
    intro hl hz
    refine ⟨_, exec_cycleSetRx_discarded hl hz, fun y hy => ?_, ?_⟩
    · rw [State.setLane_lane_other _ _ hy, State.begin_lane]
    · simp

end Sys2Proof.Machine
end

section
/-!
PROOFS. O44: lane status frames, exchange links, ports and snapshots between lanes (spec/01_lanes_and_seats.md R14, R21;
spec/02_the_cycle.md R40; spec/09_agreement_and_vote.md R203 to R209).
-/
namespace Sys2Proof.Machine

/-! ## Lane status -/

/-- The judgement of the boundaries touches neither the reports of the peers nor the store (R40). -/
theorem Lane.alignStep_fields (l : Lane) (x : LaneId) (n : Nat) :
    let m := l.alignStep x n
    m.peers = l.peers ∧ m.store = l.store ∧ m.vote = { l.vote with excl := m.vote.excl, selfExcl := m.vote.selfExcl } := by
  unfold Lane.alignStep
  dsimp only
  repeat' split
  all_goals simp [Lane.excludeSelf]

/-- A dissent draws a free value and drops the cycle of its lane, or does nothing (R245). -/
theorem State.dissent_eq (s : State) (x : LaneId) :
    s.dissent x = s ∨ ∃ c, s.dissent x = { s with freeCtr := s.freeCtr + 1 }.modLane x fun m => m.dropCycle c 4 := by
  unfold State.dissent
  dsimp only
  split
  · exact .inr ⟨_, rfl⟩
  · exact .inl rfl

/-- A dissent is one lane's own (R245). -/
theorem State.dissent_lane_other (s : State) {x y : LaneId} (h : y ≠ x) : (s.dissent x).lane y = s.lane y := by
  rcases s.dissent_eq x with e | ⟨c, e⟩
  · rw [e]
  · rw [e, State.modLane_lane_other _ _ h]
    cases y <;> rfl

/-- A dissent leaves the reports, the store and the vote of its lane (R245). -/
theorem State.dissent_lane_fields (s : State) (x : LaneId) :
    ((s.dissent x).lane x).peers = (s.lane x).peers ∧ ((s.dissent x).lane x).store = (s.lane x).store ∧
      ((s.dissent x).lane x).vote = (s.lane x).vote := by
  have drawn : ({ s with freeCtr := s.freeCtr + 1 } : State).lane x = s.lane x := by cases x <;> rfl
  rcases s.dissent_eq x with e | ⟨c, e⟩ <;> rw [e] <;> simp [drawn]

/-- What a status frame leaves in the lane of its peer's report (R203). -/
theorem Lane.takeStatus_fields (l : Lane) (y : LaneId) (lat : Nat) (f : LaneStatus) :
    let m := l.takeStatus y lat f
    m.peers.get y = some f ∧ m.store = l.store ∧ m.vote.sets.get y = some f.service ∧ m.vote.overs.get y = f.overs ∧
      m.vote.service = l.vote.service ∧ (l.serves y = false → f.code ≠ 1 → m.vote.codes.get y = f.code) := by
  have code : let m := l.peerCode y f
      m.store = l.store ∧ m.vote.service = l.vote.service ∧
        (l.serves y = false → f.code ≠ 1 → m.vote.codes.get y = f.code) := by
    unfold Lane.peerCode
    dsimp only
    repeat' split
    all_goals simp_all
  obtain ⟨store, service, codes⟩ := code
  exact ⟨by simp [Lane.takeStatus], store, by simp [Lane.takeStatus], by simp [Lane.takeStatus], service, codes⟩

/-- A status frame of the running cycle is taken, the boundaries are judged, and events may follow (R203, R40, R245). -/
theorem exec_laneStatusRx_running {s : State} {l sender : LaneId} {f : LaneStatus} (live : (s.lane l).live = true)
    (armed : (s.lane l).mode.armed = true) (running : (s.lane l).cyc.running = true) (other : sender ≠ l)
    (now : f.cyc = (s.lane l).cyc.num) :
    let k := ((s.lane l).takeStatus sender (s.begin.latency l sender f.relayed) f).noteSkews l
    exec (.laneStatusRx l sender f) s =
      .next (((s.begin.setLane l (k.alignStep l ((k.boot.img.map (·.hdr.tCycle)).getD 0))).dissent l).tellCodes l (s.lane l)) := by
  simp only [exec, execLaneStatusRx, State.begin_lane, live, armed, running, other, now, Bool.not_true, Bool.or_self,
    decide_false, Bool.false_eq_true, if_false, if_true]

/-- A status frame of the next cycle is held (log entry 24). -/
theorem exec_laneStatusRx_early {s : State} {l sender : LaneId} {f : LaneStatus} (live : (s.lane l).live = true)
    (armed : (s.lane l).mode.armed = true) (running : (s.lane l).cyc.running = true) (other : sender ≠ l)
    (next : f.cyc = (s.lane l).cyc.num + 1) :
    exec (.laneStatusRx l sender f) s = .next (s.begin.setLane l { s.lane l with
      vote := { (s.lane l).vote with early := (s.lane l).vote.early.put sender (some f) } }) := by
  have later : (s.lane l).cyc.num + 1 ≠ (s.lane l).cyc.num := by
    generalize (s.lane l).cyc.num = n
    bv_omega
  simp only [exec, execLaneStatusRx, State.begin_lane, live, armed, running, other, later, next, Bool.not_true, Bool.or_self,
    decide_false, Bool.false_eq_true, if_false, if_true]

/-! ## Exchange links -/

/-- What the loss of a link leaves in each lane: STS_FAULT of its live ends (R13). -/
theorem State.loseLink_lane (s : State) {x z : LaneId} (h : x ≠ z) (y : LaneId) :
    (s.loseLink x z).lane y = if (y = x ∨ y = z) ∧ (s.lane y).live = true then (s.lane y).mark 6 else s.lane y := by
  have links : ({ s with links := s.links &&& ~~~(1#3 <<< linkOf x z) } : State).lane y = s.lane y := by cases y <;> rfl
  unfold State.loseLink
  dsimp only
  by_cases hz : y = z
  · subst hz
    rw [State.modLane_lane_same, State.modLane_lane_other _ _ h.symm, links]
    simp
  · rw [State.modLane_lane_other _ _ hz]
    by_cases hx : y = x
    · subst hx
      rw [State.modLane_lane_same, links]
      simp
    · rw [State.modLane_lane_other _ _ hx, links]
      simp [hx, hz]

@[simp] theorem State.loseLink_links (s : State) (x z : LaneId) :
    (s.loseLink x z).links = s.links &&& ~~~(1#3 <<< linkOf x z) := by simp [State.loseLink]

/-- Isolation rests on the links alone. -/
theorem State.isolatedLane_congr {s t : State} (h : t.links = s.links) : t.isolatedLane = s.isolatedLane := by
  have same : t.isolated = s.isolated := by
    funext x
    simp [State.isolated, State.linkUp, h]
  simp [State.isolatedLane, same]

@[simp] theorem State.noteIsolation_links (s : State) : s.noteIsolation.links = s.links := by
  unfold State.noteIsolation; split <;> rfl

/-- Noting an isolation leaves each lane but for its exclusions (R14). -/
theorem State.noteIsolation_lane (s : State) (y : LaneId) :
    s.noteIsolation.lane y = match s.isolatedLane with
      | none => s.lane y
      | some x => (s.lane y).noteIsolated y x := by
  unfold State.noteIsolation
  cases s.isolatedLane <;> simp

/-- Noting an isolation leaves the store, the cycle and the records of a lane. -/
theorem Lane.noteIsolated_fields (m : Lane) (y x : LaneId) :
    (m.noteIsolated y x).store = m.store ∧ (m.noteIsolated y x).cyc = m.cyc ∧ (m.noteIsolated y x).codes = m.codes := by
  unfold Lane.noteIsolated
  split
  · exact ⟨rfl, rfl, rfl⟩
  · split <;> exact ⟨rfl, rfl, rfl⟩

/-- An armed lane that serves an isolated one excludes it; the isolated lane excludes itself (R14, R202, R207). -/
theorem Lane.noteIsolated_excludes {m : Lane} {y x : LaneId} (armed : m.mode.armed = true) (serves : m.serves x = true) :
    (y ≠ x → (m.noteIsolated y x).vote.excl.has x = true) ∧
      (y = x → (m.noteIsolated y x).vote.selfExcl = some (if m.vote.selfExcl = some 6 then 6 else 2)) := by
  constructor
  · intro other
    simp [Lane.noteIsolated, armed, serves, other]
  · intro own
    simp [Lane.noteIsolated, armed, serves, own, Lane.excludeSelf, mayReturn]

/-- Noting an isolation leaves the store, the cycle and the records of every lane. -/
theorem State.noteIsolation_fields (s : State) (y : LaneId) :
    (s.noteIsolation.lane y).store = (s.lane y).store ∧ (s.noteIsolation.lane y).cyc = (s.lane y).cyc ∧
      (s.noteIsolation.lane y).codes = (s.lane y).codes := by
  rw [State.noteIsolation_lane]
  cases s.isolatedLane with
  | none => exact ⟨rfl, rfl, rfl⟩
  | some x => exact Lane.noteIsolated_fields ..

/-- The loss of a link leaves the store, the cycle, the vote and the mode of every lane. -/
theorem State.loseLink_fields (s : State) {x z : LaneId} (h : x ≠ z) (y : LaneId) :
    ((s.loseLink x z).lane y).store = (s.lane y).store ∧ ((s.loseLink x z).lane y).cyc = (s.lane y).cyc ∧
      ((s.loseLink x z).lane y).vote = (s.lane y).vote ∧ ((s.loseLink x z).lane y).mode = (s.lane y).mode := by
  rw [State.loseLink_lane _ h]
  split <;> simp

/-- With every link down no lane is left alone by the others. -/
theorem State.isolatedLane_of_links_zero {s : State} (h : s.links = 0) : s.isolatedLane = none := by
  have all : s.isolated = fun _ => true := by
    funext x
    simp [State.isolated, State.linkUp, h]
  simp [State.isolatedLane, all, laneList]

theorem linkEnds_ne (k : XLink) : (linkEnds k).1 ≠ (linkEnds k).2 := by cases k <;> decide

/-! ## Ports -/

/-- Closing a session takes it out of the sessions and leaves the ports (R275). -/
theorem State.closeSession_fields (s : State) (id : Nat) :
    (s.closeSession id).sessions = s.sessions.filter (fun k => k.id != id) ∧ (s.closeSession id).ports = s.ports := by
  unfold State.closeSession
  dsimp only
  split
  · exact ⟨rfl, rfl⟩
  · exact ⟨(OnlySends.tunnelClose ..).sessions_eq, (OnlySends.tunnelClose ..).ports_eq⟩

/-- Closing a connection leaves the sessions and the ports (R309). -/
theorem State.closeConn_fields (s : State) (id : Nat) : (s.closeConn id).sessions = s.sessions ∧ (s.closeConn id).ports = s.ports := by
  unfold State.closeConn
  split
  · dsimp only
    split
    · exact ⟨rfl, rfl⟩
    · exact ⟨(OnlySends.tunnelClose ..).sessions_eq, (OnlySends.tunnelClose ..).ports_eq⟩
  · exact ⟨rfl, rfl⟩

/-- The end of a tunnel at its gateway leaves the sessions and the ports (R278). -/
theorem State.tunnelGone_fields (s : State) {t : Tunnel} (h : t.gateway = true) :
    (s.tunnelGone t).sessions = s.sessions ∧ (s.tunnelGone t).ports = s.ports := by
  simp [State.tunnelGone, h, State.dropTunnel]

/-- Sessions that stand once some have been closed are none of them. -/
theorem State.foldl_closeSession (ks : List Session) (s : State) :
    let t := ks.foldl (fun t k => t.closeSession k.id) s
    t.ports = s.ports ∧ ∀ q ∈ t.sessions, q ∈ s.sessions ∧ ∀ k ∈ ks, q.id ≠ k.id := by
  induction ks generalizing s with
  | nil => exact ⟨rfl, fun q hq => ⟨hq, by simp⟩⟩
  | cons k ks ih =>
    obtain ⟨ports, stand⟩ := ih (s.closeSession k.id)
    obtain ⟨closed, same⟩ := s.closeSession_fields k.id
    refine ⟨ports.trans same, fun q hq => ?_⟩
    obtain ⟨held, others⟩ := stand q hq
    rw [closed, List.mem_filter, bne_iff_ne] at held
    refine ⟨held.1, fun j hj => ?_⟩
    rcases List.mem_cons.mp hj with e | e
    · exact e ▸ held.2
    · exact others j e

/-- Steps that leave the sessions and the ports do so together. -/
theorem State.foldl_sessions_ports {α : Type} {op : State → α → State} (as : List α)
    (h : ∀ s, ∀ a ∈ as, (op s a).sessions = s.sessions ∧ (op s a).ports = s.ports) (s : State) :
    (as.foldl op s).sessions = s.sessions ∧ (as.foldl op s).ports = s.ports := by
  refine List.foldlRecOn as op (motive := fun t => t.sessions = s.sessions ∧ t.ports = s.ports) ⟨rfl, rfl⟩ ?_
  intro t ht a ha
  obtain ⟨sessions, ports⟩ := h t a ha
  exact ⟨sessions.trans ht.1, ports.trans ht.2⟩

/-- With J9 or J10 go the sessions that entered there, and no port (R21). -/
theorem State.losePort_fields (s : State) (p : Port) :
    (s.losePort p).ports = s.ports ∧
      ∀ q ∈ (s.losePort p).sessions, q ∈ s.sessions ∧ (q.tunnel = none → q.port ≠ p) := by
  unfold State.losePort
  dsimp only
  obtain ⟨closed, stand⟩ := State.foldl_closeSession (s.sessions.filter fun k => k.tunnel.isNone && k.port == p) s
  generalize (s.sessions.filter fun k => k.tunnel.isNone && k.port == p).foldl (fun t k => t.closeSession k.id) s = a at *
  obtain ⟨sessions, ports⟩ := State.foldl_sessions_ports (op := fun t c => t.closeConn c.id)
    (a.conns.filter fun c => c.tunnel.isNone && c.port == p) (fun t c _ => t.closeConn_fields c.id) a
  generalize (a.conns.filter fun c => c.tunnel.isNone && c.port == p).foldl (fun t c => t.closeConn c.id) a = b at *
  obtain ⟨sessions', ports'⟩ := State.foldl_sessions_ports (op := fun u t => (u.tunnelFrame t false true t.sent []).tunnelGone t)
    (b.tunnels.filter fun t => t.gateway && hostPort t.maint == p) (fun u t ht => by
      have gateway : t.gateway = true := by
        rw [List.mem_filter, Bool.and_eq_true] at ht
        exact ht.2.1
      have sent := OnlySends.tunnelFrame u t false true t.sent []
      obtain ⟨gone, left⟩ := State.tunnelGone_fields (u.tunnelFrame t false true t.sent []) gateway
      exact ⟨gone.trans sent.sessions_eq, left.trans sent.ports_eq⟩) b
  refine ⟨by rw [ports', ports, closed], fun q hq => ?_⟩
  rw [sessions', sessions] at hq
  obtain ⟨held, others⟩ := stand q hq
  refine ⟨held, fun direct entry => others q ?_ rfl⟩
  simp [held, direct, entry]

/-! ## Snapshots -/

/-- A lane in service notes who asks for a snapshot (R207). -/
theorem exec_snapshotRequestRx {s : State} {l sender : LaneId} (live : (s.lane l).live = true)
    (armed : (s.lane l).mode.armed = true) (serves : (s.lane l).serves l = true) (other : sender ≠ l) :
    exec (.snapshotRequestRx l sender) s = .next (s.begin.setLane l { s.lane l with
      re := { (s.lane l).re with asked := (s.lane l).re.asked.put sender true } }) := by
  simp [exec, execSnapshotRequestRx, live, armed, serves, other]

/-- A snapshot message from the source of a lane that returns is taken, and an event may follow (R208). -/
theorem exec_snapshotRx {s : State} {l sender : LaneId} (live : (s.lane l).live = true)
    (returns : (s.lane l).codeOf l = 3 ∨ (s.lane l).codeOf l = 4) (source : (s.lane l).re.source = some sender) (m : SnapMsg) :
    exec (.snapshotRx l sender m) s =
      .next ((s.begin.setLane l ((s.lane l).takeSnap l m)).tellCodes l (s.lane l)) := by
  rcases returns with code | code <;> simp [exec, execSnapshotRx, live, code, source]

/-- Where the state codes stand there is nothing to tell. -/
theorem State.tellCodes_same {s : State} {x : LaneId} {l : Lane} (h : (s.lane x).vote.codes = l.vote.codes) :
    s.tellCodes x l = s := by
  simp [State.tellCodes, h]

/-- A snapshot that is late is given up, and another asked for (R208). -/
theorem exec_snapshotTimeout {s : State} {l : LaneId} {b : SnapBase} (live : (s.lane l).live = true)
    (code : (s.lane l).codeOf l = 4) (unverified : (s.lane l).re.baseOk = false) (base : (s.lane l).re.base = some b)
    (late : b.cyc.toNat + 64 ≤ (s.lane l).cyc.num.toNat) :
    exec (.snapshotTimeout l) s =
      .next (((s.begin.setLane l ((s.lane l).awaitSnapshot l)).requestSnapshot l).tellCodes l (s.lane l)) := by
  simp [exec, execSnapshotTimeout, live, code, unverified, Lane.pastSnap, base, late]

/-- A lane at step 2 of a return with the source that it asks (R207). -/
def Lane.asksSnapshot (m : Lane) (l : LaneId) : Lane :=
  { m.awaitSnapshot l with re := { (m.awaitSnapshot l).re with source := m.snapSource l } }

/-- A lane that enters step 2 asks the lowest-lettered other lane in service, if there is one (R207). -/
theorem State.requestSnapshot_await (s : State) (l : LaneId) (m : Lane) :
    (s.setLane l (m.awaitSnapshot l)).requestSnapshot l = match m.snapSource l with
      | none => s.setLane l (m.asksSnapshot l)
      | some y => (s.setLane l (m.asksSnapshot l)).xsend l y .snapReq := by
  have source : (m.awaitSnapshot l).snapSource l = m.snapSource l := rfl
  have asks : ((m.awaitSnapshot l).codeOf l != 3 || (m.awaitSnapshot l).re.source.isSome) = false := by
    simp [Lane.codeOf, Lane.awaitSnapshot]
  simp only [State.requestSnapshot, State.setLane_lane_same, asks, source, Bool.false_eq_true, if_false, Lane.asksSnapshot]
  cases m.snapSource l with
  | none => rfl
  | some y => simp

/-- Settles O44: what a status frame, a link, a port and a snapshot message leave, from the rule of each operation. -/
theorem peersLinksAndSnapshots : Obligations.PeersLinksAndSnapshots := by
  unfold Obligations.PeersLinksAndSnapshots
  refine ⟨fun s l sender f k p => ?_, fun s l sender b dig d => ?_⟩
  · dsimp only
    refine ⟨fun live armed running other => ⟨?status, exec_laneStatusRx_early live armed running other⟩, rfl, ?down, by cases p <;> rfl,
      fun h9 h10 => ?other, ?lost⟩
    case status =>
      intro now
      let k := ((s.lane l).takeStatus sender (s.begin.latency l sender f.relayed) f).noteSkews l
      let n := (k.boot.img.map (·.hdr.tCycle)).getD 0
      let u := (s.begin.setLane l (k.alignStep l n)).dissent l
      have sent := OnlySends.tellCodes u l (s.lane l)
      obtain ⟨peers, store, vote⟩ := State.dissent_lane_fields (s.begin.setLane l (k.alignStep l n)) l
      rw [State.setLane_lane_same] at peers store vote
      obtain ⟨peers', store', vote'⟩ := k.alignStep_fields l n
      obtain ⟨report, kept, set, overs, service, code⟩ :=
        (s.lane l).takeStatus_fields sender (s.begin.latency l sender f.relayed) f
      refine ⟨_, u, exec_laneStatusRx_running live armed running other now, fun y hy => ?_, sent, ?_⟩
      · rw [State.dissent_lane_other _ hy, State.setLane_lane_other _ _ hy, State.begin_lane]
      · rw [sent.lanes l]
        dsimp only
        rw [peers, store, vote, peers', store', vote']
        exact ⟨report, set, overs, kept, service, code⟩
    case down =>
      have ends := linkEnds_ne k
      let u := s.begin.loseLink (linkEnds k).1 (linkEnds k).2
      have alone : u.noteIsolation.isolatedLane = u.isolatedLane := State.isolatedLane_congr u.noteIsolation_links
      refine ⟨u.noteIsolation, rfl, by simp [u, linkNum], fun x => ?_, fun x hx live => ?_, fun x down => ?_,
        fun x y isolated armed serves => ?_⟩
      · obtain ⟨store, cyc, -⟩ := u.noteIsolation_fields x
        obtain ⟨store', cyc', -, -⟩ := s.begin.loseLink_fields ends x
        rw [State.begin_lane] at store' cyc'
        exact ⟨store.trans store', cyc.trans cyc'⟩
      · obtain ⟨-, -, codes⟩ := u.noteIsolation_fields x
        rw [codes, State.loseLink_lane _ ends, State.begin_lane, if_pos ⟨hx, live⟩]
        rfl
      · obtain ⟨-, -, vote, -⟩ := s.begin.loseLink_fields ends x
        rw [State.noteIsolation_lane, ← alone, State.isolatedLane_of_links_zero down]
        exact vote.trans (by rw [State.begin_lane])
      · obtain ⟨-, -, vote, mode⟩ := s.begin.loseLink_fields ends y
        rw [State.begin_lane] at vote mode
        rw [State.noteIsolation_lane, ← alone, isolated, ← vote]
        exact Lane.noteIsolated_excludes (mode ▸ armed) (by rw [Lane.serves, vote]; exact serves)
    case other => simp [exec, execPortLinkChange, h9, h10]
    case lost =>
      intro h
      have lost : (!false && (p == .j9 || p == .j10)) = true := by simpa using h
      obtain ⟨ports, stand⟩ := State.losePort_fields { s.begin with ports := s.ports &&& ~~~(1#7 <<< portBit p) } p
      refine ⟨_, congrArg Host.Outcome.next (if_pos lost), ports, fun q hq => ?_⟩
      obtain ⟨held, elsewhere⟩ := stand q hq
      refine ⟨held, fun direct => ?_⟩
      have entry := elsewhere direct
      rcases h with rfl | rfl <;> cases own : q.ownJ10 <;> simp [Session.port, direct, own] at entry ⊢
  · dsimp only
    refine ⟨exec_snapshotRequestRx, fun live returns source => ⟨?base, ?digest, ?delta⟩, ?timeout⟩
    case base =>
      refine ⟨_, exec_snapshotRx live returns source (.base b), ?_⟩
      have told := OnlySends.tellCodes (s.begin.setLane l ((s.lane l).takeSnap l (.base b))) l (s.lane l)
      cases hd : (s.lane l).re.dig <;> simpa [Lane.takeSnap, Reentry.verify, hd] using told
    case digest =>
      rw [exec_snapshotRx live returns source, State.tellCodes_same (by simp [Lane.takeSnap])]
      cases hb : (s.lane l).re.base <;> simp [Lane.takeSnap, Reentry.verify, hb]
    case delta =>
      rw [exec_snapshotRx live returns source, State.tellCodes_same (by simp [Lane.takeSnap])]
      rfl
    case timeout =>
      intro live code unverified base late
      let u := s.begin.setLane l ((s.lane l).asksSnapshot l)
      have asked : OnlySends u ((s.begin.setLane l ((s.lane l).awaitSnapshot l)).requestSnapshot l) := by
        rw [State.requestSnapshot_await]
        split
        · exact .refl u
        · exact .xsend ..
      have sent := asked.trans (.tellCodes _ l (s.lane l))
      refine ⟨_, u, exec_snapshotTimeout live code unverified base late, fun y hy => ?_, sent, ?_⟩
      · rw [State.setLane_lane_other _ _ hy, State.begin_lane]
      · rw [sent.lanes l, State.setLane_lane_same]
        refine ⟨?_, rfl, rfl, rfl, rfl, fun y r source route => (OnlySends.tellCodes ..).mem ?_⟩
        · simp [Lane.asksSnapshot, Lane.awaitSnapshot]
        · have same : u.route l y = some r := by simpa [State.route, State.linkUp, u] using route
          rw [State.requestSnapshot_await, source]
          exact State.xsend_mem same .snapReq

end Sys2Proof.Machine
end

section
/-!
PROOFS. O30: station and peer packages (spec/08_field_telegrams.md R173, R174; spec/14_keys_and_trust.md R316, R317).
-/
namespace Sys2Proof.Machine

/-! ## A request for a package -/

/-- A lane's field draws two free values (log entry 79). -/
theorem State.packageField_snd (s : State) (k : Session) (p : Package) (key : Lane → LaneId → Option (BitVec 256)) (x : LaneId) :
    (s.packageField k p key x).2 = { s with freeCtr := s.freeCtr + 2 } := by
  unfold State.packageField
  dsimp only
  split <;> rfl

/-- The field of a lane that acts and has its key is that key wrapped under a fresh ephemeral one (R173). -/
theorem State.packageField_fst {s : State} {k : Session} {key : Lane → LaneId → Option (BitVec 256)} {x : LaneId} {v : BitVec 256}
    (acts : s.obeys k x = true) (hv : key (s.lane x) x = some v) (p : Package) :
    ∃ e, (s.packageField k p key x).1 = p.field x v e := by
  refine ⟨(s.fresh 448).1, ?_⟩
  simp [State.packageField, acts, hv]

/-- The conditions of a package hold in every lane that acts: none refuses it, none lacks randomness, its secret or its key. -/
structure PackageReady (s : State) (k : Session) (check : Lane → Option Byte) (key : Lane → LaneId → Option (BitVec 256))
    (v : LaneId → BitVec 256) : Prop where
  someone : ∃ y, s.obeys k y = true
  accepts : ∀ x, s.obeys k x = true → check (s.lane x) = none
  random : ∀ x, s.obeys k x = true → (s.lane x).sec.trngOk = true
  secret : ∀ x, s.obeys k x = true → (s.lane x).nv.secret.isSome = true
  keys : ∀ x, s.obeys k x = true → key (s.lane x) x = some (v x)

section
variable {s : State} {k : Session} {check : Lane → Option Byte} {key : Lane → LaneId → Option (BitVec 256)}
  {v : LaneId → BitVec 256}

/-- No lane that acts lacks randomness. -/
theorem PackageReady.noRandom (h : PackageReady s k check key v) : s.noRandom k = false := by
  rw [State.noRandom, List.any_eq_false]
  intro x _
  rw [Bool.not_eq_true, Bool.and_eq_false_imp]
  intro acts
  rw [h.random x acts]
  rfl

/-- The lanes that act are those that assemble. -/
theorem PackageReady.assembles (h : PackageReady s k check key v) : s.assembles k check = s.obeys k := by
  funext x
  cases acts : s.obeys k x with
  | false => simp [State.assembles, acts]
  | true => simp [State.assembles, acts, h.accepts x acts, h.noRandom, h.secret x acts]

/-- No lane refuses the request. -/
theorem PackageReady.packageRefuse (h : PackageReady s k check key v) (req : Word) (sub : Byte) :
    s.packageRefuse k req sub check = s := by
  unfold State.packageRefuse State.inLanes
  refine List.foldl_fixed' (fun x => ?_) laneList
  dsimp only
  cases acts : s.obeys k x with
  | false => simp
  | true => simp [h.accepts x acts, h.noRandom, Option.isSome_iff_ne_none.mp (h.secret x acts)]

/-- A lane that acts stands in the list of those that do. -/
theorem mem_acting {s : State} {k : Session} {x : LaneId} : x ∈ laneList.filter (s.obeys k) ↔ s.obeys k x = true := by
  rw [List.mem_filter, and_iff_right (by cases x <;> simp [laneList])]

/-- The fields that the lanes draw for a package, one lane after the other. -/
def State.packageFields (s : State) (k : Session) (p : Package) (key : Lane → LaneId → Option (BitVec 256)) : PerLane (List Byte) :=
  { a := (s.packageField k p key .a).1
    b := ({ s with freeCtr := s.freeCtr + 2 }.packageField k p key .b).1
    c := ({ s with freeCtr := s.freeCtr + 2 + 2 }.packageField k p key .c).1 }

/-- The field of a package that a lane holds at once: its own, and those of lanes that do not act. -/
def State.fieldHeld (s : State) (k : Session) (fs : PerLane (List Byte)) (x y : LaneId) : Option (List Byte) :=
  if x = y && (laneList.filter (s.obeys k)).contains y || !s.obeys k y then some (fs.get y) else none

/-- The package under assembly with what each lane holds of it. -/
def State.packageWait (s : State) (k : Session) (req : Word) (sub : Byte) (p : Package) (mark : PkgMark)
    (fs : PerLane (List Byte)) : PkgWait :=
  let row (x : LaneId) : PerLane (Option (List Byte)) :=
    { a := s.fieldHeld k fs x .a, b := s.fieldHeld k fs x .b, c := s.fieldHeld k fs x .c }
  { sess := k.id, req := req, sub := sub, pkg := p, mark := mark, held := { a := row .a, b := row .b, c := row .c } }

/-- Each lane holds at once its own field and those of lanes that do not act (log entry 79). -/
theorem State.packageWait_held (s : State) (k : Session) (req : Word) (sub : Byte) (p : Package) (mark : PkgMark)
    (fs : PerLane (List Byte)) (x z : LaneId) :
    ((s.packageWait k req sub p mark fs).held.get x).get z = if x = z ∨ s.obeys k z = false then some (fs.get z) else none := by
  have row : ((s.packageWait k req sub p mark fs).held.get x).get z = s.fieldHeld k fs x z := by cases x <;> cases z <;> rfl
  rw [row, State.fieldHeld]
  cases acts : s.obeys k z with
  | false => simp
  | true =>
    have listed : (laneList.filter (s.obeys k)).contains z = true := List.elem_iff.mpr (mem_acting.mpr acts)
    rw [listed]
    simp

/-- The field of a lane that acts is its key wrapped (R173). -/
theorem PackageReady.packageFields (h : PackageReady s k check key v) (p : Package) {x : LaneId} (acts : s.obeys k x = true) :
    ∃ e, (s.packageFields k p key).get x = p.field x (v x) e := by
  cases x with
  | a => exact State.packageField_fst acts (h.keys .a acts) p
  | b => exact State.packageField_fst (s := { s with freeCtr := s.freeCtr + 2 }) (k := k) (x := .b) acts (h.keys .b acts) p
  | c => exact State.packageField_fst (s := { s with freeCtr := s.freeCtr + 2 + 2 }) (k := k) (x := .c) acts (h.keys .c acts) p

/-- A request whose conditions hold leaves the package under assembly, and the lanes that act send their fields (R173, R317). -/
theorem PackageReady.packages_eq (h : PackageReady s k check key v) (req : Word) (sub : Byte) (p : Package) (mark : PkgMark) :
    let fs := s.packageFields k p key
    s.packages k req sub p mark key check =
      (laneList.filter (s.obeys k)).foldl (fun u x => u.xcast x (.voted (.fields k.id req x (fs.get x)))) { s with
        freeCtr := s.freeCtr + 2 + 2 + 2
        pkgs := (s.pkgs.filter fun u => !(u.sess == k.id && u.req == req)) ++ [s.packageWait k req sub p mark fs] } := by
  have senders : (laneList.filter (s.obeys k)).isEmpty = false := by
    obtain ⟨y, acts⟩ := h.someone
    rw [List.isEmpty_eq_false_iff]
    exact List.ne_nil_of_mem (mem_acting.mpr acts)
  unfold State.packages
  rw [h.packageRefuse, h.assembles]
  simp only [senders, Bool.false_eq_true, if_false, State.packageField_snd]
  rfl

/-- The package waits, with the field of each lane in that lane and the free fields of the others everywhere, and each lane that
acts sends its own to those that a route leads to (R13, R173, R317; log entry 79). -/
theorem PackageReady.waits (h : PackageReady s k check key v) (req : Word) (sub : Byte) (p : Package) (mark : PkgMark) :
    ∃ w, ∃ f : LaneId → List Byte, w.sess = k.id ∧ w.req = req ∧ w.sub = sub ∧ w.pkg = p ∧ w.mark = mark ∧
      OnlySends { s with pkgs := (s.pkgs.filter fun u => !(u.sess == k.id && u.req == req)) ++ [w] }
        (s.packages k req sub p mark key check) ∧
      (∀ x z, (w.held.get x).get z = if x = z ∨ s.obeys k z = false then some (f z) else none) ∧
      ∀ x, s.obeys k x = true → (∃ e, f x = p.field x (v x) e) ∧
        ∀ z r, z ≠ x → s.route x z = some r →
          .xl x z r (.voted (.fields k.id req x (f x))) ∈ (s.packages k req sub p mark key check).out := by
  have sends : ∀ (u : State) (x : LaneId),
      OnlySends u (u.xcast x (.voted (.fields k.id req x ((s.packageFields k p key).get x)))) := fun u x => .xcast ..
  refine ⟨s.packageWait k req sub p mark (s.packageFields k p key), (s.packageFields k p key).get, rfl, rfl, rfl, rfl, rfl, ?_,
    s.packageWait_held k req sub p mark _, fun x acts => ⟨h.packageFields p acts, fun z r hz route => ?_⟩⟩
  · rw [h.packages_eq]
    exact (OnlySends.drawn _ _).trans (.foldl sends _ _)
  · rw [h.packages_eq]
    exact OnlySends.foldl_mem sends (mem_acting.mpr acts) fun t ht =>
      State.xcast_mem hz ((State.route_congr ht.links_eq ..).trans route) _

end

/-! ## The fields of a package -/

/-- A lane that lacks a field has assembled nothing. -/
theorem State.assembled_none {s : State} {w : PkgWait} {x : LaneId} (h : w.fieldsIn x = none) : s.assembled w x = none := by
  simp [State.assembled, h]

/-- A lane that holds every field has assembled the signed package (R173). -/
theorem State.assembled_some {s : State} {w : PkgWait} {x : LaneId} {fs : List Byte} {img : Image} {secret : BitVec 384}
    (fields : w.fieldsIn x = some fs) (image : (s.lane x).boot.img = some img) (held : (s.lane x).nv.secret = some secret) :
    let b := packageBytes img w.pkg.magic w.pkg.area w.pkg.stn w.pkg.gen w.pkg.pub fs
    s.assembled w x = some (b ++ ecdsaSign (identitySeed secret) b) := by
  simp only [State.assembled, fields, Option.bind_some, Lane.package, image, held]
  rfl

/-- A pair of lanes is of two lanes. -/
theorem lanePairs_ne {p : LaneId × LaneId} (h : p ∈ lanePairs) : p.1 ≠ p.2 := by
  simp only [lanePairs, List.mem_cons, List.not_mem_nil, or_false] at h
  rcases h with rfl | rfl | rfl <;> decide

/-- Of each two lanes one has assembled nothing: no package leaves (R317). -/
theorem State.agreedPackage_none {s : State} {w : PkgWait} (h : ∀ x y, x ≠ y → w.fieldsIn x = none ∨ w.fieldsIn y = none) :
    s.agreedPackage w = none := by
  rw [State.agreedPackage, List.findSome?_eq_none_iff]
  intro p hp
  rcases h p.1 p.2 (lanePairs_ne hp) with e | e <;> simp [State.assembled_none e]

/-- A list in which every value found is `b`, and one is, gives `b`. -/
theorem findSome?_eq_some_of_all {α β : Type} {f : α → Option β} {b : β} {as : List α}
    (all : ∀ a ∈ as, f a = none ∨ f a = some b) (one : ∃ a ∈ as, f a = some b) : as.findSome? f = some b := by
  induction as with
  | nil => simp at one
  | cons a as ih =>
    rw [List.findSome?_cons]
    rcases all a List.mem_cons_self with none | found
    · obtain ⟨c, hc, found⟩ := one
      have later : c ∈ as := (List.mem_cons.mp hc).resolve_left fun e => by rw [← e, found] at none; cases none
      rw [none]
      exact ih (fun d hd => all d (List.mem_cons_of_mem _ hd)) ⟨c, later, found⟩
    · rw [found]

/-- Two lanes that have assembled the same bytes agree on them, whichever pair is found first (R317). -/
theorem State.agreedPackage_some {s : State} {w : PkgWait} {x y : LaneId} {b : List Byte} (two : x ≠ y)
    (hx : s.assembled w x = some b) (hy : s.assembled w y = some b) : s.agreedPackage w = some b := by
  refine findSome?_eq_some_of_all (fun p hp => ?_) ?_
  · by_cases same : ((s.assembled w p.1).isSome && s.assembled w p.1 == s.assembled w p.2) = true
    · rw [if_pos same]
      rw [Bool.and_eq_true, beq_iff_eq] at same
      rcases LaneId.pairs_meet two (lanePairs_ne hp) with e | e | e | e
      · exact .inr (e ▸ hx)
      · exact .inr (e ▸ hy)
      · exact .inr (same.2.trans (e ▸ hx))
      · exact .inr (same.2.trans (e ▸ hy))
    · exact .inl (if_neg same)
  · have pair : (x, y) ∈ lanePairs ∨ (y, x) ∈ lanePairs := by cases x <;> cases y <;> simp_all [lanePairs]
    rcases pair with h | h
    · exact ⟨(x, y), h, by simp [hx, hy]⟩
    · exact ⟨(y, x), h, by simp [hx, hy]⟩

/-! ## Issue -/

/-- A package that leaves marks each lane in its non-volatile store alone (R174, R318). -/
theorem Lane.markPackage_fields (l : Lane) (mark : PkgMark) :
    (l.markPackage mark).tx = l.tx ∧ (l.markPackage mark).mode = l.mode ∧ (l.markPackage mark).boot = l.boot := by
  cases mark with
  | station pos gen =>
    unfold Lane.markPackage Lane.createGen
    dsimp only
    split <;> exact ⟨rfl, rfl, rfl⟩
  | peer purpose area gen => exact ⟨rfl, rfl, rfl⟩

/-- Entries that a test picks are gone however they were changed. -/
theorem filter_map_replaced {α : Type} (test : α → Bool) {v : α} (hv : test v = true) (as : List α) :
    (as.map fun u => if test u then v else u).filter (fun u => !test u) = as.filter fun u => !test u := by
  induction as with
  | nil => rfl
  | cons a as ih => cases h : test a <;> simp [h, hv, ih]

/-- A field that arrives in a lane that acts is held there (R317). -/
theorem exec_votedFields {s : State} {sess : Nat} {req : Word} {k : Session} {l z : LaneId} {w : PkgWait}
    (hk : s.session sess = some k) (other : l ≠ z) (acts : s.obeys k l = true)
    (hw : (s.pkgs.find? fun u => u.sess == sess && u.req == req) = some w) (field : List Byte) :
    let g : PkgWait := { w with held := w.held.put l ((w.held.get l).put z (some field)) }
    exec (.votedViewRx l (.fields sess req z field)) s =
      .next (({ s.begin with pkgs := s.pkgs.map fun u => if u.sess == sess && u.req == req then g else u } : State).issuePackage k g) := by
  have hk' : s.begin.session sess = some k := hk
  simp [exec, execVotedViewRx, State.takeField, State.serve, hk', hw, other, acts]

/-- A package on which two lanes agree leaves through the response lane, and marks each lane that acts (R174, R317, R318). -/
theorem State.issuePackage_sends {s : State} {k : Session} {w : PkgWait} {b : List Byte} {y : LaneId}
    (agreed : s.agreedPackage w = some b) (resp : s.respLane k = some y) :
    OnlySends (({ s with pkgs := s.pkgs.filter fun u => !(u.sess == w.sess && u.req == w.req) } : State).modLanes
      (obeying s k allLanes) fun _ l => l.markPackage w.mark) (s.issuePackage k w) ∧
      .shp k.id w.req 0x0A 0 b ∈ (s.issuePackage k w).out := by
  let t : State := { s with pkgs := s.pkgs.filter fun u => !(u.sess == w.sess && u.req == w.req) }
  let u := t.modLanes (obeying s k allLanes) fun _ l => l.markPackage w.mark
  have lane : ∀ x, t.lane x = s.lane x := fun x => by cases x <;> rfl
  have acting : obeying t k allLanes = obeying s k allLanes := by simp only [obeying, State.obeys, lane]
  have marked : (t.inLanes k allLanes fun v x => v.modLane x fun l => l.markPackage w.mark) = u := by
    rw [State.inLanes_modLanes (g := fun _ l => l.markPackage w.mark) (fun _ _ _ _ => rfl), acting]
  have resp' : u.respLane k = some y := by
    refine (State.respLane_congr (fun x => ?_) k).trans resp
    rw [State.modLanes_lane, lane]
    split
    · exact Lane.markPackage_fields ..
    · exact ⟨rfl, rfl, rfl⟩
  have issued : s.issuePackage k w = u.reply k.id w.req 0x0A 0 b := by
    unfold State.issuePackage
    rw [agreed]
    show (t.inLanes k allLanes fun v x => v.modLane x fun l => l.markPackage w.mark).respond k w.req 0x0A 0 b = _
    rw [marked, State.respond, resp']
    rfl
  rw [issued]
  exact ⟨.reply .., State.reply_mem ..⟩

/-! ## The requests -/

/-- STN_PKG as the response lane sees the station (R173, R174). -/
theorem exec_stnPkg {s : State} {sess : Nat} {req : Word} {k : Session} {y : LaneId} {img : Image} {pos : Half} {stn : StationRec}
    {gen : Word} {pend : Byte} {qoc : List Byte} (hk : s.session sess = some k) (maint : k.maint = true) (comm : k.comm = false)
    (resp : s.respLane k = some y) (image : (s.lane y).boot.img = some img) (station : img.stations[pos.toNat]? = some stn)
    (hgen : (s.lane y).pkgGen stn pos.toNat pend = gen) :
    exec (.stnPkg sess req pos pend qoc) s = .next (s.begin.packages k req 7
      { magic := [0x4E, 0x44, 0x50, 0x4B], area := img.params.areaId, stn := stn.stnId, gen := gen, pub := qoc }
      (.station pos.toNat gen) (fun m x => m.keyFor x labelStation stn.stnId gen)
      fun m => m.stnPkgRefusal pos.toNat pend qoc) := by
  have hk' : s.begin.session sess = some k := hk
  have resp' : s.begin.respLane k = some y := (State.respLane_congr (fun x => by simp) k).trans resp
  simp [exec, execStnPkg, State.serve, hk', maint, comm, State.stnPkg, resp', image, station, hgen]

/-- PEER_EXPORT (R316, R317). -/
theorem exec_peerExport {s : State} {sess : Nat} {k : Session} (hk : s.session sess = some k) (maint : k.maint = true)
    (req : Word) (purpose : Byte) (area gen : Word) (chain : List Cert) :
    exec (.peerExport sess req purpose area gen chain) s = .next (s.begin.packages k req 8
      { magic := [0x4E, 0x44, 0x50, 0x50], area := area, stn := purposeField purpose, gen := gen,
        pub := ((chain.head?).map (·.pub)).getD [] }
      (.peer purpose area gen) (fun m x => m.keyFor x (purposeLabel purpose) area gen)
      fun m => m.exportRefusal k purpose chain) := by
  have hk' : s.begin.session sess = some k := hk
  simp [exec, execPeerExport, State.serve, hk', maint]

/-- A lane armed or at stage 5 that has the station, and the generation asked for, does not refuse a well-formed request
(R174, R319). -/
theorem Lane.stnPkgRefusal_none {l : Lane} {img : Image} {pos : Nat} {stn : StationRec} {gen : Word} {pend : Byte} {qoc : List Byte}
    (image : l.boot.img = some img) (station : img.stations[pos]? = some stn) (length : qoc.length = 97) (flag : pend.toNat ≤ 1)
    (random : l.sec.trngOk = true) (state : l.mode.armed = true ∨ l.atStage5 = true)
    (hgen : match l.gen pos with
      | none => pend = 0 ∧ gen = stn.keyGen
      | some g => if pend = 1 then g.pend = some gen else g.cur = gen) :
    l.stnPkgRefusal pos pend qoc = none ∧ l.pkgGen stn pos pend = gen := by
  have inRange : ¬ l.stationCount ≤ pos := by
    obtain ⟨h, -⟩ := List.getElem?_eq_some_iff.mp station
    simpa [Lane.stationCount, image] using h
  have inState : (l.mode.armed || l.atStage5) = true := by rwa [Bool.or_eq_true]
  have form : ¬ 1 < pend.toNat := by omega
  cases hg : l.gen pos with
  | none =>
    rw [hg] at hgen
    obtain ⟨rfl, rfl⟩ := hgen
    simp [Lane.stnPkgRefusal, Lane.pkgGen, inState, length, inRange, random, hg]
  | some g =>
    rw [hg] at hgen
    by_cases pending : pend = 1#8
    · have held : g.pend = some gen := by simpa [pending] using hgen
      simp [Lane.stnPkgRefusal, Lane.pkgGen, inState, length, inRange, random, hg, pending, held]
    · have held : g.cur = gen := by simpa [pending] using hgen
      simp [Lane.stnPkgRefusal, Lane.pkgGen, inState, form, length, inRange, random, hg, pending, held]

/-- What held of a package request in the state before it holds at the start of its step. -/
theorem PackageReady.begin {s : State} {k : Session} {check : Lane → Option Byte} {key : Lane → LaneId → Option (BitVec 256)}
    {v : LaneId → BitVec 256} (h : PackageReady s k check key v) : PackageReady s.begin k check key v where
  someone := by simpa only [State.begin_obeys] using h.someone
  accepts := by simpa only [State.begin_obeys, State.begin_lane] using h.accepts
  random := by simpa only [State.begin_obeys, State.begin_lane] using h.random
  secret := by simpa only [State.begin_obeys, State.begin_lane] using h.secret
  keys := by simpa only [State.begin_obeys, State.begin_lane] using h.keys

/-- A command that requests a package whose conditions hold leaves it waiting for the fields of the lanes (R173, R317). -/
theorem PackageReady.exec_waits {s : State} {k : Session} {check : Lane → Option Byte} {key : Lane → LaneId → Option (BitVec 256)}
    {v : LaneId → BitVec 256} {i : Instr} {req : Word} {sub : Byte} {p : Package} {mark : PkgMark}
    (h : PackageReady s k check key v) (hi : exec i s = .next (s.begin.packages k req sub p mark key check)) :
    ∃ t w, ∃ f : LaneId → List Byte, exec i s = .next t ∧
      w.sess = k.id ∧ w.req = req ∧ w.sub = sub ∧ w.pkg = p ∧ w.mark = mark ∧
      OnlySends { s.begin with pkgs := (s.pkgs.filter fun u => !(u.sess == k.id && u.req == req)) ++ [w] } t ∧
      (∀ x z, (w.held.get x).get z = if x = z ∨ s.obeys k z = false then some (f z) else none) ∧
      ∀ x, s.obeys k x = true → (∃ e : BitVec 448, f x = pubOf e ++ kwWrap ((sha384 (ecdh e p.pub ++ [0x4E, 0x44, 0x54, 0x57] ++
          [x.byte] ++ bytesOf p.stn ++ bytesOf p.gen)).extractLsb' 128 256) (bytesOf (v x))) ∧
        ∀ z r, z ≠ x → s.route x z = some r → .xl x z r (.voted (.fields k.id req x (f x))) ∈ t.out := by
  obtain ⟨w, f, sess, hreq, hsub, pkg, hmark, sends, held, each⟩ := h.begin.waits req sub p mark
  simp only [State.begin_obeys, Package.field, packageKek, labelWrap] at held each
  exact ⟨_, w, f, hi, sess, hreq, hsub, pkg, hmark, sends, held, each⟩

/-- Settles O30: a request whose conditions hold waits for the fields of the lanes, and a field that completes the package in two
lanes has it issued. -/
theorem packagesIssued : Obligations.PackagesIssued := by
  unfold Obligations.PackagesIssued
  refine ⟨fun s sess req k pos pend purpose qoc area gen chain y img secret stn key hk maint comm resp => ?_,
    fun s sess req k l z x₁ x₂ y field fs w img secret hk other acts hw => ?_⟩
  · obtain rfl := State.session_id hk
    dsimp only
    simp only [obeying_has, allLanes_has, Bool.true_and]
    intro responds lanes
    have held : ∀ x, s.obeys k x = true → (s.lane x).nv.secret.isSome = true := fun x acts => by simp [(lanes x acts).2.1]
    refine ⟨fun station length flag states keys => ?stn, fun purposes chains keys => ?peer⟩
    case stn =>
      have accepts : ∀ x, s.obeys k x = true → (s.lane x).stnPkgRefusal pos.toNat pend qoc = none ∧
          (s.lane x).pkgGen stn pos.toNat pend = gen := by
        intro x acts
        obtain ⟨image, -, random⟩ := lanes x acts
        obtain ⟨state, generation⟩ := states x acts
        exact Lane.stnPkgRefusal_none image station length flag random state generation
      have ready : PackageReady s k (fun m => m.stnPkgRefusal pos.toNat pend qoc)
          (fun m x => m.keyFor x labelStation stn.stnId gen) key :=
        { someone := ⟨y, responds⟩, accepts := fun x acts => (accepts x acts).1, random := fun x acts => (lanes x acts).2.2,
          secret := held, keys := keys }
      exact ready.exec_waits (exec_stnPkg hk maint comm resp (lanes y responds).1 station (accepts y responds).2)
    case peer =>
      have accepts : ∀ x, s.obeys k x = true → (s.lane x).exportRefusal k purpose chain = none := by
        intro x acts
        have known : (purpose != 0x42 && purpose != 0x48) = false := by
          rcases purposes with rfl | rfl <;> decide
        simp only [Lane.exportRefusal, comm, known, chains x acts, (lanes x acts).2.2, Bool.false_eq_true, if_false, Bool.not_true]
      have ready : PackageReady s k (fun m => m.exportRefusal k purpose chain)
          (fun m x => m.keyFor x (purposeLabel purpose) area gen) key :=
        { someone := ⟨y, responds⟩, accepts := accepts, random := fun x acts => (lanes x acts).2.2, secret := held, keys := keys }
      exact ready.exec_waits (exec_peerExport hk maint req purpose area gen chain)
  · have named : (w.sess == sess && w.req == req) = true := by simpa using List.find?_some hw
    obtain rfl := State.session_id hk
    rw [Bool.and_eq_true, beq_iff_eq, beq_iff_eq] at named
    obtain ⟨sess, rfl⟩ := named
    dsimp only
    let g : PkgWait := { w with held := w.held.put l ((w.held.get l).put z (some field)) }
    let u : State := { s.begin with pkgs := s.pkgs.map fun u => if u.sess == k.id && u.req == w.req then g else u }
    have taken : exec (.votedViewRx l (.fields k.id w.req z field)) s = .next (u.issuePackage k g) :=
      exec_votedFields hk other acts hw field
    refine ⟨fun lacking => ?held, fun two complete resp => ?issued⟩
    case held =>
      rw [taken, State.issuePackage, State.agreedPackage_none lacking]
    case issued =>
      have lane : ∀ x, u.lane x = s.lane x := fun x => by cases x <;> rfl
      have agreed : u.agreedPackage g = some _ := State.agreedPackage_some two
        (State.assembled_some (complete x₁ (.inl rfl)).1 (by rw [lane]; exact (complete x₁ (.inl rfl)).2.1)
          (by rw [lane]; exact (complete x₁ (.inl rfl)).2.2))
        (State.assembled_some (complete x₂ (.inr rfl)).1 (by rw [lane]; exact (complete x₂ (.inr rfl)).2.1)
          (by rw [lane]; exact (complete x₂ (.inr rfl)).2.2))
      have resp' : u.respLane k = some y := (State.respLane_congr (fun x => by simp [lane]) k).trans resp
      obtain ⟨sends, leaves⟩ := State.issuePackage_sends agreed resp'
      have acting : obeying u k allLanes = obeying s k allLanes := by simp only [obeying, State.obeys, lane]
      have others : (u.pkgs.filter fun v => !(v.sess == k.id && v.req == w.req)) =
          s.pkgs.filter fun v => !(v.sess == k.id && v.req == w.req) :=
        filter_map_replaced (fun v => v.sess == k.id && v.req == w.req) (v := g) (by simp [g, sess]) s.pkgs
      rw [acting, show g.sess = k.id from sess, show g.req = w.req from rfl, others] at sends
      exact ⟨_, taken, sends, leaves⟩

end Sys2Proof.Machine
end

section
/-!
PROOFS. The clearing writes (spec/19_register_space.md R383, R387): O18.
-/
namespace Sys2Proof.Machine

/-- A clearing write changes the lanes that it addresses and that act, each as its register's W1C field says. -/
theorem clearIn_eq_writeTo {addr : Nat} {value hold : Word} {f : Lane → Lane}
    (h : ∀ l : Lane, (l.writeW1c addr value hold).getD l = f l) (s : State) (lanes : LaneSet) :
    clearIn lanes addr value hold s.begin = writeTo s lanes f := by
  simp only [clearIn, writeTo, State.begin_lane, h]

/-- A W1C bit takes effect where it is written 1 and no event holds it (R387). -/
theorem clears_iff (value hold : Word) (b : Nat) :
    clears value hold b = true ↔ value.getLsbD b = true ∧ hold.getLsbD b = false := by
  simp [clears]

/-- The byte whose bits are written 1 and not held. -/
theorem setWidth_clears {value hold : Word} {r : Byte}
    (h : ∀ b, b < 8 → r.getLsbD b = (value.getLsbD b && !hold.getLsbD b)) : (value &&& ~~~hold).setWidth 8 = r := by
  apply BitVec.eq_of_getLsbD_eq
  intro b lt
  simp [-BitVec.getLsbD_eq_getElem, lt, h b lt]

/-- SEC_TAP.EN takes the written bit unless the module counts as armed (R321). -/
theorem Lane.writeTap_snd (l : Lane) (armed : Bool) (value : Word) :
    (l.writeTap armed value).2 = if armed = true then l else { l with sec := { l.sec with tap := value.getLsbD 0 } } := by
  unfold Lane.writeTap
  split <;> rfl

/-- Settles O18: each register's clearing write is its W1C write in the lanes that act. -/
theorem clearsByWriting : Obligations.ClearsByWriting := by
  unfold Obligations.ClearsByWriting
  intro s lanes value hold
  refine ⟨?_, ?_, ?_, ?_, ?_, ?_, ?_, ?_, ?_⟩
  case refine_8 =>
    intro r bits
    refine congrArg _ (clearIn_eq_writeTo (fun l => ?_) s lanes)
    simp [Lane.writeW1c, Lane.clearFaults, setWidth_clears bits]
  case refine_9 =>
    simp only [exec, execSecTapEnWrite, writeTo, State.begin_lane, Lane.writeTap_snd, State.countsArmed]
  all_goals
    refine congrArg _ (clearIn_eq_writeTo (fun l => ?_) s lanes)
    simp only [← clears_iff]
    rfl

end Sys2Proof.Machine
end

section
/-!
PROOFS. Dropped cycles, deadlines, D_agree and the start of a phase (spec/02_the_cycle.md R24, R30, R36, R241).
-/
namespace Sys2Proof.Machine

/-! ## Drops and failures -/

/-- `m` is `l` after failures outside the seats: the cycle may be dropped, its registers say why, a drop that stood stands. -/
structure Lane.Fails (l m : Lane) : Prop where
  rest : m = { l with cyc := { l.cyc with drop := m.cyc.drop }, align := m.align, codes := m.codes }
  drop : ∀ d, l.cyc.drop = some d → m.cyc.drop = some d

namespace Lane.Fails

theorem refl (l : Lane) : Fails l l := ⟨rfl, fun _ h => h⟩

theorem trans {l m k : Lane} (h : Fails l m) (i : Fails m k) : Fails l k :=
  ⟨by rw [i.rest, h.rest], fun d e => i.drop d (h.drop d e)⟩

theorem mark (l : Lane) (b : Nat) : Fails l (l.mark b) := ⟨rfl, fun _ h => h⟩

theorem noteCause (l : Lane) (c p : BitVec 4) : Fails l (l.noteCause c p) := ⟨rfl, fun _ h => h⟩

theorem noteEcc (l : Lane) (a b : Nat) : Fails l (l.noteEcc a b) := ⟨rfl, fun _ h => h⟩

theorem dropCycle (l : Lane) (c p : BitVec 4) : Fails l (l.dropCycle c p) := by
  unfold Lane.dropCycle
  split
  · split
    · exact refl l
    next none => exact ⟨rfl, fun d h => by simp [none] at h⟩
  · exact refl l

theorem codeFail (l : Lane) (site : BitVec 4) (i : Nat) : Fails l (l.codeFail site i) :=
  Fails.trans (m := ({ l with codes := { l.codes with cuFail := l.codes.cuFail + 1, site := site, siteIdx := i % 2 ^ 20 } } : Lane).mark 0)
    ⟨rfl, fun _ h => h⟩ (dropCycle ..)

theorem tableFail (l : Lane) (img : Image) (r : Table × Nat) : Fails l (l.tableFail img r) := (noteEcc ..).trans (codeFail ..)

theorem useTables (l : Lane) (img : Image) (rs : List (Table × Nat)) : Fails l (l.useTables img rs).1 := by
  unfold Lane.useTables
  split
  · exact refl l
  · exact tableFail ..

theorem ite {l m k : Lane} {c : Prop} [Decidable c] (h : Fails l m) (i : Fails l k) : Fails l (if c then m else k) := by
  split <;> assumption

section
variable {l m : Lane} (h : Fails l m)
include h

theorem store : m.store = l.store := by rw [h.rest]
theorem seats : m.seats = l.seats := by rw [h.rest]
theorem rot : m.rot = l.rot := by rw [h.rest]
theorem vote : m.vote = l.vote := by rw [h.rest]
theorem stats : m.stats = l.stats := by rw [h.rest]
theorem cyc : m.cyc = { l.cyc with drop := m.cyc.drop } := by rw [h.rest]

end
end Lane.Fails

/-- In a running cycle a drop takes its cause unless one stands, and nothing else of the cycle changes (R36, R44). -/
theorem Lane.dropCycle_cyc {l : Lane} (run : l.cyc.running = true) (c p : BitVec 4) :
    (l.dropCycle c p).cyc = { l.cyc with drop := some (l.cyc.drop.getD { cause := c, phase := p }) } := by
  rw [(Fails.dropCycle l c p).cyc, l.dropCycle_drop c p run]

/-- A running cycle that holds is dropped with the cause, which alignment notes (R36, R44). -/
theorem Lane.dropCycle_of_none {l : Lane} (run : l.cyc.running = true) (holds : l.cyc.drop = none) (c p : BitVec 4) :
    l.dropCycle c p = { (l.noteCause c p).mark 5 with cyc := { l.cyc with drop := some { cause := c, phase := p } } } := by
  rw [Lane.dropCycle, if_pos run]
  split
  next d stands => simp [holds] at stands
  · rfl

/-! ## Lanes of a step -/

@[simp] theorem State.fresh_lane (s : State) (w : Nat) (y : LaneId) : (s.fresh w).2.lane y = s.lane y := by cases y <;> rfl

/-- A change of lane `l` after the start of a step keeps the others. -/
theorem keepsOthers_setLane {s u : State} (same : ∀ y, u.lane y = s.lane y) (l : LaneId) (m : Lane) :
    KeepsOthers s (u.setLane l m) l := fun y hy => by rw [State.setLane_lane_other _ _ hy, same]

/-- Within the phases of a cycle the cycle runs. -/
theorem RunsCycle.running {s : State} {l : LaneId} {img : Image} (h : RunsCycle s l img) : (s.lane l).cyc.running = true := by
  have cycle := h.cycle
  simp only [Lane.inCycle, Bool.and_eq_true] at cycle
  exact cycle.2

@[simp] theorem State.xsend_lane (s : State) (l m : LaneId) (msg : XMsg) (y : LaneId) : (s.xsend l m msg).lane y = s.lane y := by
  unfold State.xsend
  split <;> simp

@[simp] theorem State.xcast_lane (s : State) (l : LaneId) (msg : XMsg) (y : LaneId) : (s.xcast l msg).lane y = s.lane y := by
  simp [State.xcast]

/-! ## Deadlines -/

@[simp] theorem Lane.dropCycle_cuFail (l : Lane) (c p : BitVec 4) : (l.dropCycle c p).codes.cuFail = l.codes.cuFail := by
  unfold Lane.dropCycle
  split
  · split <;> rfl
  · rfl

@[simp] theorem Lane.dropCycle_site (l : Lane) (c p : BitVec 4) : (l.dropCycle c p).codes.site = l.codes.site := by
  unfold Lane.dropCycle
  split
  · split <;> rfl
  · rfl

@[simp] theorem Lane.dropCycle_siteIdx (l : Lane) (c p : BitVec 4) : (l.dropCycle c p).codes.siteIdx = l.codes.siteIdx := by
  unfold Lane.dropCycle
  split
  · split <;> rfl
  · rfl

/-- The slack of a phase changes that figure alone (R45). -/
theorem Lane.noteSlack_eq (l : Lane) (phase : BitVec 4) (v : Nat) :
    l.noteSlack phase v = l.statA fun a => { a with slack := (l.noteSlack phase v).stats.a.slack } := by
  simp only [Lane.noteSlack, Lane.statA]
  split
  · rfl
  · split <;> rfl

/-- A phase that meets its deadline leaves a slack, and one that does not a failure (R24, R36, R45). -/
theorem Lane.meet_rest (l : Lane) (phase : BitVec 4) (deadline t : Nat) : let m := l.meet phase deadline t
    m = { l with cyc := { l.cyc with drop := m.cyc.drop }, align := m.align, codes := m.codes,
                 stats := { l.stats with a := { l.stats.a with slack := m.stats.a.slack } } } := by
  dsimp only
  unfold Lane.meet
  split
  · rw [Lane.noteSlack_eq]
    rfl
  · rw [(Fails.dropCycle l 1 phase).rest]

/-- A running cycle is dropped by a phase that ends after its deadline, unless a drop stands (R36, R44). -/
theorem Lane.meet_cyc {l : Lane} (run : l.cyc.running = true) (phase : BitVec 4) (deadline t : Nat) :
    (l.meet phase deadline t).cyc = { l.cyc with
      drop := if t ≤ deadline then l.cyc.drop else some (l.cyc.drop.getD { cause := 1, phase := phase }) } := by
  unfold Lane.meet
  split
  · rw [Lane.noteSlack_eq]
    rfl
  · exact Lane.dropCycle_cyc run ..

@[simp] theorem Lane.meet_cuFail (l : Lane) (phase : BitVec 4) (deadline t : Nat) :
    (l.meet phase deadline t).codes.cuFail = l.codes.cuFail := by
  unfold Lane.meet
  split
  · rw [Lane.noteSlack_eq]
    rfl
  · simp

/-- A code failure in a running cycle is counted and located and drops the cycle, unless a drop stands (R57, R68). -/
theorem Lane.codeFail_fields {l : Lane} (run : l.cyc.running = true) (site : BitVec 4) (i : Nat) : let m := l.codeFail site i
    m.cyc = { l.cyc with drop := some (l.cyc.drop.getD { cause := 2, phase := l.cyc.phase }) } ∧
      m.codes.cuFail = l.codes.cuFail + 1 ∧ m.codes.site = site ∧ m.codes.siteIdx = i % 2 ^ 20 := by
  refine ⟨?_, by simp [Lane.codeFail, Lane.mark], by simp [Lane.codeFail, Lane.mark], by simp [Lane.codeFail, Lane.mark]⟩
  exact Lane.dropCycle_cyc (by exact run) ..

/-! ## D_agree passes -/

/-- `m` is `l` with the silence of its heartbeat paths judged, and perhaps the takeover conditions posted (R241, R245). -/
structure Lane.Judges (l m : Lane) : Prop where
  rest : m = { l with
    cyc := { l.cyc with judged := m.cyc.judged }
    ptn := { l.ptn with silent1 := m.ptn.silent1, silent2 := m.ptn.silent2, path1 := m.ptn.path1, path2 := m.ptn.path2 }
    fail := { l.fail with takeMine := m.fail.takeMine }
    rcd := m.rcd }

namespace Lane.Judges

theorem refl (l : Lane) : Judges l l := ⟨rfl⟩

theorem trans {l m k : Lane} (h : Judges l m) (i : Judges m k) : Judges l k := ⟨by rw [i.rest, h.rest]⟩

theorem endGap (l : Lane) (p : HbPath) : Judges l (l.endGap p) := by
  cases p <;> dsimp only [Lane.endGap] <;> split <;> exact ⟨rfl⟩

theorem judgeSilence (l : Lane) : Judges l l.judgeSilence := by
  unfold Lane.judgeSilence
  split
  · exact refl l
  · have link : Judges l (if l.ptn.got1 then l.endGap .link else l) := by
      split
      · exact endGap ..
      · exact refl l
    have ring (m : Lane) : Judges m (if l.ptn.got2 then m.endGap .ring else m) := by
      split
      · exact endGap ..
      · exact refl m
    exact (link.trans (ring _)).trans ⟨rfl⟩

theorem passAgree (l : Lane) (img : Image) : Judges l (l.passAgree img) := by
  unfold Lane.passAgree
  split
  · exact refl l
  · exact ((⟨rfl⟩ : Judges l { l with cyc := { l.cyc with judged := true } }).trans (judgeSilence _)).trans ⟨rfl⟩

section
variable {l m : Lane} (h : Judges l m)
include h

theorem inCycle : m.inCycle = l.inCycle := by rw [h.rest]; rfl
theorem phased (x : LaneId) : m.phased x = l.phased x := by rw [h.rest]; rfl
theorem evaluates : m.evaluates = l.evaluates := by rw [h.rest]; rfl
theorem cyc : m.cyc = { l.cyc with judged := m.cyc.judged } := by rw [h.rest]
theorem checked : m.cyc.checked = l.cyc.checked := by rw [h.rest]
theorem store : m.store = l.store := by rw [h.rest]
theorem align : m.align = l.align := by rw [h.rest]
theorem vote : m.vote = l.vote := by rw [h.rest]
theorem role : m.ptn.role = l.ptn.role := by rw [h.rest]
theorem ho : m.fail.ho = l.fail.ho := by rw [h.rest]
theorem ballots (x : LaneId) : m.ballots x = l.ballots x := by rw [h.rest]; rfl
theorem codes : m.codes = l.codes := by rw [h.rest]
theorem seat (x : SeatId) : m.seat x = l.seat x := by rw [h.rest]; rfl

end
end Lane.Judges

/-- D_agree changes the lane whose silence it judges, and no other lane (R241, R245). -/
theorem State.passAgree_lane (s : State) (x : LaneId) (img : Image) (t : Nat) :
    KeepsOthers s (s.passAgree x img t) x ∧ Lane.Judges (s.lane x) ((s.passAgree x img t).lane x) := by
  unfold State.passAgree
  dsimp only
  split
  · exact ⟨fun _ _ => rfl, .refl _⟩
  · split
    · exact ⟨fun y hy => by rw [State.xcast_lane, State.setLane_lane_other _ _ hy], by
        rw [State.xcast_lane, State.setLane_lane_same]; exact .passAgree ..⟩
    · exact ⟨fun y hy => State.setLane_lane_other _ _ hy, by rw [State.setLane_lane_same]; exact .passAgree ..⟩

/-! ## The start of a phase -/

/-- `m` is `l` after seats took nodes: windows rewritten, failures outside the seats, every seat's state and hand kept (R27, R93). -/
structure Lane.Starts (l m : Lane) : Prop where
  rest : m = { l with
    cyc := { l.cyc with drop := m.cyc.drop }, align := m.align, codes := m.codes, seats := m.seats
    store := { l.store with out := m.store.out, poison := m.store.poison }, rot := { l.rot with outs := m.rot.outs } }
  drop : ∀ d, l.cyc.drop = some d → m.cyc.drop = some d
  seat : ∀ x, (m.seat x).code = (l.seat x).code ∧ (m.seat x).hand = (l.seat x).hand

namespace Lane.Starts

theorem refl (l : Lane) : Starts l l := ⟨rfl, fun _ h => h, fun _ => ⟨rfl, rfl⟩⟩

theorem trans {l m k : Lane} (h : Starts l m) (i : Starts m k) : Starts l k where
  rest := by rw [i.rest, h.rest]
  drop d e := i.drop d (h.drop d e)
  seat x := ⟨(i.seat x).1.trans (h.seat x).1, (i.seat x).2.trans (h.seat x).2⟩

theorem foldl {α : Type} {op : Lane → α → Lane} (h : ∀ l a, Starts l (op l a)) (as : List α) (l : Lane) :
    Starts l (as.foldl op l) := by
  induction as generalizing l with
  | nil => exact refl l
  | cons a as ih => exact (h l a).trans (ih _)

theorem of_fails {l m : Lane} (h : Fails l m) : Starts l m where
  rest := by rw [h.rest]
  drop := h.drop
  seat x := by rw [Lane.seat, h.seats]; exact ⟨rfl, rfl⟩

theorem putOut (l : Lane) (settle : Bool) (key : Nat) (c : Coded) : Starts l (l.putOut settle key c) := by
  cases settle <;> exact ⟨rfl, fun _ h => h, fun _ => ⟨rfl, rfl⟩⟩

theorem outFail (l : Lane) (settle : Bool) (key i : Nat) : Starts l (l.outFail settle key i) := by
  cases settle
  · exact of_fails ((Fails.noteEcc ..).trans (.codeFail ..))
  · exact refl l

theorem rewriteWindow (l : Lane) (settle : Bool) (img : Image) (i : Nat) (e : NodeEntry) (n : Cycle) :
    Starts l (l.rewriteWindow settle img i e n) := by
  unfold Lane.rewriteWindow
  split
  · exact refl l
  · refine foldl (fun m k => ?_) _ l
    dsimp only
    split
    · exact outFail ..
    · exact putOut ..

theorem setSeat (l : Lane) (x : SeatId) (node : Option Nat) : Starts l (l.setSeat x ((l.seat x).atNode node)) where
  rest := rfl
  drop _ h := h
  seat y := by
    by_cases e : y = x
    · subst e
      rw [Lane.setSeat_seat_same]
      exact ⟨rfl, rfl⟩
    · rw [Lane.setSeat_seat_other _ _ e]
      exact ⟨rfl, rfl⟩

theorem startNode (l : Lane) (x : SeatId) (img : Image) (node : Option Nat) : Starts l (l.startNode x img node) := by
  have taken := setSeat l x node
  unfold Lane.startNode
  dsimp only
  split
  · exact taken
  · split
    · exact taken
    · split
      · exact taken.trans (rewriteWindow ..)
      · exact taken

theorem startPhase (l : Lane) (img : Image) : Starts l (l.startPhase img) := by
  refine foldl (fun m x => ?_) seatList l
  split
  · exact refl m
  · split
    · exact startNode ..
    · exact refl m

end Lane.Starts

end Sys2Proof.Machine
end

section
/-!
PROOFS. The ends of the sweep, the correction and the check (spec/02_the_cycle.md R27, R31, R59): O38.
-/
namespace Sys2Proof.Machine

/-! ## P5 -/

/-- The start of P5 keeps the banks, what was noted of the sweep, and a drop that stands (R30, R116 to R119). -/
theorem Lane.startP5_fields (l : Lane) (img : Image) (t walk : Nat) : let m := l.startP5 img t walk
    m.store.phys = l.store.phys ∧ m.cyc = { l.cyc with p5 := true, phase := 5, drop := m.cyc.drop } ∧
      m.stats.a.sweep = l.stats.a.sweep ∧ ∀ d, l.cyc.drop = some d → m.cyc.drop = some d := by
  have walked (m : Lane) (r : Option (Table × Nat)) :
      Lane.Starts m ((match r with | none => m | some k => m.tableFail img k).startPhase img) := by
    cases r with
    | none => exact .startPhase ..
    | some k => exact (Starts.of_fails (.tableFail ..)).trans (.startPhase ..)
  have keeps {k m : Lane} (h : Starts k m) (phys : k.store.phys = l.store.phys) (sweep : k.stats.a.sweep = l.stats.a.sweep)
      (cyc : k.cyc = { l.cyc with p5 := true, phase := 5 }) : m.store.phys = l.store.phys ∧
        m.cyc = { l.cyc with p5 := true, phase := 5, drop := m.cyc.drop } ∧ m.stats.a.sweep = l.stats.a.sweep ∧
        ∀ d, l.cyc.drop = some d → m.cyc.drop = some d := by
    refine ⟨(congrArg (·.store.phys) h.rest).trans phys, ?_, (congrArg (·.stats.a.sweep) h.rest).trans sweep,
      fun d e => h.drop d (by rw [cyc]; exact e)⟩
    rw [congrArg (·.cyc) h.rest, cyc]
  dsimp only
  unfold Lane.startP5
  dsimp only
  split
  · exact keeps (.refl _) rfl rfl rfl
  · exact keeps (walked _ _) rfl rfl rfl

/-! ## Output forces -/

/-- Without output forces none rewrites a window (R294). -/
theorem Lane.forceOutputs_of_none {l : Lane} (h : ∀ f ∈ l.force.table, f.out = false) (img : Image) :
    l.forceOutputs img = l := by
  have none : (positions l.force.table).filter (fun f => f.2.out && f.2.activeIn l.cyc.num) = [] := by
    refine List.filter_eq_nil_iff.mpr fun p hp => ?_
    simp [h p.2 (List.of_mem_zip hp).2]
  simp [Lane.forceOutputs, none]

/-! ## The retire bitmap -/

/-- No retire bit is missing where every one is set (R59). -/
theorem Lane.missingRetire_none {l : Lane} {nodes : Nat} (h : ∀ k, k < nodes → Mem.get false l.store.bitmap k = true) :
    l.missingRetire nodes = none := by
  simpa [Lane.missingRetire] using h

/-- The first clear bit is the one missing (R59). -/
theorem Lane.missingRetire_some {l : Lane} {nodes i : Nat} (lt : i < nodes) (clear : Mem.get false l.store.bitmap i = false)
    (set : ∀ k, k < i → Mem.get false l.store.bitmap k = true) : l.missingRetire nodes = some i := by
  rw [Lane.missingRetire, List.find?_range_eq_some]
  exact ⟨by simp [clear], by simpa using lt, fun k hk => by simp [set k hk]⟩

/-- Where no seat settles the comparison at D_check is void (R111). -/
theorem Lane.checkSettle_of_none {l : Lane} (h : ∀ x, (l.seat x).code ≠ 3) : l.checkSettle = l := by
  have none : l.settling = none := by
    simpa [Lane.settling] using fun x _ => h x
  simp [Lane.checkSettle, none]

/-! ## The ends of the sweep, the correction and the check -/

/-- The lane with the end of its sweep noted at instant `t`, and its deadline judged (R24, R27). -/
def Lane.sweepEnd (m : Lane) (d : ImgHeader) (t : Nat) : Lane :=
  (({ m with cyc := { m.cyc with sweep := true, phase := if m.cyc.frozen then m.cyc.phase else 2 } } : Lane).statA
    fun a => { a with sweep := t }).meet 1 (dAgree d) t

theorem Lane.sweepEnd_fields {m : Lane} (run : m.cyc.running = true) (d : ImgHeader) (t : Nat) : let k := m.sweepEnd d t
    k.store = m.store ∧ k.stats.a.sweep = t ∧ k.cyc = { m.cyc with
      sweep := true, phase := if m.cyc.frozen then m.cyc.phase else 2
      drop := if t ≤ dAgree d then m.cyc.drop else some (m.cyc.drop.getD { cause := 1, phase := 1 }) } := by
  refine ⟨?_, ?_, Lane.meet_cyc (by exact run) ..⟩ <;>
  · dsimp only [Lane.sweepEnd]
    rw [Lane.meet_rest]
    rfl

/-- The end of the sweep is noted, and starts P5 in a lane that has settled its agreement (R27, R30). -/
theorem exec_sweepComplete {s : State} {l : LaneId} {img : Image} (runs : RunsCycle s l img)
    (hands : (s.lane l).handsDone = true) (sweep : (s.lane l).cyc.sweep = false) (p5 : (s.lane l).cyc.p5 = false) (t : Nat) :
    ∃ u, exec (.sweepComplete l t) s = .next u ∧ KeepsOthers s u l ∧
      ((s.lane l).cyc.agreed = false → u.lane l = (s.lane l).sweepEnd img.hdr t) ∧
      ((s.lane l).cyc.agreed = true → ∃ walk, u.lane l = ((s.lane l).sweepEnd img.hdr t).startP5 img t walk) := by
  obtain ⟨image, cycle, phased, evaluates⟩ := runs
  have agreed : ((s.lane l).sweepEnd img.hdr t).cyc.agreed = (s.lane l).cyc.agreed := by
    rw [(Lane.sweepEnd_fields (RunsCycle.running ⟨image, cycle, phased, evaluates⟩) img.hdr t).2.2]
  have step : exec (.sweepComplete l t) s = if (s.lane l).cyc.agreed
      then .next ((s.begin.fresh 11).2.setLane l (((s.lane l).sweepEnd img.hdr t).startP5 img t (s.begin.fresh 11).1.toNat))
      else .next (s.begin.setLane l ((s.lane l).sweepEnd img.hdr t)) := by
    simp only [exec, execSweepComplete, State.begin_lane, image]
    rw [if_neg (by simp [cycle, phased, evaluates, hands, sweep, p5])]
    conv_rhs => rw [← agreed]
    rfl
  rw [step]
  cases (s.lane l).cyc.agreed
  · exact ⟨_, rfl, keepsOthers_setLane (by simp) _ _, fun _ => by simp, fun h => by cases h⟩
  · exact ⟨_, rfl, keepsOthers_setLane (by simp) _ _, fun h => (by cases h), fun _ => ⟨_, by simp; rfl⟩⟩

/-- The end of the correction begins P6, and is judged against D_corr (R31, R119). -/
theorem exec_correctionComplete {s : State} {l : LaneId} {img : Image} (runs : RunsCycle s l img)
    (hands : (s.lane l).handsDone = true) (p5 : (s.lane l).cyc.p5 = true) (corr : (s.lane l).cyc.corr = false)
    (noForce : ∀ f ∈ (s.lane l).force.table, f.out = false) (t : Nat) :
    exec (.correctionComplete l t) s = .next (s.begin.setLane l
      ((({ s.lane l with cyc := { (s.lane l).cyc with corr := true, phase := 6 } } : Lane).statA fun a =>
        { a with corrTime := t - a.corrStart }).meet 5 (dCorr img.hdr) t)) := by
  obtain ⟨image, cycle, phased, evaluates⟩ := runs
  simp only [exec, execCorrectionComplete, State.begin_lane, image]
  rw [if_neg (by simp [cycle, phased, evaluates, hands, p5, corr]), Lane.forceOutputs_of_none]
  rw [Lane.meet_rest]
  exact noForce

/-- What the end of the check leaves of a lane `m` (R24, R57, R59). -/
def Lane.checkEnd (m : Lane) (d : ImgHeader) (t : Nat) : Lane :=
  let k : Lane := { m with cyc := { m.cyc with checked := true } }
  match m.missingRetire d.nodes with
  | none => k.meet 6 (dCheck d) t
  | some i => k.codeFail 4 i

theorem Lane.checkEnd_of_full {m : Lane} {d : ImgHeader} (full : m.missingRetire d.nodes = none) (t : Nat) :
    m.checkEnd d t = ({ m with cyc := { m.cyc with checked := true } } : Lane).meet 6 (dCheck d) t := by
  simp [Lane.checkEnd, full]

theorem Lane.checkEnd_of_missing {m : Lane} {d : ImgHeader} {i : Nat} (missing : m.missingRetire d.nodes = some i) (t : Nat) :
    m.checkEnd d t = ({ m with cyc := { m.cyc with checked := true } } : Lane).codeFail 4 i := by
  simp [Lane.checkEnd, missing]

/-- The judgement of the bitmap leaves the banks and the seats (R59). -/
theorem Lane.checkEnd_rest (m : Lane) (d : ImgHeader) (t : Nat) :
    (m.checkEnd d t).store = m.store ∧ (m.checkEnd d t).seats = m.seats := by
  cases missing : m.missingRetire d.nodes with
  | none =>
    rw [Lane.checkEnd_of_full missing, Lane.meet_rest]
    exact ⟨rfl, rfl⟩
  | some i =>
    rw [Lane.checkEnd_of_missing missing]
    exact ⟨(Fails.codeFail ..).store, (Fails.codeFail ..).seats⟩

/-- CHECK_DEADLINE judges the retire bitmap after the silence of the heartbeat paths: before D_check a bitmap that is
not full waits (R59, R241). -/
theorem exec_checkDeadline {s : State} {l : LaneId} {img : Image} (runs : RunsCycle s l img)
    (checked : (s.lane l).cyc.checked = false) (idle : ∀ x, ((s.lane l).seat x).code ≠ 3) (t : Nat) :
    ∃ u n, exec (.checkDeadline { lane := l, t := t }) s = .next u ∧ KeepsOthers s u l ∧ Lane.Judges (s.lane l) n ∧
      u.lane l = if (n.missingRetire img.hdr.nodes).isSome && t < dCheck img.hdr then n else n.checkEnd img.hdr t := by
  obtain ⟨image, cycle, phased, evaluates⟩ := runs
  let p := s.begin.passAgree l img t
  obtain ⟨keeps, judges⟩ : KeepsOthers s.begin p l ∧ Lane.Judges (s.begin.lane l) (p.lane l) := s.begin.passAgree_lane l img t
  rw [State.begin_lane] at judges
  have others : KeepsOthers s p l := fun y hy => (keeps y hy).trans (s.begin_lane y)
  have step : exec (.checkDeadline { lane := l, t := t }) s =
      if ((p.lane l).missingRetire img.hdr.nodes).isSome && t < dCheck img.hdr then .next p
      else .next (p.setLane l ((p.lane l).checkEnd img.hdr t).checkSettle) := by
    simp only [exec, execCheckDeadline, State.begin_lane, image]
    rw [if_neg]
    · rfl
    · simp [p, judges.inCycle, judges.phased, judges.evaluates, judges.checked, cycle, phased, evaluates, checked]
  have seats : ∀ x, (((p.lane l).checkEnd img.hdr t).seat x).code ≠ 3 := fun x => by
    rw [Lane.seat, (Lane.checkEnd_rest ..).2, ← Lane.seat, judges.seat]
    exact idle x
  rw [step, Lane.checkSettle_of_none seats]
  cases waits : ((p.lane l).missingRetire img.hdr.nodes).isSome && t < dCheck img.hdr
  · exact ⟨_, _, rfl, fun y hy => by rw [State.setLane_lane_other _ _ hy, others y hy], judges, by simp [waits]⟩
  · exact ⟨_, _, rfl, others, judges, by simp [waits]⟩

/-- Settles O38: each end is noted in the lane, and its deadline judged as `Lane.meet` has it; the bitmap is judged by its
first clear bit. -/
theorem sweepAndCorrection : Obligations.SweepAndCorrection := by
  unfold Obligations.SweepAndCorrection
  intro s l t i img
  dsimp only
  intro runs
  refine ⟨fun hands => ⟨fun sweep p5 => ?_, fun p5 corr noForce => ?_⟩, fun checked idle => ⟨fun full => ?_, fun lt lt' clear set => ?_⟩⟩
  · obtain ⟨u, next, others, alone, both⟩ := exec_sweepComplete runs hands sweep p5 t
    obtain ⟨store, time, cyc⟩ := Lane.sweepEnd_fields runs.running img.hdr t
    refine ⟨u, next, others, ?_⟩
    cases agreed : (s.lane l).cyc.agreed with
    | false =>
      rw [alone agreed, cyc, store, time, p5]
      refine ⟨rfl, rfl, rfl, rfl, fun intime _ => if_pos intime, fun late => if_neg (by exact Nat.not_le.mpr late)⟩
    | true =>
      obtain ⟨walk, lane⟩ := both agreed
      obtain ⟨phys, p5cyc, p5time, stands⟩ := ((s.lane l).sweepEnd img.hdr t).startP5_fields img t walk
      rw [lane]
      refine ⟨by rw [p5cyc, cyc], by rw [p5cyc], p5time.trans time, phys.trans (by rw [store]), fun _ h => (by cases h),
        fun late => stands _ ?_⟩
      rw [cyc]
      exact if_neg (by exact Nat.not_le.mpr late)
  · refine ⟨_, exec_correctionComplete runs hands p5 corr noForce t, keepsOthers_setLane (fun y => s.begin_lane y) _ _, ?_⟩
    rw [State.setLane_lane_same, Lane.meet_cyc (by exact runs.running)]
    refine ⟨rfl, rfl, ?_, rfl⟩
    rw [Lane.meet_rest]
    rfl
  · obtain ⟨u, n, next, others, judges, lane⟩ := exec_checkDeadline runs checked idle t
    have none : n.missingRetire img.hdr.nodes = none := Lane.missingRetire_none (by rw [judges.store]; exact full)
    refine ⟨u, next, others, ?_⟩
    rw [lane, if_neg (by simp [none]), (Lane.checkEnd_rest ..).1, judges.store, Lane.checkEnd_of_full none, Lane.meet_cuFail,
      Lane.meet_cyc (by exact judges.cyc ▸ runs.running)]
    refine ⟨rfl, rfl, by rw [judges.codes], ?_⟩
    rw [judges.cyc]
  · obtain ⟨u, n, next, others, judges, lane⟩ := exec_checkDeadline runs checked idle t
    have missing : n.missingRetire img.hdr.nodes = some i := by
      rw [← judges.store] at clear set
      exact Lane.missingRetire_some lt clear set
    refine ⟨u, next, others, ?_, fun early => ?_, fun late => ?_⟩
    · rw [lane]
      split
      · exact judges.store
      · rw [(Lane.checkEnd_rest ..).1, judges.store]
    · rw [lane, if_pos (by simp [missing, early]), judges.codes, judges.checked, checked]
      exact ⟨rfl, by rw [judges.cyc], rfl⟩
    · rw [lane, if_neg (by simp [late]), Lane.checkEnd_of_missing missing]
      have running : n.cyc.running = true := judges.cyc ▸ runs.running
      obtain ⟨cyc, count, site, idx⟩ :=
        Lane.codeFail_fields (l := { n with cyc := { n.cyc with checked := true } }) (by exact running) 4 i
      rw [cyc, count, site, idx, Nat.mod_eq_of_lt lt', judges.codes, judges.cyc]
      exact ⟨rfl, rfl, rfl, rfl, rfl⟩

end Sys2Proof.Machine
end

section
/-!
PROOFS. Digests, votes, tags and notices (spec/02_the_cycle.md R32, R36; spec/09_agreement_and_vote.md R200, R201): O41.
-/
namespace Sys2Proof.Machine

/-! ## The seal decoder -/

/-- Not every item of a list is there. -/
theorem allSome_eq_none {α : Type} {vs : List (Option α)} (h : allSome vs = none) : none ∈ vs := by
  induction vs with
  | nil => cases h
  | cons v vs ih =>
    cases v with
    | none => exact List.mem_cons_self
    | some v => exact List.mem_cons_of_mem _ (ih (by simpa [allSome] using h))

/-- Where outbound half-words do not all pass, one of them does not (R60, R66). -/
theorem Lane.outHalves_eq_none {l : Lane} {n : Cycle} {ks : List Nat} (h : l.outHalves n ks = none) :
    ∃ k ∈ ks, l.outValueAt false k n = none := by
  simpa using allSome_eq_none h

/-- A digest that cannot be formed meets a half-word that does not pass (R66, R200). -/
theorem Lane.digest_eq_none {l : Lane} {x : LaneId} {img : Image} (h : l.digest x img = none) :
    ∃ k ∈ sealKeys img ++ localKeys, l.outValueAt false k l.cyc.num = none := by
  cases stns : l.stationDigests img l.cyc.num with
  | none =>
    obtain ⟨p, pos, fails⟩ : ∃ p ∈ positions img.stations, l.payload l.cyc.num p.1 p.2 = none := by
      simpa using allSome_eq_none stns
    obtain ⟨k, mem, bad⟩ := Lane.outHalves_eq_none (Option.map_eq_none_iff.mp fails)
    exact ⟨k, List.mem_append_left _ (List.mem_append_left _ (List.mem_flatMap.mpr ⟨p, pos, mem⟩)), bad⟩
  | some ds =>
    cases nbs : l.outHalves l.cyc.num (img.outNbs.flatMap fun p => nbOutKeys p.2 p.1.val) with
    | none =>
      obtain ⟨k, mem, bad⟩ := Lane.outHalves_eq_none nbs
      exact ⟨k, List.mem_append_left _ (List.mem_append_right _ mem), bad⟩
    | some bs =>
      cases word : l.localWord l.cyc.num with
      | none =>
        obtain ⟨k, mem, bad⟩ := Lane.outHalves_eq_none (Option.map_eq_none_iff.mp word)
        exact ⟨k, List.mem_append_right _ mem, bad⟩
      | some w => simp [Lane.digest, stns, nbs, word] at h

theorem Lane.Fails.sealFails (l : Lane) (n : Cycle) (ks : List Nat) : Lane.Fails l (l.sealFails n ks) := by
  unfold Lane.sealFails
  split
  · exact .refl _
  · exact (noteEcc ..).trans (codeFail ..)

/-- A half-word that does not pass the seal decoder is a code failure of site 6 (R66, R68). -/
theorem Lane.sealFails_fields {l : Lane} (run : l.cyc.running = true) {n : Cycle} {ks : List Nat}
    (h : ∃ k ∈ ks, l.outValueAt false k n = none) :
    (l.sealFails n ks).cyc = { l.cyc with drop := some (l.cyc.drop.getD { cause := 2, phase := l.cyc.phase }) } ∧
      (l.sealFails n ks).codes.site = 6 := by
  unfold Lane.sealFails
  split
  next none =>
    obtain ⟨k, mem, bad⟩ := h
    simpa [bad] using List.find?_eq_none.mp none k mem
  next k _ =>
    obtain ⟨cyc, -, site, -⟩ := Lane.codeFail_fields (l := l.noteEcc 0 (l.outBadAt false k).toNat) (by exact run) 6 (k / 256)
    exact ⟨cyc, site⟩

/-! ## DIGEST_SEND -/

section
variable {s : State} {l : LaneId} {img : Image} (runs : RunsCycle s l img) (corr : (s.lane l).cyc.corr = true)
  (unsent : (s.lane l).cyc.digSent = false) (holds : (s.lane l).cyc.drop = none)
  (full : (s.lane l).missingRetire img.hdr.nodes = none)
include runs corr unsent holds full

/-- A digest that is formed is kept and sent (R200). -/
theorem exec_digestSend_of_some {f : DigestFrame} (formed : (s.lane l).digest l img = some f) :
    exec (.digestSend l) s = .next ((s.begin.setLane l { s.lane l with
      cyc := { (s.lane l).cyc with digSent := true, phase := 7 }
      vote := { (s.lane l).vote with own := some f } }).xcast l (.digest f)) := by
  obtain ⟨image, cycle, phased, evaluates⟩ := runs
  simp only [exec, execDigestSend, State.begin_lane, image]
  rw [if_neg (by simp [cycle, phased, evaluates, corr, unsent, holds, full])]
  simp only [formed]

/-- A digest that cannot be formed is not sent (R66, R200). -/
theorem exec_digestSend_of_none (unformed : (s.lane l).digest l img = none) :
    exec (.digestSend l) s =
      .next (s.begin.setLane l ((s.lane l).sealFails (s.lane l).cyc.num (sealKeys img ++ localKeys))) := by
  obtain ⟨image, cycle, phased, evaluates⟩ := runs
  simp only [exec, execDigestSend, State.begin_lane, image]
  rw [if_neg (by simp [cycle, phased, evaluates, corr, unsent, holds, full])]
  simp only [unformed]

end

/-! ## The vote -/

theorem State.foldl_xsend_lane (x : LaneId) (msg : XMsg) (ys : List LaneId) (s : State) (z : LaneId) :
    (ys.foldl (fun t y => t.xsend x y msg) s).lane z = s.lane z := by
  induction ys generalizing s with
  | nil => rfl
  | cons y ys ih => rw [List.foldl_cons, ih, State.xsend_lane]

/-- A lane that has seen no reason to change its commander settles the vote for its own module (R245, R256). -/
theorem Lane.settle_active {l : Lane} (role : l.ptn.role = 0) (ho : l.fail.ho = .idle) (x : LaneId) (img : Image) :
    (l.settleTakeover x img).settleHandover img = l := by
  rw [Lane.settleTakeover, if_neg (by simp [role]), Lane.settleHandover]
  simp only [ho]

/-- The records of a vote (R44, R201, R202, R213). -/
theorem Lane.recordVote_fields (l : Lane) (x : LaneId) (r : VoteRes) : let m := l.recordVote x r
    m.store = l.store ∧ m.fail = l.fail ∧
      m.cyc = { l.cyc with voted := true, phase := 8, sealed := r.sealed, modDrop := !r.sealed } ∧
      m.stats.b = { l.stats.b with
        outcome := r.outcome, agree := r.agree, nodig := r.nodig, outvoted := LaneSet.those fun y => r.outvoted == some y } ∧
      m.vote.service = l.vote.service ∧ m.vote.pair = (sealSet l.cyc.num r).map (·.1) ∧
      (∀ y, r.outvoted = some y → m.vote.wins = l.vote.wins.put y (l.vote.wins.get y ++ [l.cyc.num.toNat])) ∧
      (r.sealed = false → l.cyc.drop = none → l.align.noted = false → m.align.dcCause = 6) := by
  unfold Lane.recordVote
  dsimp only
  split
  next dropped =>
    exact ⟨rfl, rfl, rfl, rfl, rfl, rfl, fun y h => by simp only [h]; rfl, fun _ none => by simp [none] at dropped⟩
  next =>
    split
    · exact ⟨rfl, rfl, rfl, rfl, rfl, rfl, fun y h => by simp only [h]; rfl, fun _ _ fresh => by simp [Lane.noteCause, fresh]⟩
    next sealed =>
      split <;>
      exact ⟨rfl, rfl, rfl, rfl, rfl, rfl, fun y h => by simp only [h]; rfl, fun unsealed => by simp [unsealed] at sealed⟩

/-- A cycle that is not sealed has no seal set (R183). -/
theorem sealSet_of_unsealed {n : Cycle} {r : VoteRes} (h : r.sealed = false) : sealSet n r = none := by
  simp only [VoteRes.sealed, Bool.or_eq_false_iff, beq_eq_false_iff_ne] at h
  obtain ⟨⟨h0, h1⟩, h3⟩ := h
  rw [sealSet, if_neg h0, if_neg (by simpa using ⟨h1, h3⟩)]

/-- `m` is `l` after the seal: its own tags held, and the cycle perhaps dropped (R66, R184). -/
structure Lane.Seals (l m : Lane) : Prop where
  rest : m = { l with
    cyc := { l.cyc with drop := m.cyc.drop }, align := m.align, codes := m.codes, vote := { l.vote with tags := m.vote.tags } }

theorem Lane.Seals.of_fails {l m : Lane} (h : Fails l m) : Seals l m := ⟨by rw [h.rest]⟩

theorem Lane.Seals.trans {l m k : Lane} (h : Seals l m) (i : Seals m k) : Seals l k := ⟨by rw [i.rest, h.rest]⟩

/-- The lane of a cycle that is not sealed forms no tags; a lane of the seal set holds its own (R66, R184). -/
theorem State.sealCycle_lane (s : State) (x : LaneId) (img : Image) : KeepsOthers s (s.sealCycle x img) x ∧
    Lane.Seals (s.lane x) ((s.sealCycle x img).lane x) ∧
    ((s.lane x).vote.pair = none → (s.sealCycle x img).lane x = s.lane x) := by
  have same : KeepsOthers s s x ∧ Lane.Seals (s.lane x) (s.lane x) ∧ ((s.lane x).vote.pair = none → s.lane x = s.lane x) :=
    ⟨fun _ _ => rfl, ⟨rfl⟩, fun _ => rfl⟩
  unfold State.sealCycle
  dsimp only
  split
  · exact same
  next p pair =>
    split
    · exact same
    · refine ⟨fun y hy => by rw [State.foldl_xsend_lane, State.setLane_lane_other _ _ hy], ?_, fun none => ?_⟩
      · rw [State.foldl_xsend_lane, State.setLane_lane_same]
        have held (m : Lane) (tags) : Lane.Seals m { m with vote := { m.vote with tags := tags } } := ⟨rfl⟩
        have used (tags) := (Lane.Seals.of_fails (.useTables (s.lane x) img [(paramTable, 0)])).trans (held _ tags)
        exact (used _).trans (.of_fails (.ite (.sealFails ..) (.refl _)))
      · cases pair.symm.trans none

theorem State.sendDeltas_lane (s : State) (x : LaneId) (img : Image) (r : VoteRes) (z : LaneId) :
    (s.sendDeltas x img r).lane z = s.lane z := by
  unfold State.sendDeltas
  dsimp only
  split
  · rfl
  · split <;> simp [State.foldl_xsend_lane]

/-- VOTE in a lane of the active module, with every ballot held or at D_vote: the ballots settle it (R201). -/
theorem exec_vote {s : State} {l : LaneId} {img : Image} {t : Nat} (runs : RunsCycle s l img)
    (unvoted : (s.lane l).cyc.voted = false) (role : (s.lane l).ptn.role = 0) (ho : (s.lane l).fail.ho = .idle)
    (intime : t ≤ dVote img.hdr) (ballots : (s.lane l).ballotsIn l = true ∨ t = dVote img.hdr) :
    let r := settleVote (s.lane l).vote.service ((s.lane l).ballots l)
    ∃ u n a, exec (.vote l t) s = .next u ∧ KeepsOthers s u l ∧ Lane.Judges (s.lane l) n ∧
      let k := ((n.statA a).recordVote l r).keepDigests l img r
      Lane.Seals k (u.lane l) ∧ (k.vote.pair = none → u.lane l = k) := by
  obtain ⟨image, cycle, phased, evaluates⟩ := runs
  let p := s.begin.passAgree l img t
  obtain ⟨keeps, judges⟩ : KeepsOthers s.begin p l ∧ Lane.Judges (s.begin.lane l) (p.lane l) := s.begin.passAgree_lane l img t
  rw [State.begin_lane] at judges
  obtain ⟨a, met⟩ : ∃ a, (p.lane l).meet 7 (dVote img.hdr) t = (p.lane l).statA a :=
    ⟨_, by rw [Lane.meet, if_pos intime, Lane.noteSlack_eq]⟩
  have settled : (((p.lane l).meet 7 (dVote img.hdr) t).settleTakeover l img).settleHandover img = (p.lane l).statA a := by
    rw [met]
    exact Lane.settle_active (l := (p.lane l).statA a) (judges.role.trans role) (judges.ho.trans ho) ..
  have same : settleVote (s.lane l).vote.service ((s.lane l).ballots l) =
      settleVote ((p.lane l).statA a).vote.service (((p.lane l).statA a).ballots l) := by
    rw [← judges.vote, ← judges.ballots]
    rfl
  dsimp only
  rw [same]
  let r := settleVote ((p.lane l).statA a).vote.service (((p.lane l).statA a).ballots l)
  let k := (((p.lane l).statA a).recordVote l r).keepDigests l img r
  have step : exec (.vote l t) s = .next (((p.setLane l k).sealCycle l img).sendDeltas l img r) := by
    have unwaited : (s.lane l).sealWaits = false := by simp [Lane.sealWaits, role, ho]
    have due (h : (s.lane l).ballotsIn l = false) : dVote img.hdr ≤ t := (ballots.resolve_left (by simp [h])).ge
    simp only [exec, execVote, State.begin_lane, image]
    rw [if_neg (by simpa [cycle, phased, evaluates, unvoted, unwaited] using due), settled]
    have hoCode : k.fail.hoCode = (p.lane l).fail.hoCode :=
      congrArg (·.hoCode) (Lane.recordVote_fields ((p.lane l).statA a) l r).2.1
    exact congrArg _ (if_neg fun h => bne_iff_ne.mp h hoCode)
  obtain ⟨others, seals, unpaired⟩ := (p.setLane l k).sealCycle_lane l img
  rw [State.setLane_lane_same] at seals unpaired
  refine ⟨_, p.lane l, a, step, fun y hy => ?_, judges, ?_, ?_⟩
  · rw [State.sendDeltas_lane, others y hy, State.setLane_lane_other _ _ hy, keeps y hy, State.begin_lane]
  · rw [State.sendDeltas_lane]
    exact seals
  · rw [State.sendDeltas_lane]
    exact unpaired
/-- Settles O41: each intake holds its frame, the vote is `settleVote` of the ballots, and what is sealed is not dropped. -/
theorem digestsAndVotes : Obligations.DigestsAndVotes := by
  unfold Obligations.DigestsAndVotes
  intro s l sender t img f g c ph
  dsimp only
  intro runs
  refine ⟨fun corr unsent holds full formed => exec_digestSend_of_some runs corr unsent holds full formed,
    fun corr unsent holds full unformed => ?_, fun other num counts => ?_, fun unvoted role ho intime ballots => ?_,
    fun other num unguarded => ?_, fun other num => ?_, fun holds => ?_⟩
  · refine ⟨_, exec_digestSend_of_none runs corr unsent holds full unformed, keepsOthers_setLane (fun y => s.begin_lane y) _ _,
      by simp, ?_⟩
    rw [State.setLane_lane_same]
    obtain ⟨cyc, site⟩ := Lane.sealFails_fields runs.running (Lane.digest_eq_none unformed)
    exact ⟨by rw [cyc, holds]; rfl, site⟩
  · obtain ⟨image, cycle, phased, evaluates⟩ := runs
    simp only [exec, execOutputDigestRx, State.begin_lane]
    rcases counts with ⟨live, serves, unvoted⟩ | ⟨shadow, serves, code⟩
    · rw [if_pos (by simp [cycle, live, serves, other, num, unvoted])]
    · rw [if_neg (by simp [shadow]), if_pos (by simp [cycle, shadow, serves, other, num, code])]
  · obtain ⟨u, n, a, next, others, judges, seals, unpaired⟩ := exec_vote runs unvoted role ho intime ballots
    obtain ⟨store, -, cyc, statB, service, pair, wins, cause⟩ :=
      Lane.recordVote_fields (n.statA a) l (settleVote (s.lane l).vote.service ((s.lane l).ballots l))
    generalize settleVote (s.lane l).vote.service ((s.lane l).ballots l) = r at *
    have ncyc : (n.statA a).cyc = _ := judges.cyc
    refine ⟨u, next, others, ?_, ?_, ?_, ?_, ?_, ?_, ?_, fun y outvoted => ?_, fun unsealed holds fresh => ?_, fun zero => ?_⟩
    · rw [seals.rest]
      exact store.trans judges.store
    · rw [seals.rest]
      exact congrArg (·.voted) cyc
    · rw [seals.rest]
      exact congrArg (·.phase) cyc
    · rw [seals.rest]
      exact congrArg (·.sealed) cyc
    · rw [seals.rest]
      exact congrArg (·.outcome) statB
    · rw [seals.rest]
      exact congrArg (·.nodig) statB
    · rw [seals.rest]
      exact service.trans (congrArg (·.service) judges.vote)
    · rw [seals.rest]
      refine (congrArg (·.get y) (wins y outvoted)).trans ?_
      rw [PerLane.get_put, if_pos rfl, ncyc]
      exact congrArg (fun v => v.wins.get y ++ _) judges.vote
    · have unpair : ((n.statA a).recordVote l r).vote.pair = none := by rw [pair, sealSet_of_unsealed unsealed]; rfl
      have drop : (n.statA a).cyc.drop = none := by rw [ncyc]; exact holds
      rw [unpaired unpair]
      exact ⟨cause unsealed drop (judges.align ▸ fresh), (congrArg (·.drop) cyc).trans drop⟩
    · rw [seals.rest]
      refine pair.trans ?_
      rw [sealSet, if_pos zero, ncyc]
      rfl
  · obtain ⟨image, cycle, phased, evaluates⟩ := runs
    simp only [exec, execSealTagRx, State.begin_lane]
    rw [if_pos (by simp [cycle, num, unguarded, other])]
  · obtain ⟨image, cycle, phased, evaluates⟩ := runs
    simp only [exec, execSealFailureNoticeRx, State.begin_lane]
    rw [if_pos (by simp [cycle, num, other])]
  · simp only [exec, execDeadlineMiss, State.modLane, State.begin_lane]
    rw [Lane.dropCycle_of_none runs.running holds]
    rfl

end Sys2Proof.Machine
end

section
/-!
PROOFS. The freeze (spec/02_the_cycle.md R29; spec/09_agreement_and_vote.md R194; spec/12_cluster_and_host.md R279;
spec/13_modes_and_forcing.md R288): O36.
-/
namespace Sys2Proof.Machine

/-! ## Round 1 -/

/-- `m` is `l` with targets settled: round 1 done, telegrams held or to be fetched (R195). -/
structure Lane.Targets (l m : Lane) : Prop where
  rest : m = { l with
    field := { l.field with
      targets := m.field.targets, hold := m.field.hold, fetches := m.field.fetches, r1Done := m.field.r1Done }
    stats := m.stats }

theorem Lane.Targets.refl (l : Lane) : Targets l l := ⟨rfl⟩

theorem Lane.Targets.trans {l m k : Lane} (h : Targets l m) (i : Targets m k) : Targets l k := ⟨by rw [i.rest, h.rest]⟩

theorem Lane.settleTarget_targets (l : Lane) (r : PerLane (List (Nat × Half))) (acc : Lane × List (LaneId × Nat)) (p : Nat) :
    Targets acc.1 (l.settleTarget r acc p).1 := by
  unfold Lane.settleTarget
  dsimp only
  split
  · exact .refl _
  · split
    · exact ⟨rfl⟩
    · split <;> exact ⟨rfl⟩

theorem Lane.settleTargets_targets (l : Lane) (x : LaneId) (stations : Nat) : Targets l (l.settleTargets x stations).1 := by
  have fold (ps : List Nat) (acc : Lane × List (LaneId × Nat)) :
      Targets acc.1 (ps.foldl (l.settleTarget (l.reports x)) acc).1 := by
    induction ps generalizing acc with
    | nil => exact .refl _
    | cons p ps ih => exact (Lane.settleTarget_targets ..).trans (ih _)
  exact Lane.Targets.trans ⟨rfl⟩ (fold _ _)

/-- Settling round 1 settles the targets of the lane, and asks for the telegrams it lacks (R195). -/
theorem State.tryRound1_sends (s : State) (x : LaneId) :
    ∃ m, Lane.Targets (s.lane x) m ∧ OnlySends (s.setLane x m) (s.tryRound1 x) := by
  have same : ∃ m, Lane.Targets (s.lane x) m ∧ OnlySends (s.setLane x m) s :=
    ⟨_, .refl _, by rw [State.setLane_self]; exact .refl s⟩
  unfold State.tryRound1
  split
  · unfold State.settleRound1
    dsimp only
    split
    · exact same
    · exact ⟨_, Lane.settleTargets_targets .., .foldl (fun _ _ => .xsend ..) _ _⟩
  · exact same

/-- Without pending voted reads a freeze samples none (R381). -/
theorem State.sampleFreeze_of_none {s : State} (h : s.reads = []) (x : LaneId) : s.sampleFreeze x = s := by
  simp [State.sampleFreeze, h]

theorem OnlySends.reads_eq {u t : State} (h : OnlySends u t) : t.reads = u.reads := by rw [h.rest]

/-! ## A freeze in a lane -/

/-- `t` is `s` after lane `l` has changed and messages have left. -/
structure State.Touches (l : LaneId) (s t : State) : Prop where
  sent : ∀ o ∈ s.out, o ∈ t.out
  links : t.links = s.links
  reads : t.reads = s.reads
  lanes : ∀ y, y ≠ l → t.lane y = { s.lane y with ring := { (s.lane y).ring with seq := (t.lane y).ring.seq } }

namespace State.Touches

theorem trans {l : LaneId} {s t u : State} (h : Touches l s t) (i : Touches l t u) : Touches l s u where
  sent o ho := i.sent o (h.sent o ho)
  links := i.links.trans h.links
  reads := i.reads.trans h.reads
  lanes y hy := by rw [i.lanes y hy, h.lanes y hy]

theorem of_sends {s t : State} (l : LaneId) (h : OnlySends s t) : Touches l s t where
  sent _ ho := h.mem ho
  links := h.links_eq
  reads := h.reads_eq
  lanes y _ := h.lanes y

theorem setLane (s : State) (l : LaneId) (m : Lane) : Touches l s (s.setLane l m) where
  sent _ ho := by simpa using ho
  links := by cases l <;> rfl
  reads := by cases l <;> rfl
  lanes y hy := by rw [State.setLane_lane_other _ _ hy]

end State.Touches

/-- `m` is `l` after commands and posts of its host have settled (R279, R288). -/
structure Lane.Settles (l m : Lane) : Prop where
  rest : m = { l with mode := m.mode, host := m.host, rcd := m.rcd, ring := m.ring }

/-- The round-1 frame that a lane forms at its freeze carries its candidates (R29, R194). -/
theorem Lane.closeInputs_round1Frame (l : Lane) : l.closeInputs.round1Frame =
    { cyc := l.cyc.num, cands := l.field.cands.filterMap fun p => p.2.map fun d => (p.1, (d.seq.setWidth 16 : Half)) } := by
  simp only [Lane.round1Frame, Lane.closeInputs, List.filterMap_map, Function.comp_def, Option.map_map]

/-- A freeze settles the commands and posts of the host, closes the inputs of the lane and sends its round-1 frame (R29, R194,
R279). -/
theorem exec_freeze {s : State} {l : LaneId} {img : Image} (runs : RunsCycle s l img) (unfrozen : (s.lane l).cyc.frozen = false)
    (serves : (s.lane l).serves l = true) (noReads : s.reads = [])
    (freezes : ((s.begin.settleModules l img).lane l).freezes = true) {u : State}
    (settled : (s.begin.settleModules l img).settlePosts l img = u) (touches : State.Touches l s.begin u)
    (settles : Lane.Settles (s.lane l) (u.lane l)) :
    let cands := (s.lane l).field.cands.filterMap fun p => p.2.map fun d => (p.1, (d.seq.setWidth 16 : Half))
    ∃ t, (exec (.freeze l) s = .next t ∧ (t.lane l).cyc.frozen = true ∧
      (t.lane l).cyc.phase = 4 ∧ (t.lane l).store = (s.lane l).store ∧ (t.lane l).field.cands = (s.lane l).field.cands ∧
      (∀ y, y ≠ l → (t.lane y).store = (s.lane y).store ∧ (t.lane y).cyc = (s.lane y).cyc ∧
        (t.lane y).field = (s.lane y).field ∧ (t.lane y).host = (s.lane y).host) ∧
      ∀ y r, y ≠ l → s.route l y = some r → .xl l y r (.round1 { cyc := (s.lane l).cyc.num, cands := cands }) ∈ t.out) ∧
      (t.lane l).host = (u.lane l).host ∧ (t.lane l).mode = (u.lane l).mode ∧ (t.lane l).force = (s.lane l).force := by
  obtain ⟨image, cycle, phased, evaluates⟩ := runs
  have open' : (s.lane l).freezes = true := by simp [Lane.freezes, cycle, unfrozen]
  have closes : (u.lane l).freeze l = (u.lane l).closeInputs := if_pos (by rw [settles.rest]; exact phased)
  let k := u.setLane l (u.lane l).closeInputs
  let cands := (s.lane l).field.cands.filterMap fun p => p.2.map fun d => (p.1, (d.seq.setWidth 16 : Half))
  let f : Round1 := { cyc := (s.lane l).cyc.num, cands := cands }
  have frame : (k.lane l).round1Frame = f := by
    rw [State.setLane_lane_same, Lane.closeInputs_round1Frame, settles.rest]
  have cast : k.sendRound1 l = k.xcast l (.round1 f) := by
    rw [State.sendRound1, frame, if_pos]
    rw [State.setLane_lane_same, settles.rest]
    exact serves
  obtain ⟨n, targets, sends⟩ := (k.xcast l (.round1 f)).tryRound1_sends l
  let t := (k.xcast l (.round1 f)).tryRound1 l
  have before : State.Touches l s.begin k := touches.trans (.setLane ..)
  have after : State.Touches l (k.xcast l (.round1 f)) t := (State.Touches.setLane ..).trans (.of_sends l sends)
  have all : State.Touches l s.begin t := before.trans ((State.Touches.of_sends l (.xcast ..)).trans after)
  have step : exec (.freeze l) s = .next t := by
    simp only [exec, execFreeze, State.begin_lane, image, open', freezes, settled, State.modLane, closes, Bool.not_true, Bool.false_eq_true, if_false]
    exact congrArg _ ((congrArg (fun v => (v.tryRound1 l).sampleFreeze l) cast).trans
      (State.sampleFreeze_of_none (all.reads.trans noReads) l))
  have lane : t.lane l = _ := sends.lanes l
  rw [State.setLane_lane_same, targets.rest, State.xcast_lane, State.setLane_lane_same] at lane
  refine ⟨t, ⟨step, by rw [lane]; rfl, by rw [lane]; rfl, ?_, ?_, fun y hy => ?_, fun y r hy route => ?_⟩, by rw [lane]; rfl,
    by rw [lane]; rfl, ?_⟩
  · rw [lane]
    exact congrArg (·.store) settles.rest
  · rw [lane]
    exact congrArg (·.field.cands) settles.rest
  · rw [all.lanes y hy, State.begin_lane]
    exact ⟨rfl, rfl, rfl, rfl⟩
  · exact after.sent _ (State.xcast_mem hy ((State.route_congr before.links ..).trans route) _)
  · rw [lane]
    exact congrArg (·.force) settles.rest

/-! ## Commands and posts of the host -/

/-- Without module-scope commands none settles (R288). -/
theorem State.settleModules_of_none {s : State} {x : LaneId} (h : (s.lane x).host.modCmds = []) (img : Image) :
    s.settleModules x img = s := by
  have same : ({ s.lane x with host := { (s.lane x).host with modCmds := [] } } : Lane) = s.lane x := by rw [← h]
  rw [State.settleModules, h, State.modLane, same]
  simp

/-- Posts that are not due stay (R279). -/
theorem State.settlePosts_of_none {s : State} {x : LaneId} (h : ∀ p ∈ (s.lane x).host.posts, p.cyc ≠ (s.lane x).cyc.num + 1)
    (img : Image) : s.settlePosts x img = s := by
  have due : (s.lane x).host.posts.filter (fun p => p.cyc == (s.lane x).cyc.num + 1) = [] := by simpa using h
  have stay : (s.lane x).host.posts.filter (fun p => p.cyc != (s.lane x).cyc.num + 1) = (s.lane x).host.posts :=
    List.filter_eq_self.mpr (by simpa using h)
  rw [State.settlePosts, State.modLane]
  simp only [due, stay]
  exact State.setLane_self s x

theorem positions_singleton {α : Type} (a : α) : positions [a] = [(0, a)] := rfl

/-- The counts of an outcome leave the posts and pulses (R286). -/
theorem HostSt.note_posts (h : HostSt) (q : Post) (r : Verdict) :
    (h.note q r).posts = h.posts ∧ (h.note q r).pulses = h.pulses := by
  unfold HostSt.note
  split <;> exact ⟨rfl, rfl⟩

/-- A due post that conflicts with none becomes a pulse (R279). -/
theorem State.settlePosts_of_pulse {s : State} {x : LaneId} {q : Post} {k v : Half} (posts : (s.lane x).host.posts = [q])
    (due : q.cyc = (s.lane x).cyc.num + 1) (kind : q.kind = .pulse k v) (img : Image) : ∃ h : HostSt,
      h.posts = [] ∧ h.pulses = (s.lane x).host.pulses ++ [(q.cyc, k, v)] ∧
      OnlySends (s.setLane x { s.lane x with host := h }) (s.settlePosts x img) := by
  have now : [q].filter (fun p => p.cyc == (s.lane x).cyc.num + 1) = [q] := by simp [due]
  have rest : [q].filter (fun p => p.cyc != (s.lane x).cyc.num + 1) = [] := by simp [due]
  have alone : conflicts [q] 0 q = false := rfl
  let p : HostSt := { (s.lane x).host with posts := [], pulses := (s.lane x).host.pulses ++ [(q.cyc, k, v)] }
  have step : s.settlePosts x img =
      (s.setLane x { s.lane x with host := p.note q Verdict.ok }).answer x q.sess q.req q.obj Verdict.ok := by
    simp only [State.settlePosts, State.modLane, posts, now, rest, positions_singleton, List.foldl_cons, List.foldl_nil, alone,
      Lane.settlePost, kind, State.setLane_lane_same, State.setLane_setLane, Bool.false_eq_true, if_false]
    rfl
  refine ⟨_, ?_, ?_, by rw [step]; exact .answer ..⟩
  · exact (p.note_posts q Verdict.ok).1
  · exact (p.note_posts q Verdict.ok).2

/-- A change to MAINTENANCE takes effect in a lane of RUN (R288). -/
theorem State.settleModules_of_maintenance {s : State} {x : LaneId} {c : ModCmd} (cmds : (s.lane x).host.modCmds = [c])
    (op : c.op = 7) (target : byteAt c.params 0 = 4) (run : (s.lane x).mode.mode = 1) (img : Image) : ∃ m : Lane,
      m = { s.lane x with mode := { (s.lane x).mode with mode := 4 }, host := m.host, rcd := m.rcd } ∧
      m.host.modCmds = [] ∧ m.host.posts = (s.lane x).host.posts ∧
      OnlySends (s.setLane x m) (s.settleModules x img) := by
  let k : Lane := { s.lane x with host := { (s.lane x).host with modCmds := [] } }
  have code : k.modeCode img 4 = none := by simp [Lane.modeCode, k, run]
  let m : Lane := ({ k with mode := { k.mode with mode := 4 } } : Lane).recordFlag 2
  let n : Lane := { m with host := m.host.noteConfirm c.op c.wsId Verdict.ok }
  have applied : (s.setLane x k).applyModule x img c = (s.setLane x m, Verdict.ok) := by
    simp only [State.applyModule, op, target, State.setLane_lane_same, code, if_true, State.changeMode]
    rw [if_neg (by decide), if_neg (by simp [k, run]), State.setLane_setLane]
    rfl
  have step : s.settleModules x img = (s.setLane x n).answer x c.sess c.req 5 Verdict.ok := by
    rw [State.settleModules, cmds, List.foldl_cons, List.foldl_nil, State.modLane, State.settleModule, applied, if_neg (by simp [op])]
    simp only [State.modLane, State.setLane_lane_same, State.setLane_setLane]
    rfl
  exact ⟨n, rfl, rfl, rfl, by rw [step]; exact .answer ..⟩

/-- Settles O36: what the host has waiting settles in the lane, and the freeze that follows is `exec_freeze`. -/
theorem freezeClosesInputs : Obligations.FreezeClosesInputs := by
  unfold Obligations.FreezeClosesInputs
  intro s l img q c k v
  dsimp only
  intro runs unfrozen serves noReads
  have freezes : (s.lane l).freezes = true := by simp [Lane.freezes, runs.cycle, unfrozen]
  refine ⟨fun cmds posts => ?_, fun cmds posts due kind => ?_, fun cmds posts op target run => ?_⟩
  · have mods : s.begin.settleModules l img = s.begin := State.settleModules_of_none (by rw [State.begin_lane]; exact cmds) img
    have stay : s.begin.settlePosts l img = s.begin := State.settlePosts_of_none (by rw [State.begin_lane]; exact posts) img
    obtain ⟨t, closed, host, mode, force⟩ := exec_freeze runs unfrozen serves noReads (by rw [mods]; simpa using freezes)
      (by rw [mods]; exact stay) (.of_sends l (.refl _)) ⟨by rw [State.begin_lane]⟩
    rw [State.begin_lane] at host mode
    exact ⟨t, closed, host, mode, force⟩
  · have mods : s.begin.settleModules l img = s.begin := State.settleModules_of_none (by rw [State.begin_lane]; exact cmds) img
    obtain ⟨h, none, pulses, sends⟩ := State.settlePosts_of_pulse (s := s.begin) (x := l) (by rw [State.begin_lane]; exact posts)
      (by rw [State.begin_lane]; exact due) kind img
    have lane := sends.lanes l
    rw [State.setLane_lane_same, State.begin_lane] at lane
    obtain ⟨t, closed, host, mode, force⟩ := exec_freeze runs unfrozen serves noReads (by rw [mods]; simpa using freezes)
      (by rw [mods]) ((State.Touches.setLane ..).trans (.of_sends l sends)) ⟨by rw [lane]⟩
    rw [lane] at host mode
    rw [State.begin_lane] at pulses
    exact ⟨t, closed, by rw [host]; exact none, by rw [host]; exact pulses, mode, force⟩
  · obtain ⟨m, rest, none, noPosts, sends⟩ := State.settleModules_of_maintenance (s := s.begin) (x := l)
      (by rw [State.begin_lane]; exact cmds) op target (by rw [State.begin_lane]; exact run) img
    have lane := sends.lanes l
    rw [State.setLane_lane_same] at lane
    rw [State.begin_lane] at rest noPosts
    have stay : (s.begin.settleModules l img).settlePosts l img = s.begin.settleModules l img :=
      State.settlePosts_of_none (by rw [lane]; simp [noPosts, posts]) img
    have settles : Lane.Settles (s.lane l) ((s.begin.settleModules l img).lane l) := ⟨by rw [lane, rest]⟩
    have freezes' : ((s.begin.settleModules l img).lane l).freezes = true := by
      rw [lane, rest]
      simp only [Lane.freezes, Lane.inCycle, Lane.live, Bool.and_eq_true] at freezes ⊢
      obtain ⟨⟨⟨⟨live, armed⟩, -⟩, running⟩, frozen⟩ := freezes
      exact ⟨⟨⟨⟨live, armed⟩, rfl⟩, running⟩, frozen⟩
    obtain ⟨t, closed, host, mode, force⟩ := exec_freeze runs unfrozen serves noReads freezes'
      stay ((State.Touches.setLane ..).trans (.of_sends l sends)) settles
    rw [lane] at host mode
    exact ⟨t, closed, by rw [host]; exact none, by rw [mode, rest], force⟩

end Sys2Proof.Machine
end

section
/-!
PROOFS. How a cycle ends in a lane at its boundary, and the exclusions and returns there (spec/02_the_cycle.md R26, R38;
spec/03_coded_state.md R55; spec/09_agreement_and_vote.md R202, R207).
-/
namespace Sys2Proof.Machine

/-! ## What a boundary moves -/

/-- The banks of a lane with their numbers, its state epoch and the number of its cycle (R43, R55, R252). -/
structure BankState where
  phys    : Vector (Mem MemWord) 3
  cur     : Fin 3
  bcnCur  : Cycle
  bcnPrev : Cycle
  se      : Cycle
  num     : Cycle

/-- What of a lane a boundary moves by rule: its banks, the role with a handover (R238, R256), the mode, the state codes and
the source of a return (R207). -/
structure BoundaryCore where
  banks     : BankState
  role      : BitVec 4
  mode      : ModeState
  ho        : HoState
  standDown : Bool
  codes     : PerLane (BitVec 4)
  source    : Option LaneId

def Lane.banks (l : Lane) : BankState :=
  { phys := l.store.phys, cur := l.store.cur, bcnCur := l.store.bcnCur, bcnPrev := l.store.bcnPrev, se := l.nv.se,
    num := l.cyc.num }

def Lane.core (l : Lane) : BoundaryCore :=
  { banks := l.banks, role := l.ptn.role, mode := l.mode, ho := l.fail.ho, standDown := l.fail.standDown,
    codes := l.vote.codes, source := l.re.source }

/-- The current bank rotates, and the cycle that ended is its number (R55, R252). -/
def BankState.commit (c : BankState) : BankState :=
  { c with cur := c.cur + 1, bcnPrev := c.bcnCur, bcnCur := c.num, se := c.se + 1 }

/-- Where a cycle that ended leaves the core, as the lane commits it or not, in cycle n. -/
def BoundaryCore.moveOn (c : BoundaryCore) (commit : Bool) (n : Cycle) : BoundaryCore :=
  { c with banks := { if commit then c.banks.commit else c.banks with num := n } }

namespace Lane

theorem foldl_core {α : Type} {op : Lane → α → Lane} (h : ∀ l a, (op l a).core = l.core) (as : List α) (l : Lane) :
    (as.foldl op l).core = l.core := by
  induction as generalizing l with
  | nil => rfl
  | cons a as ih => rw [List.foldl_cons, ih, h]

theorem ite_core {c : Prop} [Decidable c] {l m k : Lane} (h : m.core = l.core) (i : k.core = l.core) :
    (if c then m else k).core = l.core := by
  split <;> assumption

theorem Fails.core {l m : Lane} (h : Fails l m) : m.core = l.core := by rw [h.rest]; rfl
theorem Judges.core {l m : Lane} (h : Judges l m) : m.core = l.core := by rw [h.rest]; rfl
theorem Starts.core {l m : Lane} (h : Starts l m) : m.core = l.core := by rw [h.rest]; rfl

theorem codeFail_core (l : Lane) (site : BitVec 4) (i : Nat) : (l.codeFail site i).core = l.core := (Fails.codeFail ..).core
theorem dropCycle_core (l : Lane) (c p : BitVec 4) : (l.dropCycle c p).core = l.core := (Fails.dropCycle ..).core

/-! ### The cycle that ends -/

theorem settleTrack_core (l : Lane) (r : Option Bool) : (l.settleTrack r).core = l.core := by
  unfold Lane.settleTrack
  dsimp only
  split <;> rfl

theorem countLateDrop_core (l : Lane) (x : LaneId) : (l.countLateDrop x).core = l.core := by
  unfold Lane.countLateDrop
  split <;> rfl

theorem endScan_core (l : Lane) : l.endScan.core = l.core := by
  unfold Lane.endScan
  split <;> rfl

theorem noteNotice_core (l : Lane) (c : BitVec 4) : (l.noteNotice c).core = l.core := by
  unfold Lane.noteNotice
  dsimp only
  split <;> rfl

theorem matchShadow_core (l : Lane) (x : LaneId) (e : Ending) : (l.matchShadow x e).core = l.core := by
  unfold Lane.matchShadow
  repeat' split
  all_goals rfl

theorem judgeLane_core (l : Lane) (p : Port) (y : LaneId) (bad : Bool) : (l.judgeLane p y bad).core = l.core := by
  exact ite_core rfl rfl

theorem judgePort_core (l : Lane) (p : Port) (bad : Bool) : (l.judgePort p bad).core = l.core := by
  unfold Lane.judgePort
  repeat' split
  · rfl
  · rfl
  · exact judgeLane_core ..

theorem judgeTap_core (l : Lane) (net : NetId) (seen : Option Nat) : (l.judgeTap net seen).core = l.core := by
  unfold Lane.judgeTap
  split
  · rfl
  · exact judgePort_core ..

theorem judgeRecords_core (l : Lane) (x : LaneId) : (l.judgeRecords x).core = l.core :=
  (foldl_core (fun m p => judgeLane_core m p x true) _ _).trans (foldl_core (fun m p => judgePort_core m p _) _ _)

theorem keepPair_core (l : Lane) (e : Ending) : (l.keepPair e).core = l.core := by
  unfold Lane.keepPair
  split <;> rfl

theorem countSeq_core (l : Lane) (img : Image) (e : Ending) : (l.countSeq img e).core = l.core := by
  unfold Lane.countSeq
  split <;> rfl

/-- A commit of an active rotates the banks (R55, R252). -/
theorem commitCycle_core {l : Lane} (role : l.ptn.role = 0) (e : Ending) :
    (l.commitCycle e).core = { l.core with banks := if e.commit then l.core.banks.commit else l.core.banks } := by
  have counts : l.countsEpoch = true := by simp [Lane.countsEpoch, role]
  unfold Lane.commitCycle
  cases e.commit
  · rfl
  · simp only [counts]
    rfl

theorem stepTimers_core (l : Lane) (img : Image) (n : Cycle) (commit : Bool) : (l.stepTimers img n commit).core = l.core := by
  have heal (os : List TimerOp) (t : Store) : ∃ poison, os.foldl (fun v o => v.heal (.timer o.h)) t = { t with poison := poison } := by
    induction os generalizing t with
    | nil => exact ⟨_, rfl⟩
    | cons o os ih =>
      obtain ⟨poison, h⟩ := ih (t.heal (.timer o.h))
      exact ⟨poison, h⟩
  unfold Lane.stepTimers
  cases commit
  · rfl
  · obtain ⟨poison, h⟩ := heal (l.store.ops.filterMap (·.2)) l.store
    simp only [Bool.not_true, Bool.false_eq_true, if_false, h]
    rfl

theorem storeEpoch_core (l : Lane) (n : Cycle) : (l.storeEpoch n).core = l.core := by
  unfold Lane.storeEpoch
  split <;> rfl

theorem turnBuffers_core (l : Lane) (img : Image) (p5 : Bool) : (l.turnBuffers img p5).core = l.core := by
  cases p5 <;> rfl

/-- The records move on to cycle n, and a commit rotates the banks (R26). -/
theorem moveOn_core {l : Lane} (role : l.ptn.role = 0) (x : LaneId) (img : Image) (env : BoundaryEnv) (e : Ending) (n : Cycle)
    (o : OpenVals) : (l.moveOn x img env e n o).core = l.core.moveOn e.commit n := by
  let ran := l.phased x && l.evaluates && l.cyc.running
  let a := ((l.endScan.noteNotice o.cause).recordCycle img ran l.cyc.drop.isSome e.modDrop).countPeers x e
  let b := ((((a.matchShadow x e).judgeTap .a env.tapA).judgeTap .b env.tapB).judgeRecords x).keepPair e
  let c := (((b.countSeq img e).commitCycle e).stepTimers img n e.commit).stepStations img n e.commit
  let d := c.stepNeighbours img n e.commit
  let f := (if e.commit then d.stepGens else d).latchStats.startCycle n e
  have ended : a.core = l.core := (noteNotice_core ..).trans (endScan_core l)
  have judged : (b.countSeq img e).core = l.core :=
    calc (b.countSeq img e).core = b.core := countSeq_core ..
      _ = _ := keepPair_core ..
      _ = _ := judgeRecords_core ..
      _ = _ := judgeTap_core ..
      _ = _ := judgeTap_core ..
      _ = a.core := matchShadow_core ..
      _ = l.core := ended
  have banks : d.core = { l.core with banks := if e.commit then l.core.banks.commit else l.core.banks } := by
    rw [← judged]
    exact (stepTimers_core ..).trans (commitCycle_core ((congrArg (·.role) judged).trans role) e)
  have gens : (if e.commit then d.stepGens else d).core = d.core := ite_core rfl rfl
  have opened : f.core = { d.core with banks := { d.core.banks with num := n } } := by rw [← gens]; rfl
  calc (l.moveOn x img env e n o).core = ((f.storeEpoch n).stepForces n).core := turnBuffers_core ..
    _ = f.core := storeEpoch_core ..
    _ = _ := by rw [opened, banks]; rfl

/-! ### How it ended -/

theorem codeOf_of_core {l m : Lane} (h : m.core = l.core) (x : LaneId) : m.codeOf x = l.codeOf x :=
  congrArg (fun c => c.codes.get x) h

theorem phased_of_core {l m : Lane} (h : m.core = l.core) (x : LaneId) : m.phased x = l.phased x := by
  rw [Lane.phased, Lane.phased, codeOf_of_core h]

theorem evaluates_of_active {l : Lane} (role : l.ptn.role = 0) : l.evaluates = true := by simp [Lane.evaluates, role]

/-- Closing the cycle of an active's lane that runs its phases judges its silence, and moves nothing (R26, R241). -/
theorem closeCycle_fields {l : Lane} {x : LaneId} (role : l.ptn.role = 0) (phased : l.phased x = true) (img : Image) :
    (l.closeCycle x img).core = l.core ∧
      ∃ judged, (l.closeCycle x img).cyc = { l.cyc with judged := judged } := by
  let a := (l.countLateDrop x).statB fun b => { b with
    applied := (l.host.pulses.filter fun p => p.1 == l.cyc.num).length, late := l.host.late, conflict := l.host.conflict }
  let b := a.passAgree img
  have counted : a.core = l.core ∧ a.cyc = l.cyc := ⟨countLateDrop_core l x, by
    show (l.countLateDrop x).cyc = l.cyc
    unfold Lane.countLateDrop
    split <;> rfl⟩
  have judges : Judges a b := .passAgree ..
  have core : b.core = l.core := judges.core.trans counted.1
  let c := if b.phased x && b.evaluates then b else (b.settleTakeover x img).settleHandover img
  have stays : c = b := if_pos (by
    rw [phased_of_core core, phased, evaluates_of_active ((congrArg (·.role) core).trans role)]
    rfl)
  let d := c.settleTrack c.ptn.track
  have track : d.core = b.core ∧ d.cyc = b.cyc := by
    refine ⟨(settleTrack_core ..).trans (by rw [stays]), ?_⟩
    show (c.settleTrack c.ptn.track).cyc = b.cyc
    rw [stays]
    unfold Lane.settleTrack
    dsimp only
    split <;> rfl
  have closed : l.closeCycle x img = if d.cyc.agreed && !d.cyc.p5 then d.takeSlots (d.p5Slots img) else d := rfl
  have slots : (if d.cyc.agreed && !d.cyc.p5 then d.takeSlots (d.p5Slots img) else d).core = d.core := ite_core rfl rfl
  rw [closed]
  refine ⟨slots.trans (track.1.trans core), b.cyc.judged, ?_⟩
  have cyc : d.cyc = { l.cyc with judged := b.cyc.judged } := by rw [track.2, judges.cyc, counted.2]
  rw [← cyc]
  split <;> rfl

end Lane

namespace Lane

/-! ### Exclusions and returns -/

theorem writeRecord_core (l : Lane) (x : LaneId) (n : Cycle) (halt : Bool) (fails : Nat) (junk : List Byte) :
    (l.writeRecord x n halt fails junk).core = l.core := ite_core rfl rfl

/-- A lane at step 2 of a return has no source before its request (R207). -/
def Unsourced (l : Lane) (x : LaneId) : Prop := l.codeOf x = 3 ∨ l.codeOf x = 4 → l.re.source = none

/-- `m` is `l` after exclusions and returns have moved, and no lane has come to a source (R202, R207). -/
structure Reseats (x : LaneId) (l m : Lane) : Prop where
  core : m.core = { l.core with codes := m.vote.codes, source := m.re.source }
  unsourced : l.Unsourced x → m.Unsourced x

namespace Reseats

theorem trans {x : LaneId} {l m k : Lane} (h : Reseats x l m) (i : Reseats x m k) : Reseats x l k :=
  ⟨by rw [i.core, h.core], fun u => i.unsourced (h.unsourced u)⟩

theorem of_core {l m : Lane} (x : LaneId) (h : m.core = l.core) : Reseats x l m where
  core := by rw [← h]; rfl
  unsourced u c := by
    rw [codeOf_of_core h] at c
    exact (congrArg (·.source) h).trans (u c)

theorem ite {x : LaneId} {c : Prop} [Decidable c] {l m k : Lane} (h : Reseats x l m) (i : Reseats x l k) :
    Reseats x l (if c then m else k) := by
  split <;> assumption

/-- A change of the state code to one that is not of step 2. -/
theorem code {x : LaneId} {l m : Lane} (h : m.core = { l.core with codes := m.vote.codes, source := m.re.source })
    (c : m.codeOf x ≠ 3 ∧ m.codeOf x ≠ 4) : Reseats x l m :=
  ⟨h, fun _ d => absurd d (not_or.mpr c)⟩

theorem unsource {l m : Lane} (x : LaneId) (h : m.core = { l.core with source := none }) : Reseats x l m where
  core := by
    have codes : m.vote.codes = l.vote.codes := congrArg (·.codes) h
    have source : m.re.source = none := congrArg (·.source) h
    rw [h, codes, source]
    rfl
  unsourced _ _ := congrArg (·.source) h

theorem awaitSnapshot (x : LaneId) (l : Lane) : Reseats x l (l.awaitSnapshot x) := ⟨rfl, fun _ _ => rfl⟩

theorem setCode (x : LaneId) (l : Lane) {c : BitVec 4} (h : c ≠ 3 ∧ c ≠ 4) :
    Reseats x l { l with vote := { l.vote with codes := l.vote.codes.put x c } } :=
  .code rfl (by rwa [Lane.codeOf, PerLane.get_put, if_pos rfl])

theorem startTest (x : LaneId) (l : Lane) (us : BitVec 16) : Reseats x l (l.startTest us) := ⟨rfl, fun _ _ => rfl⟩

theorem setService {x : LaneId} {l : Lane} (ex jo : LaneSet) : Reseats x l (l.setService x ex jo) := by
  have own : l.ownExclusion x ≠ 3 ∧ l.ownExclusion x ≠ 4 := by
    unfold Lane.ownExclusion
    repeat' split
    all_goals decide
  have code : (l.setService x ex jo).codeOf x = if jo.has x then 1 else if ex.has x then l.ownExclusion x
      else if !l.serves x && l.vote.selfExcl == some 6 then 6 else l.codeOf x := by
    cases x <;> simp [Lane.setService, Lane.codeOf, PerLane.get]
  refine ⟨rfl, fun unsourced c => ?_⟩
  rw [code] at c
  split at c
  · simp at c
  · split at c
    · exact absurd c (not_or.mpr own)
    · split at c
      · simp at c
      · exact unsourced c

theorem countOwn (x : LaneId) (l : Lane) (ex jo : LaneSet) (us : BitVec 16) : Reseats x l (l.countOwn x ex jo us) := by
  have own (m : Lane) (c : Bool) : Reseats x m (if c then m.startTest us else m) := ite (.startTest ..) (.of_core x rfl)
  have flag (m k : Lane) (h : k.core = m.core) (c : Bool) : Reseats x m (if c then k.recordFlag 4 else m) :=
    ite (.of_core x h) (.of_core x rfl)
  have joined (m k : Lane) (h : k.core = { m.core with source := none }) (c : Bool) : Reseats x m (if c then k else m) :=
    ite (.unsource x h) (.of_core x rfl)
  refine ((flag l _ ?_ _).trans (own _ _)).trans (joined _ _ ?_ _) <;> rfl

theorem periodEnd (x : LaneId) (l : Lane) (n : Cycle) (fails : Nat) (o : OpenVals) : Reseats x l (l.periodEnd x n fails o) := by
  have flag (m : Lane) : Reseats x m (if m.codeOf x == 1 then m else m.recordFlag 4) := ite (.of_core x rfl) (.of_core x rfl)
  have written (m : Lane) : Reseats x m { m.writeRecord x n false fails o.junk with
      re := { (m.writeRecord x n false fails o.junk).re with periodCnt := 0 } } := of_core x (writeRecord_core ..)
  have back (m : Lane) : Reseats x m (if m.codeOf x != 7 then m else if m.boot.late then m.awaitSnapshot x
      else ({ m with vote := { m.vote with codes := m.vote.codes.put x 2 } } : Lane).startTest o.zeroUs) :=
    ite (.of_core x rfl) (ite (.awaitSnapshot ..) ((setCode x m (by decide)).trans (.startTest ..)))
  exact (flag l).trans (ite (.of_core x rfl) (((written _).trans (flag _)).trans (back _)))

theorem moveService (x : LaneId) (l : Lane) (n : Cycle) (ex : LaneSet) (fails : Nat) (o : OpenVals) :
    Reseats x l (l.moveService x n ex fails o) :=
  (((setService ..).trans (countOwn ..)).trans (periodEnd ..)).trans (countOwn ..)

end Reseats
end Lane

end Sys2Proof.Machine
end

section
/-!
PROOFS. How the next cycle opens in a lane (spec/02_the_cycle.md R26 to R28; spec/11_partner_and_failover.md R238 to R256).
-/
namespace Sys2Proof.Machine

namespace Lane

/-! ### Roles -/

theorem banks_of_core {l m : Lane} (h : m.core = l.core) : m.banks = l.banks := congrArg (·.banks) h

theorem setRole_banks (l : Lane) (r : BitVec 4) : (l.setRole r).banks = l.banks := by
  unfold Lane.setRole
  split <;> rfl

/-- A lane that enters SAFE-HALT keeps its banks, and has the number of the cycle it would have opened (R39). -/
theorem enterHalt_banks (l : Lane) (x : LaneId) (n : Cycle) (fails : Nat) (o : OpenVals) :
    (l.enterHalt x n fails o).banks = { l.banks with num := n } := by
  let m := ((l.setRole 5).recordFlag 2).writeRecord x n true fails o.junk
  have banks : m.banks = l.banks := (banks_of_core (writeRecord_core ..)).trans (setRole_banks l 5)
  have halted : (l.enterHalt x n fails o).banks = { m.banks with num := n } := rfl
  rw [halted, banks]

theorem requalify_core {l : Lane} (role : l.ptn.role = 0) : l.requalify.core = l.core := by
  unfold Lane.requalify
  dsimp only
  rw [if_neg (by simp [role]), if_neg (by simp [role])]
  rfl

/-- An active that neither stands down nor hands over stays what it is (R238, R256). -/
theorem stepRoles_core {l : Lane} (role : l.ptn.role = 0) (stands : l.fail.standDown = false) (ho : l.fail.ho = .idle)
    (awake : l.mode.mode ≠ 3) (x : LaneId) (img : Image) (n : Cycle) (o : OpenVals) :
    (l.stepRoles x img n o).core = l.core := by
  have handover (b : Bool) : l.stepHandover n b = l := by
    unfold Lane.stepHandover
    simp only [ho]
  have stays : l.stepRole x img n = l.requalify := by
    unfold Lane.stepRole
    simp [role, stands, Lane.coldDue]
  unfold Lane.stepRoles
  dsimp only
  rw [handover, stays]
  have kept := requalify_core role
  rw [if_neg]
  · exact kept
  · have mode : l.requalify.mode = l.mode := congrArg (·.mode) kept
    exact fun h => awake (mode ▸ eq_of_beq (Bool.and_eq_true_iff.mp h).1)

/-! ### Heartbeats that came early -/

/-- `m` is `l` after heartbeats: a handover may go on, the lane may stand down (R248, R256). -/
structure Hears (l m : Lane) : Prop where
  core : m.core = { l.core with ho := m.fail.ho, standDown := m.fail.standDown }

theorem Hears.trans {l m k : Lane} (h : Hears l m) (i : Hears m k) : Hears l k := ⟨by rw [i.core, h.core]⟩

theorem Hears.of_core {l m : Lane} (h : m.core = l.core) : Hears l m := ⟨by rw [← h]; rfl⟩

theorem hearTarget_core (l : Lane) (img : Image) (p : HbPath) (arrival : Int) (h : Heartbeat) (first : Bool) :
    (l.hearTarget img p arrival h first).core = l.core := ite_core rfl rfl

theorem hearTrack_core (l : Lane) (h : Heartbeat) : (l.hearTrack h).core = l.core := ite_core rfl (ite_core rfl rfl)

theorem hearDrop_core (l : Lane) (h : Heartbeat) : (l.hearDrop h).core = l.core := ite_core rfl rfl

theorem hearHandover_hears (l : Lane) (img : Image) (arrival : Int) (h : Heartbeat) : Hears l (l.hearHandover img arrival h) := by
  unfold Lane.hearHandover
  repeat' split
  all_goals exact ⟨rfl⟩

theorem hearPartner_core (l : Lane) (h : Heartbeat) : (l.hearPartner h).core = l.core := by
  have commander (f : Fail) (c : Byte × Word) : (f.hearCommander c).ho = f.ho ∧ (f.hearCommander c).standDown = f.standDown := by
    unfold Fail.hearCommander
    split <;> exact ⟨rfl, rfl⟩
  unfold Lane.hearPartner
  dsimp only
  split
  · simp [Lane.core, Lane.banks, commander]
  · rfl

theorem hearAnnounce_core (l : Lane) (h : Heartbeat) : (l.hearAnnounce h).core = l.core := ite_core rfl rfl

/-- A heartbeat moves neither banks nor role of a lane that is not dormant (R241). -/
theorem hearNow_hears {l : Lane} (awake : l.ptn.role ≠ 3) (img : Image) (p : HbPath) (arrival : Int) (h : Heartbeat) (first : Bool) :
    Hears l (l.hearNow img p arrival h first) := by
  let a := (((l.hearTarget img p arrival h first).hearTrack h).hearDrop h).hearHandover img arrival h
  let b := if a.yields img h then { a with fail := { a.fail with standDown := true } } else a
  let c := (b.hearPartner h).hearAnnounce h
  have ha : Hears l a := .trans (.of_core ((hearDrop_core ..).trans ((hearTrack_core ..).trans (hearTarget_core ..))))
    (hearHandover_hears ..)
  have hb : Hears a b := by
    show Hears a (if _ then _ else _)
    split <;> exact ⟨rfl⟩
  have hc : Hears l c := (ha.trans hb).trans (.of_core ((hearAnnounce_core ..).trans (hearPartner_core ..)))
  have role : c.ptn.role = l.ptn.role := congrArg (·.role) hc.core
  have step : l.hearNow img p arrival h first = c :=
    if_neg fun e => awake (role ▸ eq_of_beq (Bool.and_eq_true_iff.mp e).1)
  rw [step]
  exact hc

theorem hearEarly_hears {l : Lane} (awake : l.ptn.role ≠ 3) (img : Image) (len : Int) : Hears l (l.hearEarly img len) := by
  have fold (es : List (Nat × HbPath × Int × Heartbeat)) (m : Lane) (h : m.ptn.role ≠ 3) :
      Hears m (es.foldl (fun m e => m.hearNow img e.2.1 (e.2.2.1 - len) e.2.2.2 (e.1 == 0)) m) := by
    induction es generalizing m with
    | nil => exact .of_core rfl
    | cons e es ih =>
      have heard := hearNow_hears h img e.2.1 (e.2.2.1 - len) e.2.2.2 (e.1 == 0)
      have role : (m.hearNow img e.2.1 (e.2.2.1 - len) e.2.2.2 (e.1 == 0)).ptn.role = m.ptn.role :=
        congrArg (·.role) heard.core
      exact heard.trans (ih _ (role ▸ h))
  let m : Lane := { l with ptn := { l.ptn with early := [] } }
  have opened : Hears l m := .of_core rfl
  exact opened.trans (fold _ m awake)

end Lane

namespace Lane

/-! ### The cycle that opens -/

theorem countDiscard_core (l : Lane) (net : NetId) (f : TelFail) : (l.countDiscard net f).core = l.core := by
  cases f <;> rfl

theorem offer_core (l : Lane) (p : Nat) (t : Tel) (net : NetId) (fr : FieldFrame) : (l.offer p t net fr).core = l.core := by
  have counted : (l.countValid p t).core = l.core := by
    unfold Lane.countValid
    dsimp only
    split <;> rfl
  unfold Lane.offer
  dsimp only
  split
  · exact counted
  · split <;> exact (countDiscard_core ..).trans counted

theorem openIntake_core (l : Lane) (n : Cycle) : (l.openIntake n).core = l.core := by
  have held (m : Lane) (h : Nat × Tel × NetId × FieldFrame) : (m.takeHeld h n).core = m.core := by
    unfold Lane.takeHeld
    dsimp only
    split
    · rfl
    · split
      · exact countDiscard_core ..
      · exact offer_core ..
  exact ite_core (foldl_core held _ _) rfl

/-- An active adopts nothing of its partner (R242). -/
theorem stepAdopt_of_active {l : Lane} (role : l.ptn.role = 0) (x : LaneId) (img : Image) (n : Cycle) : l.stepAdopt x img n = l := by
  have none : l.partnerBase x img = none := by
    unfold Lane.partnerBase
    rw [if_pos (by simp [Lane.wantsBase, role])]
  unfold Lane.stepAdopt
  rw [none]

theorem Reseats.stepReturn {x : LaneId} {l : Lane} (unsourced : l.Unsourced x) (img : Image) (n : Cycle) :
    Reseats x l (l.stepReturn x img n) := by
  have same : Reseats x l l := .of_core x rfl
  unfold Lane.stepReturn
  dsimp only
  split
  · exact .setCode x l (by decide)
  · split
    · exact ite (.setCode x l (by decide)) (ite (.awaitSnapshot ..) same)
    · split
      · exact ite (.awaitSnapshot ..) same
      · split
        next step2 =>
          have none : l.re.source = none := unsourced (by simpa using step2)
          rw [none]
          exact same
        · exact same

theorem settleFailed_core (l : Lane) (d : SeatId) : (l.settleFailed d).core = l.core := ite_core rfl rfl

theorem advancePhase_core (l : Lane) (d : SeatId) : (l.advancePhase d).core = l.core := by
  unfold Lane.advancePhase
  dsimp only
  repeat' split
  all_goals rfl

theorem startSlice_core (l : Lane) (x : LaneId) (dip : Bool) : (l.startSlice x dip).core = l.core := ite_core rfl rfl

theorem moveDeal_core (l : Lane) : l.moveDeal.core = l.core := by
  have retired (xs : List SeatId) (m : Lane) : (xs.foldl (fun m x => m.retireSeat x) m).core = m.core :=
    foldl_core (op := fun m x => m.retireSeat x) (fun _ _ => rfl) xs m
  have noted := retired l.rot.retire l.noteFaultCycles
  unfold Lane.moveDeal
  dsimp only
  split
  · exact (retired ..).trans noted
  · split
    · exact noted
    · exact (ite_core (settleFailed_core ..) (ite_core (advancePhase_core ..) rfl)).trans noted

theorem stepDeal_core (l : Lane) (x : LaneId) (dip : Bool) : (l.stepDeal x dip).core = l.core :=
  (startSlice_core ..).trans (moveDeal_core l)

theorem stepSeats_core (l : Lane) (x : LaneId) (dip : Bool) : (l.stepSeats x dip).core = l.core := by
  have worn (m : Lane) (k : Lane) (h : k.core = m.core) (c : Bool) : (if c then k else m).core = m.core := ite_core h rfl
  have dropped (m : Lane) (c : Bool) : (if c then (m.dropCycle 4 0).excludeSelf untilStart else m).core = m.core :=
    ite_core (dropCycle_core m 4 0) rfl
  refine (dropped _ _).trans ((worn _ _ ?_ _).trans (ite_core (stepDeal_core ..) ?_)) <;> rfl

theorem chargeGuard_core (l : Lane) (i : BitVec 20) : (l.chargeGuard i).core = l.core := by
  unfold Lane.chargeGuard
  dsimp only
  have failed := codeFail_core { l with bist := { l.bist with cuWrong := false } } 3 i.toNat
  split <;> split
  · exact failed
  · exact failed
  · rfl
  · rfl

/-- `m` is `l` after a temperature was read: the supply point, its record and the exclusion of the lane by itself (R347). -/
structure Warms (l m : Lane) : Prop where
  rest : m = { l with pwr := m.pwr, rcd := m.rcd, vote := { l.vote with selfExcl := m.vote.selfExcl } }

theorem Warms.trans {l m k : Lane} (h : Warms l m) (i : Warms m k) : Warms l k := ⟨by rw [i.rest, h.rest]⟩

theorem Warms.ite {c : Prop} [Decidable c] {l m k : Lane} (h : Warms l m) (i : Warms l k) : Warms l (if c then m else k) := by
  split <;> assumption

theorem readTemp_warms (l : Lane) (t : Int) : Warms l (l.readTemp t) := by
  have down (m : Lane) : Warms m m.stepDown := by
    unfold Lane.stepDown
    split <;> exact ⟨rfl⟩
  have cooled (m : Lane) (c : Bool) : Warms m (if c then m.stepDown else m) := .ite (down m) ⟨rfl⟩
  have excluded (m : Lane) (c : Bool) : Warms m (if c then m.excludeSelf untilStart else m) := .ite ⟨rfl⟩ ⟨rfl⟩
  refine Warms.trans ?_ ((cooled _ _).trans (excluded _ _))
  exact ⟨rfl⟩

theorem readTemp_core (l : Lane) (t : Int) : (l.readTemp t).core = l.core := by
  rw [(readTemp_warms l t).rest]
  rfl

theorem stepTx_core (l : Lane) (down : Port → LaneId → Bool) : (l.stepTx down).core = l.core := by
  have bars : (l.clearBars down).core = l.core := by
    unfold Lane.clearBars
    split <;> rfl
  exact bars

theorem stepTransfer_core (l : Lane) (x : LaneId) (img : Image) (n : Cycle) : (l.stepTransfer x img n).core = l.core := by
  unfold Lane.stepTransfer
  dsimp only
  repeat' split
  all_goals rfl

theorem Unsourced.of_hears {l m : Lane} {x : LaneId} (u : l.Unsourced x) (h : Hears l m) : m.Unsourced x := fun c => by
  have code : m.codeOf x = l.codeOf x := congrArg (fun c => c.codes.get x) h.core
  exact (congrArg (·.source) h.core).trans (u (code ▸ c))

/-- A cycle opens: its intake and its sweep, the partner's snapshot and the heartbeats that came early (R26, R28, R241). -/
def opening (l : Lane) (x : LaneId) (img : Image) (n : Cycle) : Lane :=
  ((((l.clearCycle n).openIntake n).clearSweep img n).stepAdopt x img n).hearEarly img (1000 * img.hdr.tCycle + l.align.slew)

/-- The return, the seats, the supplies and the guard of a cycle that opens (R33, R207, R210, R347). -/
def openStep (l : Lane) (x : LaneId) (img : Image) (env : BoundaryEnv) (n : Cycle) (o : OpenVals) (dip : Bool)
    (down : Port → LaneId → Bool) : Lane :=
  (((((((l.stepReturn x img n).stepOut).stepSeats x dip).chargeGuard o.index).readTemp env.temp).noteBus env.busTenMv).stepTx down)

/-- The outputs, the transfer to a partner and the seats of a cycle that opens (R16, R27, R233, R242). -/
def openStart (l : Lane) (x : LaneId) (img : Image) (n : Cycle) (checked : Bool) : Lane :=
  let m := (Lane.setToggles { l with lio := l.lio.stepDegrees } x checked).stepTransfer x img n
  if m.phased x && m.evaluates && logicRuns m.mode.mode && m.cyc.running then m.startPhase img else m

theorem openCycle_eq (l : Lane) (x : LaneId) (img : Image) (env : BoundaryEnv) (n : Cycle) (o : OpenVals) (dip : Bool)
    (down : Port → LaneId → Bool) (checked : Bool) : l.openCycle x img env n o dip down checked =
      ((l.opening x img n).openStep x img env n o dip down).openStart x img n checked := rfl

/-- A cycle of an active opens with its heartbeats heard (R241). -/
theorem opening_hears {l : Lane} (role : l.ptn.role = 0) (x : LaneId) (img : Image) (n : Cycle) : Hears l (l.opening x img n) := by
  have cleared : (((l.clearCycle n).openIntake n).clearSweep img n).core = l.core := openIntake_core (l.clearCycle n) n
  have awake : (((l.clearCycle n).openIntake n).clearSweep img n).ptn.role ≠ 3 := fun h => by
    have three : l.ptn.role = 3 := (congrArg (·.role) cleared).symm.trans h
    simp [role] at three
  unfold opening
  rw [stepAdopt_of_active ((congrArg (·.role) cleared).trans role)]
  exact (Hears.of_core cleared).trans (hearEarly_hears awake ..)

theorem noteBus_core (l : Lane) (v : Nat) : (l.noteBus v).core = l.core := rfl

theorem openStep_core (l : Lane) (x : LaneId) (img : Image) (env : BoundaryEnv) (n : Cycle) (o : OpenVals) (dip : Bool)
    (down : Port → LaneId → Bool) : (l.openStep x img env n o dip down).core = (l.stepReturn x img n).core :=
  have out (m : Lane) : m.stepOut.core = m.core := ite_core (dropCycle_core ..) rfl
  (stepTx_core ..).trans <| (noteBus_core ..).trans <| (readTemp_core ..).trans <| (chargeGuard_core ..).trans <|
    (stepSeats_core ..).trans (out _)

theorem openStart_core (l : Lane) (x : LaneId) (img : Image) (n : Cycle) (checked : Bool) :
    (l.openStart x img n checked).core = l.core :=
  (ite_core (Starts.startPhase ..).core rfl).trans (stepTransfer_core ..)

/-- What opens a cycle of an active leaves the banks with their numbers (R26, R38). -/
theorem openCycle_banks {l : Lane} (role : l.ptn.role = 0) {x : LaneId} (unsourced : l.Unsourced x) (img : Image)
    (env : BoundaryEnv) (n : Cycle) (o : OpenVals) (dip : Bool) (down : Port → LaneId → Bool) (checked : Bool) :
    (l.openCycle x img env n o dip down checked).banks = l.banks := by
  have heard : Hears l (l.opening x img n) := opening_hears role x img n
  have back : Reseats x (l.opening x img n) ((l.opening x img n).stepReturn x img n) :=
    .stepReturn (unsourced.of_hears heard) img n
  rw [openCycle_eq, banks_of_core ((openStart_core ..).trans (openStep_core ..))]
  exact (congrArg (·.banks) back.core).trans <| congrArg (·.banks) heard.core

/-- The boundary of an active's lane that runs its phases: the cycle commits or does not, and the next one opens (R26, R38). -/
theorem boundary_banks {l : Lane} {x : LaneId} (role : l.ptn.role = 0) (stands : l.fail.standDown = false)
    (ho : l.fail.ho = .idle) (awake : l.mode.mode ≠ 3) (code : l.codeOf x = 1) (img : Image) (env : BoundaryEnv)
    (o : OpenVals) (dip : Bool) (down : Port → LaneId → Bool) : (l.boundary x img env o dip down).banks =
      { if ((l.closeCycle x img).ending x).commit then l.banks.commit else l.banks with num := l.cyc.num + 1 } := by
  let k := l.closeCycle x img
  let e := k.ending x
  let n := k.cyc.num + 1
  let m := k.moveOn x img env e n o
  let p := m.moveService x n (k.excluded x) env.mramFails o
  let q := p.recordStations img n (k.lostStations p img)
  let r := q.stepRoles x img n o
  have closed : k.core = l.core := (closeCycle_fields role (by simp [Lane.phased, code]) img).1
  have moved : m.core = l.core.moveOn e.commit n := closed ▸ moveOn_core ((congrArg (·.role) closed).trans role) x img env e n o
  have reseats : Reseats x m p := .moveService ..
  have codeM : m.codeOf x = 1 := (congrArg (fun c => c.codes.get x) moved).trans code
  have unsourced : p.Unsourced x := reseats.unsourced fun c => by simp [codeM] at c
  have core : q.core = { l.core.moveOn e.commit n with codes := p.vote.codes, source := p.re.source } := by
    rw [← moved]
    exact reseats.core
  have roleQ : q.ptn.role = 0 := (congrArg (·.role) core).trans role
  have roles : r.core = q.core := stepRoles_core roleQ ((congrArg (·.standDown) core).trans stands)
    ((congrArg (·.ho) core).trans ho) (fun h => awake ((congrArg (·.mode.mode) core).symm.trans h)) x img n o
  have banks : q.banks = { if e.commit then l.banks.commit else l.banks with num := n } := congrArg (·.banks) core
  have num : n = l.cyc.num + 1 := congrArg (· + 1) (congrArg (·.banks.num) closed)
  rw [← num, ← banks]
  have halted : (p.enterHalt x n env.mramFails o).banks = q.banks := by
    have same : p.banks = q.banks := rfl
    rw [enterHalt_banks, same, banks]
  have sourceless : r.Unsourced x := unsourced.of_hears (.of_core roles)
  have opened : (r.openCycle x img env n o dip down k.cyc.checked).banks = r.banks :=
    openCycle_banks ((congrArg (·.role) roles).trans roleQ) sourceless ..
  have step : l.boundary x img env o dip down = if p.halts then p.enterHalt x n env.mramFails o
      else if r.mode.armed then r.openCycle x img env n o dip down k.cyc.checked else r := rfl
  rw [step]
  split
  · exact halted
  · split
    · exact opened.trans (banks_of_core roles)
    · exact banks_of_core roles

end Lane

end Sys2Proof.Machine
end

section
/-!
PROOFS. What the module does around the boundary of a lane (spec/01_lanes_and_seats.md R13, R14; spec/02_the_cycle.md R26, R34).
-/
namespace Sys2Proof.Machine

/-! ## Before the boundary -/

/-- What of the other lanes a boundary keeps: banks and buffers, the cycle and the seats. -/
structure KeptCore where
  store : Store
  cyc   : CycState
  seats : Vector SeatState 9

def Lane.kept (l : Lane) : KeptCore := { store := l.store, cyc := l.cyc, seats := l.seats }

/-- No lane of `t` differs from that of `s` in what a boundary moves (R26). -/
structure State.Unmoved (s t : State) : Prop where
  core : ∀ y, (t.lane y).core = (s.lane y).core
  kept : ∀ y, (t.lane y).kept = (s.lane y).kept

namespace State.Unmoved

theorem refl (s : State) : Unmoved s s := ⟨fun _ => rfl, fun _ => rfl⟩

theorem trans {s t u : State} (h : Unmoved s t) (i : Unmoved t u) : Unmoved s u :=
  ⟨fun y => (i.core y).trans (h.core y), fun y => (i.kept y).trans (h.kept y)⟩

theorem of_lanes {s t : State} (h : ∀ y, t.lane y = s.lane y) : Unmoved s t := ⟨fun y => by rw [h], fun y => by rw [h]⟩

theorem modLane (s : State) (x : LaneId) {f : Lane → Lane} (h : ∀ l, (f l).core = l.core ∧ (f l).kept = l.kept) :
    Unmoved s (s.modLane x f) := by
  have lane (y : LaneId) : (s.modLane x f).lane y = f (s.lane y) ∨ (s.modLane x f).lane y = s.lane y := by
    by_cases e : y = x
    · subst e
      exact .inl (State.modLane_lane_same ..)
    · exact .inr (State.modLane_lane_other _ _ e)
  constructor <;> intro y <;> rcases lane y with e | e <;> rw [e]
  · exact (h _).1
  · exact (h _).2

theorem mapLanes (s : State) {f : LaneId → Lane → Lane} (h : ∀ x l, (f x l).core = l.core ∧ (f x l).kept = l.kept) :
    Unmoved s (s.mapLanes f) :=
  ⟨fun y => by rw [State.mapLanes_lane]; exact (h ..).1, fun y => by rw [State.mapLanes_lane]; exact (h ..).2⟩

theorem ite {c : Prop} [Decidable c] {s t u : State} (h : Unmoved s t) (i : Unmoved s u) : Unmoved s (if c then t else u) := by
  split <;> assumption

theorem supplyAt (s : State) (x : LaneId) (env : BoundaryEnv) : Unmoved s (s.supplyAt x env) := by
  have source (t : State) : Unmoved t t.settleSource := by
    unfold State.settleSource
    dsimp only
    split
    · exact refl t
    · refine (of_lanes (fun y => by cases y <;> rfl)).trans (mapLanes _ fun x l => ?_)
      unfold Lane.countSwitch
      split <;> exact ⟨rfl, rfl⟩
  have noted (l : Lane) (i : SupIn) (v : Nat) : (l.noteInput i v).core = l.core ∧ (l.noteInput i v).kept = l.kept := by
    unfold Lane.noteInput
    split
    · exact ⟨rfl, rfl⟩
    · cases i <;> exact ⟨rfl, rfl⟩
  let p := (s.sup.see .main env.mainV).see .backup env.backupV
  let f (m : Lane) : Lane :=
    let m := if p.mainP then m.noteInput .main env.mainV else m
    if p.bkP then m.noteInput .backup env.backupV else m
  have figures (l : Lane) : (f l).core = l.core ∧ (f l).kept = l.kept := by
    have main := noted l .main env.mainV
    have backup (m : Lane) := noted m .backup env.backupV
    dsimp only [f]
    cases p.mainP <;> cases p.bkP
    · exact ⟨rfl, rfl⟩
    · exact backup l
    · exact main
    · exact ⟨(backup _).1.trans main.1, (backup _).2.trans main.2⟩
  have seen : Unmoved s { s with sup := p } := of_lanes fun y => by cases y <;> rfl
  exact (seen.trans (source _)).trans (modLane _ x (f := f) figures)

theorem closeLinks (s : State) (x : LaneId) (next prev : Nat) : Unmoved s (s.closeLinks x next prev) := by
  have lose (t : State) (y : LaneId) : Unmoved t (t.loseLink x y) := by
    let f (l : Lane) : Lane := if l.live then l.mark 6 else l
    have mark (l : Lane) : (f l).core = l.core ∧ (f l).kept = l.kept := by
      show (if _ then _ else _ : Lane).core = _ ∧ (if _ then _ else _ : Lane).kept = _
      split <;> exact ⟨rfl, rfl⟩
    exact ((of_lanes fun y => by cases y <;> rfl).trans (modLane _ x (f := f) mark)).trans (modLane _ y (f := f) mark)
  have noted : Unmoved s (s.setLane x ((s.lane x).noteDiscards next prev)) :=
    modLane s x (f := fun l => l.noteDiscards next prev) fun _ => ⟨rfl, rfl⟩
  have down (t : State) (y : LaneId) (c : Bool) : Unmoved t (if c then t.loseLink x y else t) := ite (lose ..) (refl _)
  exact (noted.trans (down ..)).trans (down ..)

theorem isolateAt (s : State) (y : LaneId) : Unmoved s (s.isolateAt y) := by
  unfold State.isolateAt
  split
  · exact refl s
  next x _ =>
    refine modLane s y fun l => ?_
    unfold Lane.noteIsolated
    repeat' split
    all_goals exact ⟨rfl, rfl⟩

end State.Unmoved

/-! ## After the boundary -/

/-- What of its lane a boundary settles: its banks, its number and its running, the seats with their deal, the role, and how
far the lane has come (R26, R109, R155). -/
structure OpenedCore where
  banks    : BankState
  running  : Bool
  seats    : Vector SeatState 9
  rot      : Rot
  stage    : BitVec 4
  role     : BitVec 4
  armed    : Bool
  accepted : Bool
  mode     : BitVec 3

def Lane.opened (l : Lane) : OpenedCore :=
  { banks := l.banks, running := l.cyc.running, seats := l.seats, rot := l.rot, stage := l.boot.stage, role := l.ptn.role,
    armed := l.mode.armed, accepted := l.mode.accepted, mode := l.mode.mode }

namespace Lane

theorem foldl_opened {α : Type} {op : Lane → α → Lane} (h : ∀ l a, (op l a).opened = l.opened) (as : List α) (l : Lane) :
    (as.foldl op l).opened = l.opened := by
  induction as generalizing l with
  | nil => rfl
  | cons a as ih => rw [List.foldl_cons, ih, h]

theorem ite_opened {c : Prop} [Decidable c] {l m k : Lane} (h : m.opened = l.opened) (i : k.opened = l.opened) :
    (if c then m else k).opened = l.opened := by
  split <;> assumption

theorem Fails.opened {l m : Lane} (h : Fails l m) : m.opened = l.opened := by rw [h.rest]; rfl

end Lane

theorem Lane.settleTrust_opened (l : Lane) : l.settleTrust.opened = l.opened := by
  have ws (m : Lane) (r : WsReg) : (m.applyWs r).opened = m.opened := by
    unfold Lane.applyWs
    dsimp only
    split
    · split <;> rfl
    · rfl
  exact (foldl_opened (op := Lane.applyUse) (fun _ _ => rfl) _ _).trans (foldl_opened ws _ _)

theorem Lane.takeStatus_opened (l : Lane) (y : LaneId) (lat : Nat) (f : LaneStatus) :
    (l.takeStatus y lat f).opened = l.opened := by
  have code : (l.peerCode y f).opened = l.opened := by
    unfold Lane.peerCode
    dsimp only
    repeat' split
    all_goals rfl
  exact code

theorem Lane.alignStep_opened (l : Lane) (x : LaneId) (tCycle : Nat) : (l.alignStep x tCycle).opened = l.opened := by
  unfold Lane.alignStep
  dsimp only
  split
  · rfl
  · split
    · rfl
    · split
      · rfl
      · exact ite_opened (Fails.dropCycle ..).opened rfl

/-- `t` is `s` after what a lane does once its boundary is settled: what the boundary settled stands, and the other lanes keep
their stores, cycles and seats (R26). -/
structure State.Follows (x : LaneId) (s t : State) : Prop where
  own : (t.lane x).opened = (s.lane x).opened
  others : ∀ y, y ≠ x → (t.lane y).kept = (s.lane y).kept

namespace State.Follows

variable {x : LaneId} {s t u : State}

theorem refl (x : LaneId) (s : State) : Follows x s s := ⟨rfl, fun _ _ => rfl⟩

theorem trans (h : Follows x s t) (i : Follows x t u) : Follows x s u :=
  ⟨i.own.trans h.own, fun y hy => (i.others y hy).trans (h.others y hy)⟩

theorem ite {c : Prop} [Decidable c] (h : Follows x s t) (i : Follows x s u) : Follows x s (if c then t else u) := by
  split <;> assumption

theorem of_lanes (h : ∀ y, t.lane y = s.lane y) : Follows x s t := ⟨by rw [h], fun y _ => by rw [h]⟩

theorem of_sends (h : OnlySends s t) : Follows x s t := ⟨by rw [h.lanes x]; rfl, fun y _ => by rw [h.lanes y]; rfl⟩

theorem setLane (s : State) {m : Lane} (h : m.opened = (s.lane x).opened) : Follows x s (s.setLane x m) :=
  ⟨by rw [State.setLane_lane_same]; exact h, fun y hy => by rw [State.setLane_lane_other _ _ hy]⟩

theorem modLane (s : State) {f : Lane → Lane} (h : (f (s.lane x)).opened = (s.lane x).opened) :
    Follows x s (s.modLane x f) := setLane s h

theorem mapLanes (s : State) {f : LaneId → Lane → Lane} (h : ∀ y l, (f y l).opened = l.opened ∧ (f y l).kept = l.kept) :
    Follows x s (s.mapLanes f) :=
  ⟨by rw [State.mapLanes_lane]; exact (h ..).1, fun y _ => by rw [State.mapLanes_lane]; exact (h ..).2⟩

theorem foldl {α : Type} {op : State → α → State} (h : ∀ s a, Follows x s (op s a)) (as : List α) (s : State) :
    Follows x s (as.foldl op s) := by
  induction as generalizing s with
  | nil => exact refl x s
  | cons a as ih => exact (h s a).trans (ih _)

theorem sendHeartbeat_sends (s : State) (img : Image) (p : LaneId × LaneId) : OnlySends s (s.sendHeartbeat img p) := by
  unfold State.sendHeartbeat
  split
  · split
    · exact (OnlySends.emit ..).trans (.ringCast ..)
    · exact .ringCast ..
  · exact .refl _

theorem closeSession (s : State) (id : Nat) : Follows x s (s.closeSession id) := by
  have dropped : Follows x s (s.mapLanes fun _ m => { m with host := m.host.dropSession id }) :=
    mapLanes s fun _ _ => ⟨rfl, rfl⟩
  unfold State.closeSession
  dsimp only
  split
  · exact dropped.trans (of_lanes fun y => by cases y <;> rfl)
  · exact (dropped.trans (of_lanes fun y => by cases y <;> rfl)).trans (of_sends (.tunnelClose ..))

theorem settleSecurity (s : State) : Follows x s (s.settleSecurity x) := by
  have leave (t : State) (k : Session) : Follows x t (t.leaveSession x k.id) := by
    unfold State.leaveSession
    split
    · exact refl ..
    · exact ite (closeSession ..) (of_lanes fun y => by cases y <;> rfl)
  have closed : Follows x s (s.closeDue x) := ite (refl ..) (foldl leave _ _)
  exact closed.trans (modLane _ (Lane.settleTrust_opened _))

theorem takeEarly (s : State) (img : Image) : Follows x s (s.takeEarly x img) := by
  refine foldl (fun t y => ?_) _ s
  dsimp only
  split
  · exact refl ..
  next f _ =>
    refine ite (setLane t ((Lane.alignStep_opened ..).trans ?_)) (setLane t rfl)
    exact Lane.takeStatus_opened _ y (t.latency x y f.relayed) f

theorem requestSnapshot (s : State) : Follows x s (s.requestSnapshot x) := by
  unfold State.requestSnapshot
  dsimp only
  split
  · exact refl ..
  · split
    · exact refl ..
    · refine (setLane s ?_).trans (of_sends (.xsend ..))
      rfl

theorem serveSnapshots (s : State) (img : Image) : Follows x s (s.serveSnapshots x img) := by
  unfold State.serveSnapshots
  dsimp only
  split
  · exact setLane s rfl
  · split
    · exact setLane s rfl
    · refine (setLane s ?_).trans (of_sends (.foldl (fun _ _ => (OnlySends.xsend ..).trans (.xsend ..)) _ _))
      rfl

theorem sendFcu (s : State) : Follows x s (s.sendFcu x) := by
  refine (setLane s ?_).trans (of_sends (.emit ..))
  rfl

theorem formHeartbeat (s : State) : Follows x s (s.formHeartbeat x) := by
  have posted (t : State) : Follows x t t.postHeartbeat := by
    unfold State.postHeartbeat
    split
    · exact refl ..
    · dsimp only
      split
      · exact refl ..
      · refine (of_sends (sendHeartbeat_sends ..)).trans (mapLanes _ fun _ m => ?_)
        split <;> exact ⟨rfl, rfl⟩
  unfold State.formHeartbeat
  dsimp only
  split
  · exact refl ..
  · refine ite (refl ..) ((setLane s ?_).trans (posted _))
    rfl

theorem sendHealth (s : State) (img : Image) (env : BoundaryEnv) (up : Bool) : Follows x s (s.sendHealth x img env up) :=
  ite (of_sends (.emit ..)) (refl ..)

theorem sendDoze (s : State) (img : Image) (busy : Bool) : Follows x s (s.sendDoze x img busy) := by
  unfold State.sendDoze
  dsimp only
  refine (modLane s ?_).trans (ite ?_ (refl ..))
  · rfl
  · split
    · exact setLane _ rfl
    · refine (setLane _ ?_).trans (of_sends (.emit ..))
      rfl

theorem sendBase (s : State) : Follows x s (s.sendBase x) := by
  unfold State.sendBase
  dsimp only
  split
  · exact refl ..
  · exact ite (of_sends (.emit ..)) (refl ..)

theorem endBase (s : State) : Follows x s s.endBase := by
  unfold State.endBase
  split
  · exact refl ..
  · dsimp only
    split
    · exact refl ..
    · split
      · refine (ite (of_sends (.emit ..)) (refl ..)).trans (mapLanes _ fun _ m => ?_)
        split <;> exact ⟨rfl, rfl⟩
      · exact refl ..

theorem sendArp (s : State) (img : Image) (was : Bool) : Follows x s (s.sendArp x img was) := by
  have sent (t : State) (c : Bool) (o : Out) : Follows x t (if c then t.emit o else t) := ite (of_sends (.emit ..)) (refl ..)
  exact ite (refl ..) (ite (setLane s (Lane.Fails.useTables ..).opened) ((sent ..).trans (sent ..)))

/-- What a lane sends after its boundary (R26). -/
theorem afterBoundary (s : State) (img : Image) (env : BoundaryEnv) (was up : Bool) :
    Follows x s (s.afterBoundary x img env was up) := by
  unfold State.afterBoundary
  exact (settleSecurity _).trans <| (takeEarly ..).trans <| (requestSnapshot _).trans <| (serveSnapshots ..).trans <|
    (of_sends (.xcast ..)).trans <| (sendFcu _).trans <| (formHeartbeat _).trans <| (sendHealth ..).trans <|
    (sendDoze ..).trans <| (sendBase _).trans <| (endBase _).trans (sendArp ..)

theorem dispatch (s : State) (img : Image) (l : Lane) (tx : Port → Option LaneId) (env : BoundaryEnv) :
    Follows x s (s.dispatch x img l tx env) := by
  have out (t : State) (c : Bool) (os : List Out) : Follows x t (if c then t.emits os else t) :=
    ite (of_lanes fun y => by cases y <;> rfl) (refl ..)
  have base : Follows x s (s.borderBase img l).2 := by
    unfold State.borderBase
    split
    · exact refl ..
    · dsimp only
      refine (of_sends (.putRingSeq ..)).trans (mapLanes _ fun _ m => ?_)
      split <;> exact ⟨rfl, rfl⟩
  exact ite (refl ..) ((ite (refl ..) base).trans ((out ..).trans ((out ..).trans ((out ..).trans (out ..)))))

theorem tellChanges (s : State) (img : Image) (l : Lane) : Follows x s (s.tellChanges x img l) := by
  refine (setLane s ?_).trans (of_sends (.foldl (fun _ _ => .notify ..) _ _))
  rfl

theorem setLamps (s : State) : Follows x s (s.setLamps x) := of_lanes fun y => by cases y <;> rfl

end State.Follows

end Sys2Proof.Machine
end

section
/-!
PROOFS. CYCLE_BOUNDARY (spec/02_the_cycle.md R26, R38; spec/03_coded_state.md R55, R56; spec/05_seats_at_work.md R109): O35.
-/
namespace Sys2Proof.Machine

/-! ## The boundary of a running lane -/

/-- A voted cycle commits where its seal stands and the lane has not dropped it (R26, R38, R184). -/
theorem Lane.ending_commit {l : Lane} {x : LaneId} (role : l.ptn.role = 0) (phased : l.phased x = true)
    (logic : logicRuns l.mode.mode = true) (running : l.cyc.running = true) (voted : l.cyc.voted = true) (img : Image) :
    ((l.closeCycle x img).ending x).commit = (l.cyc.sealed && !l.cyc.notice && l.cyc.drop.isNone) := by
  obtain ⟨core, judged, cyc⟩ := Lane.closeCycle_fields role phased img
  have mode : (l.closeCycle x img).mode = l.mode := congrArg (·.mode) core
  simp only [Lane.ending, Lane.ballotSeal, Lane.evaluates_of_active ((congrArg (·.role) core).trans role),
    Lane.phased_of_core core, phased, mode, logic, cyc, running, voted, if_true, Bool.true_and, Bool.and_true]

@[simp] theorem State.openVals_lane (s : State) (y : LaneId) : s.openVals.2.lane y = s.lane y := by simp [State.openVals]

theorem Lane.openDispatch_opened (l : Lane) (na nb : Nat) (env : BoundaryEnv) : (l.openDispatch na nb env).opened = l.opened := by
  unfold Lane.openDispatch
  dsimp only
  split
  · rfl
  · refine Lane.ite_opened ?_ (Lane.Fails.dropCycle ..).opened
    rw [Lane.noteSlack_eq]
    rfl

/-- After its boundary a lane dispatches the cycle that ended, and tells the others of the one that opens (R26, R34, R35). -/
theorem State.runBoundary_follows (s : State) (x : LaneId) (img : Image) (env : BoundaryEnv) :
    let p := (s.closeLinks x env.discNext env.discPrev).isolateAt x
    let l : Lane := { p.lane x with ptn := { (p.lane x).ptn with track := p.settleResult x } }
    ∃ m, m.opened = (l.boundary x img env p.openVals.1 p.sup.warnNow p.portDown).opened ∧
      State.Follows x (p.openVals.2.setLane x m) (s.runBoundary x img env) := by
  have tables (k : Lane) (c : Bool) (r : List (Table × Nat)) : (if c then (k.useTables img r).1 else k).opened = k.opened :=
    Lane.ite_opened (Lane.Fails.useTables ..).opened rfl
  have dispatch (k : Lane) (c : Bool) (na nb : Nat) : (if c then k.openDispatch na nb env else k).opened = k.opened :=
    Lane.ite_opened (Lane.openDispatch_opened ..) rfl
  have withhold (t : State) (c : Bool) (n : Nat) :
      State.Follows x t (if c then t.modLane x fun k => k.statB fun b => { b with withheld := n } else t) :=
    .ite (.modLane t rfl) (.refl ..)
  refine ⟨_, ?_, (State.Follows.ite (.ite (.sendFcu _) (.refl ..)) (.ite (.refl ..) ((withhold ..).trans
    ((State.Follows.dispatch ..).trans (.afterBoundary ..))))).trans ((State.Follows.tellChanges ..).trans (.setLamps _))⟩
  exact (dispatch ..).trans (tables ..)

/-- The boundary of an active's lane that runs its phases (R26, R38, R55, R252). -/
theorem State.runBoundary_fields {s : State} {x : LaneId} (role : (s.lane x).ptn.role = 0)
    (stands : (s.lane x).fail.standDown = false) (ho : (s.lane x).fail.ho = .idle)
    (logic : logicRuns (s.lane x).mode.mode = true) (code : (s.lane x).codeOf x = 1) (running : (s.lane x).cyc.running = true)
    (img : Image) (env : BoundaryEnv) : let t := s.runBoundary x img env
      (∃ commit, (t.lane x).banks =
          { if commit then (s.lane x).banks.commit else (s.lane x).banks with num := (s.lane x).cyc.num + 1 } ∧
        ((s.lane x).cyc.voted = true →
          commit = ((s.lane x).cyc.sealed && !(s.lane x).cyc.notice && (s.lane x).cyc.drop.isNone))) ∧
      ∀ y, y ≠ x → (t.lane y).kept = (s.lane y).kept := by
  obtain ⟨m, opened, follows⟩ := s.runBoundary_follows x img env
  let p := (s.closeLinks x env.discNext env.discPrev).isolateAt x
  let l : Lane := { p.lane x with ptn := { (p.lane x).ptn with track := p.settleResult x } }
  have unmoved : State.Unmoved s p := (State.Unmoved.closeLinks ..).trans (.isolateAt ..)
  have core : l.core = (s.lane x).core := unmoved.core x
  have cyc : l.cyc = (s.lane x).cyc := congrArg (·.cyc) (unmoved.kept x)
  have roleL : l.ptn.role = 0 := (congrArg (·.role) core).trans role
  have codeL : l.codeOf x = 1 := (Lane.codeOf_of_core core x).trans code
  have logicL : logicRuns l.mode.mode = true := (congrArg (fun c => logicRuns c.mode.mode) core).trans logic
  have banks := Lane.boundary_banks roleL ((congrArg (·.standDown) core).trans stands) ((congrArg (·.ho) core).trans ho)
    (fun h => by simp [logicRuns, h] at logicL) codeL img env p.openVals.1 p.sup.warnNow p.portDown
  refine ⟨⟨((l.closeCycle x img).ending x).commit, ?_, fun voted => ?_⟩, fun y hy => ?_⟩
  · have settled : (s.runBoundary x img env |>.lane x).banks = m.banks := by
      refine (congrArg (·.banks) follows.own).trans ?_
      rw [State.setLane_lane_same]
      rfl
    refine settled.trans ((congrArg (·.banks) opened).trans (banks.trans ?_))
    rw [Lane.banks_of_core core, cyc]
  · rw [Lane.ending_commit roleL (by simp [Lane.phased, codeL]) logicL (cyc ▸ running) (cyc ▸ voted), cyc]
  · rw [follows.others y hy, State.setLane_lane_other _ _ hy, State.openVals_lane, unmoved.kept y]

/-! ## The first boundary -/

/-- What a first boundary settles of a lane: its seats' states and hands, the deal, the cycle, the role and the mode (R109,
R155). -/
structure ArmedCore where
  codes    : SeatId → BitVec 3
  hands    : SeatId → Option (Fin 8)
  dummy    : Option SeatId
  phase    : Nat
  num      : Cycle
  running  : Bool
  stage    : BitVec 4
  role     : BitVec 4
  armed    : Bool
  accepted : Bool
  mode     : BitVec 3

def Lane.armedCore (l : Lane) : ArmedCore :=
  { codes := fun y => (l.seat y).code, hands := fun y => (l.seat y).hand, dummy := l.rot.dummy, phase := l.rot.phase,
    num := l.cyc.num, running := l.cyc.running, stage := l.boot.stage, role := l.ptn.role, armed := l.mode.armed,
    accepted := l.mode.accepted, mode := l.mode.mode }

/-- The deal of the first cycle: S8 is dummy at phase 0, seat k holds hand k (R109). -/
def ArmedCore.first (role : BitVec 4) : ArmedCore :=
  { codes := fun y => if y = 8 then 2 else 1, hands := fun y => if h : y.val < 8 then some ⟨y.val, h⟩ else none,
    dummy := some 8, phase := 0, num := 1, running := true, stage := 7, role := role, armed := true, accepted := false,
    mode := modeOfRole role }

namespace Lane

theorem armedCore_of_opened {l m : Lane} (h : m.opened = l.opened) : m.armedCore = l.armedCore :=
  congrArg (fun c : OpenedCore => ({
    codes := fun y => c.seats[y].code, hands := fun y => c.seats[y].hand, dummy := c.rot.dummy, phase := c.rot.phase,
    num := c.banks.num, running := c.running, stage := c.stage, role := c.role, armed := c.armed, accepted := c.accepted,
    mode := c.mode } : ArmedCore)) h

theorem Starts.armedCore {l m : Lane} (h : Starts l m) : m.armedCore = l.armedCore := by
  have codes : (fun y => (m.seat y).code) = fun y => (l.seat y).code := funext fun y => (h.seat y).1
  have hands : (fun y => (m.seat y).hand) = fun y => (l.seat y).hand := funext fun y => (h.seat y).2
  unfold Lane.armedCore
  rw [codes, hands, h.rest]

theorem readTemp_opened (l : Lane) (t : Int) : (l.readTemp t).opened = l.opened := by
  rw [(readTemp_warms l t).rest]
  rfl

theorem stepTx_opened (l : Lane) (down : Port → LaneId → Bool) : (l.stepTx down).opened = l.opened := by
  have bars : (l.clearBars down).opened = l.opened := by
    unfold Lane.clearBars
    split <;> rfl
  exact bars

@[simp] theorem mapSeats_seat (l : Lane) (f : SeatId → SeatState → SeatState) (y : SeatId) :
    (l.mapSeats f).seat y = f y (l.seat y) := by
  simp [Lane.mapSeats, Lane.seat]

theorem startSlice_armedCore (l : Lane) (x : LaneId) (dip : Bool) : (l.startSlice x dip).armedCore = l.armedCore := by
  have given (m : Lane) (c : SeatId → Bool) (e : SeatId → SeatBist) :
      (m.mapSeats fun y t => if c y then { t with engine := e y } else t).armedCore = m.armedCore := by
    simp only [Lane.armedCore, mapSeats_seat, apply_ite SeatState.code, apply_ite SeatState.hand, ite_self]
    rfl
  have sliced (m : Lane) (d : Bool) (c : SeatId → Bool) (e : SeatId → SeatBist) :
      (if d then m.mapSeats fun y t => if c y then { t with engine := e y } else t else m).armedCore = m.armedCore := by
    cases d
    · rfl
    · exact given ..
  exact sliced _ _ _ _

/-- A role is taken (R155, R253). -/
theorem setRole_role (l : Lane) (r : BitVec 4) : (l.setRole r).ptn.role = r := by
  unfold Lane.setRole
  split
  next same => exact same
  · rfl

theorem firstDeal_seat (l : Lane) (y : SeatId) : l.firstDeal.seat y = (if h : y.val < 8 then
      { SeatState.init with engine := (l.seat y).engine, code := 1, hand := some ⟨y.val, h⟩ }
      else { SeatState.init with engine := (l.seat y).engine, code := 2 }) := by
  simp [Lane.firstDeal, Lane.seat, Lane.mapSeats]

theorem firstDeal_armedCore (l : Lane) : l.firstDeal.armedCore =
    { l.armedCore with codes := (ArmedCore.first 0).codes, hands := (ArmedCore.first 0).hands, dummy := some 8, phase := 0 } := by
  have codes : (fun y => (l.firstDeal.seat y).code) = (ArmedCore.first 0).codes := by
    funext y
    rw [firstDeal_seat]
    dsimp only [ArmedCore.first]
    split
    next lt => exact (if_neg fun e => by simp [e] at lt).symm
    next last => exact (if_pos (Fin.ext (by have := y.isLt; show y.val = 8; omega))).symm
  have hands : (fun y => (l.firstDeal.seat y).hand) = (ArmedCore.first 0).hands := by
    funext y
    rw [firstDeal_seat]
    dsimp only [ArmedCore.first]
    split <;> rfl
  unfold Lane.armedCore
  rw [codes, hands]
  rfl

theorem startRecorder_armedCore (l : Lane) (img : Image) (n : Cycle) : (l.startRecorder img n).armedCore = l.armedCore :=
  armedCore_of_opened (Fails.useTables ..).opened

theorem stepTimers_armedCore (l : Lane) (img : Image) (n : Cycle) (commit : Bool) :
    (l.stepTimers img n commit).armedCore = l.armedCore := rfl

theorem noteBus_armedCore (l : Lane) (v : Nat) : (l.noteBus v).armedCore = l.armedCore := rfl

theorem setToggles_armedCore (l : Lane) (x : LaneId) (checked : Bool) : (l.setToggles x checked).armedCore = l.armedCore := rfl

theorem startFirst_armedCore (l : Lane) (img : Image) (ending : Ending) (stats : Stats) (snapReq : Bool) :
    let d := (l.turnBuffers img false).startCycle 1 ending
    ({ d with stats := stats, ptn := { d.ptn with snapReq := snapReq } } : Lane).armedCore =
      { l.armedCore with num := 1, running := true } := rfl

theorem clearFirst_armedCore (l : Lane) (img : Image) :
    (((l.stepStations img 1 false).clearCycle 1).clearSweep img 1).armedCore = l.armedCore := rfl

/-- The first boundary of a lane whose arming was accepted opens cycle 1 with the role it takes and the first deal (R109,
R155). -/
theorem firstBoundary_armedCore (l : Lane) (x : LaneId) (img : Image) (env : BoundaryEnv) (down : Port → LaneId → Bool)
    (takes : l.mode.takes ≠ 3) : (l.firstBoundary x img env down).armedCore = .first l.mode.takes := by
  let r := l.mode.takes
  let m := (l.restrictBanks img 0).clearBuffers img 0
  let a := if r = 0 then m.coldStart img 0 else m.setRole r
  have role : a.ptn.role = r := by
    show (if _ then _ else _ : Lane).ptn.role = r
    split
    next zero => exact (setRole_role _ 0).trans zero.symm
    · exact setRole_role ..
  let b : Lane := { a with
    mode := { a.mode with accepted := false, armed := true, cand := decide (r = 4), mode := modeOfRole r }
    boot := { a.boot with stage := 7 } }
  let c := (b.firstDeal.startRecorder img 1).stepTimers img 1 false
  let d := (c.turnBuffers img false).startCycle 1 { sealed := false, commit := false, modDrop := false }
  let e : Lane := { d with stats := Stats.init, ptn := { d.ptn with snapReq := r = 2 || r = 4 } }
  let f := ((e.stepStations img 1 false).clearCycle 1).clearSweep img 1
  let g := ((((f.readTemp env.temp).noteBus env.busTenMv).stepTx down).setToggles x true).startSlice x false
  have step : l.firstBoundary x img env down = if g.evaluates then g.startPhase img else g := if_neg takes
  have dealt : c.armedCore = { b.armedCore with
      codes := (ArmedCore.first 0).codes, hands := (ArmedCore.first 0).hands, dummy := some 8, phase := 0 } :=
    (stepTimers_armedCore ..).trans ((startRecorder_armedCore ..).trans (firstDeal_armedCore b))
  have started : e.armedCore = { c.armedCore with num := 1, running := true } := startFirst_armedCore c img ..
  have sweeps : g.armedCore = e.armedCore :=
    (startSlice_armedCore ..).trans <| (setToggles_armedCore ..).trans <| (armedCore_of_opened (stepTx_opened ..)).trans <|
    (noteBus_armedCore ..).trans <| (armedCore_of_opened (readTemp_opened ..)).trans (clearFirst_armedCore e img)
  have phase : (if g.evaluates then g.startPhase img else g).armedCore = g.armedCore := by
    split
    · exact (Starts.startPhase ..).armedCore
    · rfl
  rw [step, phase, sweeps, started, dealt]
  have taken : b.ptn.role = r := role
  show ({ (ArmedCore.first r) with role := b.ptn.role } : ArmedCore) = _
  rw [taken]
  rfl

end Lane

/-- The first boundary of a lane that does not sleep sends as any other (R26, R155). -/
theorem State.armedBoundary_fields (s : State) (x : LaneId) (img : Image) (env : BoundaryEnv)
    (takes : (s.lane x).mode.takes ≠ 3) : let t := s.armedBoundary x img env
      (t.lane x).armedCore = .first (s.lane x).mode.takes ∧ ∀ y, y ≠ x → (t.lane y).kept = (s.lane y).kept := by
  let m := (s.lane x).firstBoundary x img env s.portDown
  have core : m.armedCore = .first (s.lane x).mode.takes := Lane.firstBoundary_armedCore _ _ _ _ _ takes
  have role : ¬(((s.setLane x m).lane x).ptn.role == 3) = true := by
    rw [State.setLane_lane_same]
    exact fun h => takes ((congrArg (·.role) core).symm.trans (eq_of_beq h))
  have follows : State.Follows x (s.setLane x m) (s.armedBoundary x img env) := by
    unfold State.armedBoundary
    dsimp only
    rw [if_neg role]
    exact (State.Follows.afterBoundary ..).trans ((State.Follows.tellChanges ..).trans (.setLamps _))
  refine ⟨(Lane.armedCore_of_opened follows.own).trans ?_, fun y hy => ?_⟩
  · rw [State.setLane_lane_same]
    exact core
  · rw [follows.others y hy, State.setLane_lane_other _ _ hy]

/-- Settles O35: the boundary of a running lane is `Lane.boundary`, that of an accepted one `Lane.firstBoundary`. -/
theorem boundaries : Obligations.Boundaries := by
  unfold Obligations.Boundaries
  refine ⟨fun s l env img => ?_, fun s l env img => ?_⟩
  · dsimp only
    intro runs awake code role stands ho power
    have cycle := runs.cycle
    simp only [Lane.inCycle, Bool.and_eq_true] at cycle
    obtain ⟨⟨⟨live, armed⟩, logic⟩, running⟩ := cycle
    have unmoved : State.Unmoved s (s.begin.supplyAt l env) :=
      (State.Unmoved.of_lanes fun y => s.begin_lane y).trans (.supplyAt ..)
    have core := unmoved.core l
    have cyc : ((s.begin.supplyAt l env).lane l).cyc = (s.lane l).cyc := congrArg (·.cyc) (unmoved.kept l)
    obtain ⟨⟨commit, banks, commits⟩, others⟩ := State.runBoundary_fields ((congrArg (·.role) core).trans role)
      ((congrArg (·.standDown) core).trans stands) ((congrArg (·.ho) core).trans ho)
      ((congrArg (fun c => logicRuns c.mode.mode) core).trans logic) ((Lane.codeOf_of_core core l).trans code) (cyc ▸ running)
      img env
    rw [Lane.banks_of_core core, cyc] at banks
    rw [cyc] at commits
    have step : exec (.cycleBoundary l env) s = .next ((s.begin.supplyAt l env).runBoundary l img env) := by
      simp only [exec, execCycleBoundary, State.begin_lane, runs.image]
      rw [if_neg (by simp [awake]), if_pos armed, if_pos (by simpa [logic, role] using power)]
    refine ⟨_, step, congrArg (·.num) banks, fun y hy => ?_, ?_, fun voted sealed quiet holds => ?_, fun voted fails => ?_⟩
    · have kept := (others y hy).trans (unmoved.kept y)
      exact ⟨congrArg (·.store) kept, congrArg (·.cyc) kept, congrArg (·.seats) kept⟩
    · refine (congrArg (·.phys) banks).trans ?_
      cases commit <;> rfl
    · rw [commits voted] at banks
      simp only [sealed, quiet, holds] at banks
      exact ⟨congrArg (·.cur) banks, congrArg (·.bcnCur) banks, congrArg (·.bcnPrev) banks, congrArg (·.se) banks⟩
    · have dropped : commit = false := by
        rw [commits voted]
        rcases fails with h | h | h
        · simp [Option.isNone_eq_false_iff.mpr h]
        · simp [h]
        · simp [h]
      rw [dropped] at banks
      exact ⟨congrArg (·.cur) banks, congrArg (·.bcnCur) banks, congrArg (·.bcnPrev) banks, congrArg (·.se) banks⟩
  · dsimp only
    intro image live unarmed accepted takes
    have unmoved : State.Unmoved s (s.begin.supplyAt l env) :=
      (State.Unmoved.of_lanes fun y => s.begin_lane y).trans (.supplyAt ..)
    have mode : ((s.begin.supplyAt l env).lane l).mode = (s.lane l).mode := congrArg (·.mode) (unmoved.core l)
    have step : exec (.cycleBoundary l env) s = .next ((s.begin.supplyAt l env).armedBoundary l img env) := by
      have awake : (s.lane l).boot.inReset = false := by
        simp only [Lane.live, Bool.and_eq_true, Bool.not_eq_true'] at live
        exact live.2
      simp only [exec, execCycleBoundary, State.begin_lane, image]
      rw [if_neg (by simp [awake]), if_neg (by simp [unarmed]), if_pos (by simp [accepted, live])]
    obtain ⟨core, others⟩ := (s.begin.supplyAt l env).armedBoundary_fields l img env (by rw [mode]; exact takes)
    rw [mode] at core
    refine ⟨_, step, congrArg (·.armed) core, congrArg (·.accepted) core, congrArg (·.stage) core, congrArg (·.num) core,
      congrArg (·.running) core, congrArg (·.role) core, (congrArg (·.mode) core).trans ?_, congrArg (·.dummy) core,
      congrArg (·.phase) core, fun y => congrArg (fun c => c.codes y) core, fun h => ?_, fun y hy => ?_⟩
    · exact if_neg takes
    · refine (congrArg (fun c => c.hands h.castSucc) core).trans ?_
      exact dif_pos h.isLt
    · have kept := (others y hy).trans (unmoved.kept y)
      exact ⟨congrArg (·.store) kept, congrArg (·.cyc) kept⟩

end Sys2Proof.Machine
end

section
/-!
PROOFS. The coded word (spec/03_coded_state.md R49, R54): O2.
-/
namespace Sys2Proof.Machine
open Config

/-- A lane's K is above every 32-bit signature, and the product of K and a half-word leaves 2^32 below 2^64 (R50). -/
theorem kOf_bounds (slot : BitVec 2) : 2 ^ 32 ≤ (kOf slot).toNat ∧ 65535 * (kOf slot).toNat + 2 ^ 32 ≤ 2 ^ 64 := by
  revert slot
  decide

/-- The word of a value under a 32-bit signature does not wrap before its cycle term is added (R49). -/
theorem valueTerm_toNat (slot : BitVec 2) (v : Half) (s : Word) :
    (v.setWidth 64 * kOf slot + s.setWidth 64).toNat = v.toNat * (kOf slot).toNat + s.toNat := by
  obtain ⟨-, room⟩ := kOf_bounds slot
  have product : v.toNat * (kOf slot).toNat ≤ 65535 * (kOf slot).toNat := Nat.mul_le_mul_right _ (by omega)
  have value : (v.setWidth 64).toNat = v.toNat := BitVec.toNat_setWidth_of_le (by decide)
  have signature : (s.setWidth 64).toNat = s.toNat := BitVec.toNat_setWidth_of_le (by decide)
  rw [BitVec.toNat_add, BitVec.toNat_mul, value, signature, Nat.mod_eq_of_lt (a := v.toNat * _) (by omega),
    Nat.mod_eq_of_lt (by omega)]

/-- Words of two 32-bit signatures in one cycle differ, whatever their values (R49, R54). -/
theorem signature_eq_of_encode_eq {slot : BitVec 2} {v w : Half} {s t : Word} {m : Cycle}
    (h : encode slot v (s.setWidth 64) m = encode slot w (t.setWidth 64) m) : s = t := by
  have terms : v.setWidth 64 * kOf slot + s.setWidth 64 = w.setWidth 64 * kOf slot + t.setWidth 64 := by
    simpa [encode] using h
  have sums : v.toNat * (kOf slot).toNat + s.toNat = w.toNat * (kOf slot).toNat + t.toNat := by
    rw [← valueTerm_toNat, ← valueTerm_toNat, terms]
  have remainder (a : Nat) (r : Word) : (a * (kOf slot).toNat + r.toNat) % (kOf slot).toNat = r.toNat := by
    obtain ⟨large, -⟩ := kOf_bounds slot
    rw [Nat.mul_add_mod', Nat.mod_eq_of_lt (by omega)]
  apply BitVec.eq_of_toNat_eq
  rw [← remainder v.toNat s, ← remainder w.toNat t, sums]

/-- Under another 32-bit signature no word of a value is valid (R49, R54). -/
theorem decode_encode_other {slot : BitVec 2} {s t : Word} (h : s ≠ t) (v : Half) (m : Cycle) :
    decode slot (encode slot v (s.setWidth 64) m) (t.setWidth 64) m = none :=
  Option.eq_none_iff_forall_ne_some.mpr fun _ found => h (signature_eq_of_encode_eq (eq_encode_of_decode found))

/-- A word is valid for the value that its quotient by K is (R49). -/
theorem decode_eq_some_iff_quotient (slot : BitVec 2) (c sig : Coded) (m : Cycle) (v : Half) :
    decode slot c sig m = some v ↔ (c - sig - dTerm slot m) * kInvOf slot = v.setWidth 64 := by
  rw [decode_eq_some_iff]
  constructor
  · rintro rfl
    calc (encode slot v sig m - sig - dTerm slot m) * kInvOf slot
        = v.setWidth 64 * (kOf slot * kInvOf slot) := by unfold encode; ring
      _ = v.setWidth 64 := by rw [k_mul_kInv, mul_one]
  · intro quotient
    calc c = (c - sig - dTerm slot m) * (kOf slot * kInvOf slot) + sig + dTerm slot m := by rw [k_mul_kInv]; ring
      _ = (c - sig - dTerm slot m) * kInvOf slot * kOf slot + sig + dTerm slot m := by ring
      _ = encode slot v sig m := by rw [quotient, encode]

/-- A word is valid for no value when its quotient by K is 2^16 or more (R49). -/
theorem decode_eq_none_iff (slot : BitVec 2) (c sig : Coded) (m : Cycle) :
    decode slot c sig m = none ↔ 2 ^ 16 ≤ ((c - sig - dTerm slot m) * kInvOf slot).toNat := by
  simp [decode]

/-- Settles O2: the quotient of a word by K says what it decodes to, and a word's signature can be read off it. -/
theorem codedWords : Obligations.CodedWords := by
  unfold Obligations.CodedWords
  intro slot v sig c m s t _
  dsimp only
  refine ⟨rfl, k_mul_kInv slot, ?_, decode_eq_none_iff slot c sig m, decode_encode slot v sig m,
    fun other => decode_encode_other other v m⟩
  refine (decode_eq_some_iff_quotient slot c sig m v).trans ⟨fun quotient => ⟨?_, quotient⟩, And.right⟩
  have value : (v.setWidth 64).toNat = v.toNat := BitVec.toNat_setWidth_of_le (by decide)
  exact lt_of_eq_of_lt (congrArg BitVec.toNat quotient |>.trans value) v.isLt

end Sys2Proof.Machine
end

section
/-!
PROOFS. Supply inputs, dips and resets (spec/16_supplies_and_power.md R339 to R343) and the scrubber
(spec/03_coded_state.md R60): O57.
-/
namespace Sys2Proof.Machine

/-! ## Figures of the supply stage in the lanes -/

/-- Every lane of `u` has the stores, the cycle and the vote that it has in `s`. -/
def State.Quiet (s u : State) : Prop := ∀ x, (u.lane x).store = (s.lane x).store ∧ (u.lane x).cyc = (s.lane x).cyc ∧
  (u.lane x).vote = (s.lane x).vote

namespace State.Quiet

theorem trans {s u t : State} (h : Quiet s u) (i : Quiet u t) : Quiet s t := fun x =>
  ⟨(i x).1.trans (h x).1, (i x).2.1.trans (h x).2.1, (i x).2.2.trans (h x).2.2⟩

theorem of_lanes {s u : State} (h : ∀ x, u.lane x = s.lane x) : Quiet s u := fun x => by rw [h]; exact ⟨rfl, rfl, rfl⟩

/-- The supply stage changes by itself. -/
theorem supply (s : State) (p : Supply) : Quiet s { s.begin with sup := p } := of_lanes fun x => by cases x <;> rfl

theorem mapLanes (s : State) {f : LaneId → Lane → Lane}
    (h : ∀ x l, (f x l).store = l.store ∧ (f x l).cyc = l.cyc ∧ (f x l).vote = l.vote) : Quiet s (s.mapLanes f) := fun x => by
  rw [State.mapLanes_lane]
  exact h x _

end State.Quiet

@[simp] theorem State.sup_lane (s : State) (p : Supply) (x : LaneId) : ({ s with sup := p } : State).lane x = s.lane x := by
  cases x <;> rfl

/-- A change of source is counted in the figures of the supply alone (R339, R370). -/
theorem Lane.countSwitch_eq (l : Lane) (b : Bool) :
    l.countSwitch b = { l with sup := (l.countSwitch b).sup, rcd := (l.countSwitch b).rcd } := by
  unfold Lane.countSwitch
  split <;> rfl

/-- A voltage is noted in the figures of the supply alone (R339, R370). -/
theorem Lane.noteInput_eq (l : Lane) (i : SupIn) (v : Nat) :
    l.noteInput i v = { l with sup := (l.noteInput i v).sup, rcd := (l.noteInput i v).rcd } := by
  unfold Lane.noteInput
  split
  · rfl
  · cases i <;> rfl

/-- A dip is counted in the figures of the supply and shown in STS_FAULT (R342). -/
theorem Lane.countDip_eq (l : Lane) (t v : Nat) : l.countDip t v =
    { l with sup := (l.countDip t v).sup, rcd := (l.countDip t v).rcd, codes := (l.countDip t v).codes } := by
  unfold Lane.countDip
  split <;> rfl

/-- The count of dips of a length, in tenths of a millisecond (R354). -/
def SupRegs.countLength (u : SupRegs) (t : Nat) : SupRegs :=
  if 1000 ≤ t then { u with d100 := u.d100 + 1 } else if 100 ≤ t then { u with d10 := u.d10 + 1 }
  else if 10 ≤ t then { u with d1 := u.d1 + 1 } else { u with d0 := u.d0 + 1 }

/-- The count of dips of a depth, in units of 10 mV (R354). -/
def SupRegs.countDepth (u : SupRegs) (v : Nat) : SupRegs :=
  if 1050 ≤ v then { u with v105 := u.v105 + 1 } else if 1020 ≤ v then { u with v102 := u.v102 + 1 }
  else if 990 ≤ v then { u with v99 := u.v99 + 1 } else { u with v96 := u.v96 + 1 }

theorem SupRegs.countLength_eq (u : SupRegs) (t : Nat) : u.countLength t = { u with
    d0 := u.d0 + if t < 10 then 1 else 0
    d1 := u.d1 + if 10 ≤ t ∧ t < 100 then 1 else 0
    d10 := u.d10 + if 100 ≤ t ∧ t < 1000 then 1 else 0
    d100 := u.d100 + if 1000 ≤ t then 1 else 0 } := by
  have classes : t < 10 ∨ (10 ≤ t ∧ t < 100) ∨ (100 ≤ t ∧ t < 1000) ∨ 1000 ≤ t := by omega
  rcases classes with h | h | h | h <;> simp (disch := omega) only [SupRegs.countLength, if_pos, if_neg, Nat.add_zero]

theorem SupRegs.countDepth_eq (u : SupRegs) (v : Nat) : let w := u.countDepth v
    w = { u with v96 := w.v96, v99 := w.v99, v102 := w.v102, v105 := w.v105 } := by
  unfold SupRegs.countDepth
  split_ifs <;> rfl

/-- A lane out of reset counts a dip by its length and by its depth (R342, R354). -/
theorem Lane.countDip_sup {l : Lane} (released : l.boot.inReset = false) (t v : Nat) :
    (l.countDip t v).sup = (({ l.sup with
      dips := l.sup.dips + 1, longest := max l.sup.longest t, busMin := min l.sup.busMin v } : SupRegs).countLength t).countDepth
        v := by
  rw [Lane.countDip, if_neg (by simp [released])]
  rfl

/-! ## The source -/

/-- The source follows the inputs (R339). -/
theorem State.settleSource_sup (s : State) : s.settleSource.sup = { s.sup with onBk := s.sup.takesBackup } := by
  unfold State.settleSource
  dsimp only
  split
  next same => rw [same]
  · rfl

theorem State.settleSource_onBk (s : State) : s.settleSource.sup.onBk = s.sup.takesBackup := by rw [s.settleSource_sup]

theorem State.settleSource_lane (s : State) (x : LaneId) : s.settleSource.lane x =
    if s.sup.takesBackup = s.sup.onBk then s.lane x else (s.lane x).countSwitch s.sup.takesBackup := by
  unfold State.settleSource
  dsimp only
  split
  · rfl
  · rw [State.mapLanes_lane, State.sup_lane]

theorem State.Quiet.settleSource (s : State) : Quiet s s.settleSource := fun x => by
  rw [State.settleSource_lane]
  split
  · exact ⟨rfl, rfl, rfl⟩
  · rw [Lane.countSwitch_eq]
    exact ⟨rfl, rfl, rfl⟩

/-- MAIN alone feeds the bus while it is present, above 18.0 V and preferred (R339). -/
theorem Supply.takesBackup_of_preferred {p : Supply} (present : p.mainP = true) (high : 180 < p.mainV) (pref : p.pref = true) :
    p.takesBackup = false := by simp [Supply.takesBackup, present, high, pref]

theorem Supply.takesBackup_of_backup_alone {p : Supply} (main : p.mainP = false) (backup : p.bkP = true) :
    p.takesBackup = true := by simp [Supply.takesBackup, main, backup]

theorem Supply.takesBackup_of_main_alone {p : Supply} (main : p.mainP = true) (backup : p.bkP = false) :
    p.takesBackup = false := by simp [Supply.takesBackup, main, backup]

/-! ## Inputs -/

/-- INPUT_PRESENT at a voltage within the thresholds (R339, R340). -/
theorem inputPresent_effect (s : State) (i : SupIn) {v : Nat} (low : 168 ≤ v) (high : v ≤ if s.sup.ov i then 1540 else 1600) :
    ∃ u, exec (.inputPresent i v) s = .next u ∧ State.Quiet s u ∧ u.sup.has i = true ∧ u.sup.ov i = false ∧
      u.sup.holdup = false ∧ (i = .main → 180 < v → s.sup.pref = true → u.sup.onBk = false) ∧
      (i = .main → v ≤ 180 → u.sup.pref = false) := by
  let seen : Supply := { ((s.sup.see i v).setPresent i true).setOv i false with holdup := false }
  let fed := ({ s.begin with sup := seen } : State).settleSource
  have step : exec (.inputPresent i v) s = .next (fed.mapLanes fun _ m => m.noteInput i v) :=
    if_neg (by simp only [Bool.or_eq_true, decide_eq_true_eq, not_or, Nat.not_lt]; exact ⟨low, high⟩)
  have sup : fed.sup = { seen with onBk := seen.takesBackup } := State.settleSource_sup _
  have quiet : State.Quiet s fed := (State.Quiet.supply _ _).trans (.settleSource _)
  refine ⟨_, step, quiet.trans (.mapLanes _ fun _ m => by rw [Lane.noteInput_eq]; exact ⟨rfl, rfl, rfl⟩), ?_⟩
  rw [State.mapLanes_sup, sup]
  refine ⟨by cases i <;> rfl, by cases i <;> rfl, by cases i <;> rfl, ?_, ?_⟩
  · rintro rfl above pref
    exact Supply.takesBackup_of_preferred rfl above (by simp [seen, Supply.see, Supply.setPresent, Supply.setOv, pref, above])
  · rintro rfl below
    simp [seen, Supply.see, Supply.setPresent, Supply.setOv, below]

/-- INPUT_ABSENT below 16.0 V (R339). -/
theorem inputAbsent_effect (s : State) (i : SupIn) {v : Nat} (w : Nat) (low : v < 160) :
    ∃ u, exec (.inputAbsent i v w) s = .next u ∧ State.Quiet s u ∧ u.sup.has i = false ∧
      (i = .main → s.sup.bkP = true → u.sup.onBk = true) ∧ (i = .backup → s.sup.mainP = true → u.sup.onBk = false) := by
  refine ⟨_, if_neg (by omega), (State.Quiet.supply _ _).trans (.settleSource _), ?_, ?_, ?_⟩
  · rw [State.settleSource_sup]
    cases i <;> rfl
  · rintro rfl backup
    rw [State.settleSource_onBk]
    exact Supply.takesBackup_of_backup_alone rfl backup
  · rintro rfl main
    rw [State.settleSource_onBk]
    exact Supply.takesBackup_of_main_alone main rfl

/-- INPUT_OVERVOLTAGE above 160 V (R339). -/
theorem inputOvervoltage_effect (s : State) (i : SupIn) {v : Nat} (high : 1600 < v) :
    ∃ u, exec (.inputOvervoltage i v) s = .next u ∧ State.Quiet s u ∧ u.sup.has i = false ∧ u.sup.ov i = true ∧
      (i = .main → s.sup.bkP = true → u.sup.onBk = true) := by
  refine ⟨_, if_neg (by omega), (State.Quiet.supply _ _).trans (.settleSource _), ?_, ?_, ?_⟩
  · rw [State.settleSource_sup]
    cases i <;> rfl
  · rw [State.settleSource_sup]
    cases i <;> rfl
  · rintro rfl backup
    rw [State.settleSource_onBk]
    exact Supply.takesBackup_of_backup_alone rfl backup

/-- MAIN_PREFERENCE_RESTORE with MAIN above 18.0 V (R339). -/
theorem mainPreferenceRestore_effect (s : State) (l : LaneId) (present : s.sup.mainP = true) (high : 180 < s.sup.mainV) :
    ∃ u, exec .mainPreferenceRestore s = .next u ∧ State.Quiet s u ∧ u.sup.pref = true ∧ u.sup.onBk = false ∧
      (s.sup.onBk = true → (s.lane l).boot.inReset = false → (u.lane l).sup.toMain = (s.lane l).sup.toMain + 1) := by
  have fed : ({ s.sup with pref := true } : Supply).takesBackup = false := Supply.takesBackup_of_preferred present high rfl
  refine ⟨_, if_pos (by simp [present, high]), (State.Quiet.supply _ _).trans (.settleSource _), ?_⟩
  rw [State.settleSource_sup, State.settleSource_lane]
  refine ⟨rfl, fed, fun onBackup released => ?_⟩
  rw [State.begin_sup, fed, if_neg (by simp [onBackup]), State.sup_lane, State.begin_lane, Lane.countSwitch,
    if_neg (by simp [released])]
  rfl

/-! ## Hold-up, resets and dips -/

/-- HOLDUP_SET with both inputs absent (R340). -/
theorem holdupSet_effect (s : State) (l : LaneId) (main : s.sup.mainP = false) (backup : s.sup.bkP = false)
    (unset : s.sup.holdup = false) :
    ∃ u, exec .holdupSet s = .next u ∧ State.Quiet s u ∧ u.sup = { s.sup with holdup := true } ∧
      ((s.lane l).boot.inReset = false → (u.lane l).nv = { (s.lane l).nv with seStored := (s.lane l).nv.se } ∧
        (u.lane l).codes.stsFault = (s.lane l).codes.stsFault ||| 0x10) := by
  refine ⟨_, if_neg (by simp [main, backup, unset]),
    (State.Quiet.supply _ _).trans (.mapLanes _ fun _ m => ?_), rfl, fun released => ?_⟩
  · split <;> exact ⟨rfl, rfl, rfl⟩
  · rw [State.mapLanes_lane, State.sup_lane, State.begin_lane, if_neg (by simp [released])]
    exact ⟨rfl, rfl⟩

/-- DIP_END while the bus is down and not in reset (R342). -/
theorem dipEnd_effect (s : State) (l : LaneId) (t v : Nat) (warned : s.sup.warnNow = true) (released : s.sup.inReset = false) :
    ∃ u, exec (.dipEnd t v) s = .next u ∧ State.Quiet s u ∧ u.sup = { s.sup with warnNow := false } ∧
      u.fcu = (if s.fcu.heldPress then ({ s.fcu with heldPress := false } : Fcu).restore else s.fcu) ∧
      u.lane l = (s.lane l).countDip t v := by
  have lanes (p : Supply) (f : Fcu) (x : LaneId) : ({ s.begin with sup := p, fcu := f } : State).lane x = s.lane x := by
    cases x <;> rfl
  refine ⟨_, if_neg (by simp [warned, released]), (State.Quiet.of_lanes (lanes _ _)).trans (.mapLanes _ fun _ m => ?_),
    rfl, rfl, ?_⟩
  · rw [Lane.countDip_eq]
    exact ⟨rfl, rfl, rfl⟩
  · rw [State.mapLanes_lane, lanes]

/-- A session that a lane has left holds no key in it (R310). -/
theorem State.dropKeys_sessions {s : State} {l : LaneId} {k : Session} (h : k ∈ (s.dropKeys l).sessions) :
    k.lanes.has l = false := by
  obtain ⟨j, -, rfl⟩ := List.mem_map.mp (List.mem_filter.mp h).1
  simp [Session.leave]

/-- RAIL_FAIL resets its lane and remembers the rail (R343). -/
theorem railFail_effect (s : State) (l : LaneId) (r : Rail) :
    ∃ u, exec (.railFail l r) s = .next u ∧ KeepsOthers s u l ∧ u.fcu = s.fcu ∧
      u.lane l = { Lane.init with nv := { (s.lane l).nv with railFail := (s.lane l).nv.railFail ||| railBit r } } ∧
      ∀ k ∈ u.sessions, k.lanes.has l = false := by
  have kept (x : LaneId) : (s.begin.dropKeys l).lane x = s.lane x := by cases x <;> rfl
  have lamps (u : State) (p : PerLane (BitVec 22)) (x : LaneId) : ({ u with lampCmd := p } : State).lane x = u.lane x := by
    cases x <;> rfl
  refine ⟨_, rfl, fun y hy => ?_, ?_, ?_, fun k hk => ?_⟩
  · rw [lamps, State.modLane_lane_other _ _ hy, kept]
  · exact State.modLane_fcu ..
  · rw [lamps, State.modLane_lane_same, kept]
    rfl
  · exact State.dropKeys_sessions (s := s.begin) (by simpa using hk)

/-! ## The scrubber -/

section
variable {s : State} {l : LaneId} (live : (s.lane l).live = true)
include live

theorem exec_scrub_bank (ph : Fin 3) (ix : BitVec 20) (find : ScrubFind) :
    exec (.scrub l (.bank ph ix) find) s = .next (s.begin.setLane l ((s.lane l).scrubWord ph ix.toNat find)) := by
  simp [exec, execScrub, State.modLane, live]

theorem exec_scrub_cell (c : DramCell) (find : ScrubFind) :
    exec (.scrub l (.cell c) find) s = .next (s.begin.setLane l ((s.lane l).scrubCell c find)) := by
  simp [exec, execScrub, State.modLane, live]

theorem exec_scrub_dram (prog : Half) (wrap : Bool) (find : ScrubFind) :
    exec (.scrub l (.dram prog wrap) find) s = .next (s.begin.setLane l ((s.lane l).scrubDram prog wrap find)) := by
  simp [exec, execScrub, State.modLane, live]

end

/-- A double-bit error poisons a DRAM word that is neither a table entry nor a forced value: it stands once in the list (R60). -/
theorem Lane.poisonCell_word (l : Lane) {c : DramCell} (table : ∀ a b, c ≠ .table a b) (force : ∀ n, c ≠ .force n) :
    l.poisonCell c = { l with store := { l.store with poison := c :: l.store.poison.filter (· != c) } } := by
  cases c with
  | table a b => exact absurd rfl (table a b)
  | force n => exact absurd rfl (force n)
  | inP1 k => rfl
  | inP5 k => rfl
  | out k => rfl
  | timer h => rfl

/-- Settles O57: each supply command by its effect, and a scrub by what it does to the lane. -/
theorem suppliesAndScrub : Obligations.SuppliesAndScrub := by
  unfold Obligations.SuppliesAndScrub
  intro s l i v w t r ph ix
  dsimp only
  have scanned : s.begin.setLane l (s.lane l) = s.begin := by rw [← State.begin_lane, State.setLane_self]
  refine ⟨fun low high => inputPresent_effect s i low high, inputAbsent_effect s i w, inputOvervoltage_effect s i,
    mainPreferenceRestore_effect s l, holdupSet_effect s l, ?reset, rfl, fun warned released => ?dip, railFail_effect s l r,
    fun live => ⟨?cleanBank, ⟨?singleBank, ?doubleBank⟩, fun c => ⟨?cleanCell, ?singleCell⟩,
      ⟨fun c table force => ?poisons, fun a b => ?poisonsTable, fun n => ?poisonsForce⟩, fun prog wrap => ?patrol⟩⟩
  case reset => exact ⟨_, rfl, rfl, rfl, rfl, rfl, rfl, rfl, rfl, rfl, fun x => by cases x <;> rfl⟩
  case dip =>
    obtain ⟨u, step, quiet, sup, fcu, lane⟩ := dipEnd_effect s l t v warned released
    refine ⟨u, step, quiet, sup, fcu, fun up => ?_⟩
    rw [lane, Lane.countDip_sup up, SupRegs.countDepth_eq, SupRegs.countLength_eq]
    exact ⟨rfl, rfl, rfl, rfl, rfl, rfl⟩
  case cleanBank =>
    rw [exec_scrub_bank live]
    exact congrArg _ scanned
  case singleBank => exact exec_scrub_bank live ph ix .single
  case doubleBank => exact exec_scrub_bank live ph ix .double
  case cleanCell =>
    rw [exec_scrub_cell live]
    exact congrArg _ scanned
  case singleCell => exact exec_scrub_cell live c .single
  case poisons =>
    rw [exec_scrub_cell live, Lane.scrubCell, Lane.poisonCell_word _ table force]
    rfl
  case poisonsTable => exact exec_scrub_cell live (.table a b) .double
  case poisonsForce => exact exec_scrub_cell live (.force n) .double
  case patrol => exact exec_scrub_dram live prog wrap .single

end Sys2Proof.Machine
end

section
/-!
PROOFS. GUARD_START (spec/02_the_cycle.md R33; spec/08_field_telegrams.md R184; spec/10_local_vital_io.md R220;
spec/17_self_test.md R360, R361): O43.
-/
namespace Sys2Proof.Machine

/-! ## The guard opens -/

/-- The lane at the start of its guard: the time used is noted, and the deadline judged (R33, R45). -/
def Lane.openGuard (l : Lane) (img : Image) (t : Nat) : Lane :=
  let m := l.sealTime img t
  { m with cyc := { m.cyc with guard := true, phase := 9 } }

/-- The work of the guard: known answers, the operating point and the supervisor slice (R33). -/
def Lane.guardWork (l : Lane) (env : GuardEnv) (dip : Bool) : Lane :=
  ((l.knownAnswer env.kaWrong).changeOp).supervisorSlice dip env.slice

/-- A transmit lane that seals a sealed cycle has a pair to settle (R184). -/
def Lane.settlesSeal (l : Lane) (x : LaneId) : Bool := l.cyc.sealed && l.sealsNow && l.transmits x

theorem Lane.settlesSeal_iff (l : Lane) (x : LaneId) :
    l.settlesSeal x = true ↔ l.cyc.sealed = true ∧ l.sealsNow = true ∧ l.transmits x = true := by
  simp only [Lane.settlesSeal, Bool.and_eq_true, and_assoc]

/-- `m` is `l` in its guard at instant `t`: the time used is noted, the lane may have settled its seal, given notice and sent its
COMMAND frame, and failures outside the seats may have come up (R33, R184, R220). -/
structure Lane.EntersGuard (l : Lane) (t : Nat) (m : Lane) : Prop where
  rest : m = { l with
    cyc := { l.cyc with guard := true, phase := 9, drop := m.cyc.drop, notice := m.cyc.notice }
    stats := { l.stats with a := { l.stats.a with used := t, slack := m.stats.a.slack } }
    align := m.align, codes := m.codes, vote := { l.vote with sealPair := m.vote.sealPair }
    field := { l.field with spareCnt := m.field.spareCnt }, lio := { l.lio with seqC := m.lio.seqC, outCmd := m.lio.outCmd } }

namespace Lane.EntersGuard

section
variable {l m : Lane} {t : Nat} (h : EntersGuard l t m)
include h

theorem cyc : m.cyc = { l.cyc with guard := true, phase := 9, drop := m.cyc.drop, notice := m.cyc.notice } := by rw [h.rest]
theorem store : m.store = l.store := by rw [h.rest]
theorem used : m.stats.a.used = t := by rw [h.rest]
theorem bist : m.bist = l.bist := by rw [h.rest]
theorem pwr : m.pwr = l.pwr := by rw [h.rest]
theorem serves (x : LaneId) : m.serves x = l.serves x := by rw [h.rest]; rfl
theorem active : m.active = l.active := by rw [h.rest]; rfl
theorem phased (x : LaneId) : m.phased x = l.phased x := by rw [h.rest]; rfl
theorem localWord (n : Cycle) : m.localWord n = l.localWord n := by rw [h.rest]; rfl
theorem settlePair : m.settlePair = l.settlePair := by rw [h.rest]; rfl
theorem settlesSeal (x : LaneId) : m.settlesSeal x = l.settlesSeal x := by rw [h.rest]; rfl

end
end Lane.EntersGuard

/-- In a voted cycle, before D_seal, a lane opens its guard without a drop (R24, R36, R45). -/
theorem Lane.openGuard_inTime {l : Lane} {img : Image} {t : Nat} (voted : l.cyc.voted = true) (intime : t ≤ dSeal img.hdr) :
    let m := l.openGuard img t
    Lane.EntersGuard l t m ∧ m.cyc.drop = l.cyc.drop ∧ m.cyc.notice = l.cyc.notice ∧ m.lio = l.lio := by
  have met : l.sealTime img t = (l.statA fun a => { a with used := t }).noteSlack 8 (dSeal img.hdr - t) := by
    simp only [Lane.sealTime, Lane.meet, if_pos intime]
    exact if_neg (by simp [voted])
  dsimp only
  rw [Lane.openGuard, met, Lane.noteSlack_eq]
  exact ⟨⟨rfl⟩, rfl, rfl, rfl⟩

/-! ## The seal settles -/

/-- `m` is `l` after its seal settled and its COMMAND frame went: the lane may have given notice, and failures outside the
seats may have come up (R184, R220). -/
structure Lane.ClosesSeal (l m : Lane) : Prop where
  rest : m = { l with
    cyc := { l.cyc with drop := m.cyc.drop, notice := m.cyc.notice }, align := m.align, codes := m.codes
    vote := { l.vote with sealPair := m.vote.sealPair }, field := { l.field with spareCnt := m.field.spareCnt }
    lio := { l.lio with seqC := m.lio.seqC, outCmd := m.lio.outCmd } }

theorem State.settleSeal_of_idle {s : State} {x : LaneId} (idle : (s.lane x).settlesSeal x = false) : s.settleSeal x = s := by
  exact if_pos (by rw [Bool.not_eq_true']; exact idle)

theorem State.settleSeal_of_pair {s : State} {x : LaneId} {p : Pair} {b : Bool} (settles : (s.lane x).settlesSeal x = true)
    (pair : (s.lane x).settlePair = some (p, b)) :
    s.settleSeal x = s.setLane x { s.lane x with
      vote := { (s.lane x).vote with sealPair := some p }
      field := { (s.lane x).field with spareCnt := (s.lane x).field.spareCnt + b.toNat } } := by
  simp only [State.settleSeal, pair]
  exact if_neg (by simpa [Lane.settlesSeal] using settles)

theorem State.settleSeal_of_none {s : State} {x : LaneId} (settles : (s.lane x).settlesSeal x = true)
    (pair : (s.lane x).settlePair = none) :
    s.settleSeal x = (s.setLane x { s.lane x with
      cyc := { (s.lane x).cyc with notice := true }
      vote := { (s.lane x).vote with sealPair := none } }).xcast x (.notice (s.lane x).cyc.num) := by
  simp only [State.settleSeal, pair]
  exact if_neg (by simpa [Lane.settlesSeal] using settles)

/-- The seal settles in its lane; the module sends (R184). -/
theorem State.settleSeal_rest (s : State) (x : LaneId) : let u := s.settleSeal x
    KeepsOthers s u x ∧ u.sup = s.sup ∧ Lane.ClosesSeal (s.lane x) (u.lane x) ∧ (u.lane x).cyc.drop = (s.lane x).cyc.drop ∧
      (u.lane x).lio = (s.lane x).lio ∧ ((s.lane x).cyc.notice = true → (u.lane x).cyc.notice = true) := by
  dsimp only
  cases settles : (s.lane x).settlesSeal x with
  | false =>
    rw [State.settleSeal_of_idle settles]
    exact ⟨fun _ _ => rfl, rfl, ⟨rfl⟩, rfl, rfl, id⟩
  | true =>
    cases pair : (s.lane x).settlePair with
    | none =>
      rw [State.settleSeal_of_none settles pair, State.xcast_lane, State.setLane_lane_same]
      refine ⟨fun y hy => ?_, ?_, ⟨rfl⟩, rfl, rfl, fun _ => rfl⟩
      · rw [State.xcast_lane, State.setLane_lane_other _ _ hy]
      · exact (congrArg State.sup (OnlySends.xcast ..).rest).trans (State.setLane_sup ..)
    | some q =>
      rw [State.settleSeal_of_pair settles pair, State.setLane_lane_same]
      exact ⟨fun y hy => State.setLane_lane_other _ _ hy, State.setLane_sup .., ⟨rfl⟩, rfl, rfl, id⟩

/-- A lane whose seal does not fail gives no notice (R184). -/
theorem State.settleSeal_notice {s : State} {x : LaneId}
    (sealable : (s.lane x).settlesSeal x = true → (s.lane x).settlePair ≠ none) :
    ((s.settleSeal x).lane x).cyc.notice = (s.lane x).cyc.notice := by
  cases settles : (s.lane x).settlesSeal x with
  | false => rw [State.settleSeal_of_idle settles]
  | true =>
    obtain ⟨⟨p, b⟩, pair⟩ := Option.ne_none_iff_exists'.mp (sealable settles)
    rw [State.settleSeal_of_pair settles pair, State.setLane_lane_same]

/-- A settled pair is recorded (R184). -/
theorem State.settleSeal_sealPair {s : State} {x : LaneId} {p : Pair} {b : Bool} (settles : (s.lane x).settlesSeal x = true)
    (pair : (s.lane x).settlePair = some (p, b)) : ((s.settleSeal x).lane x).vote.sealPair = some p := by
  rw [State.settleSeal_of_pair settles pair, State.setLane_lane_same]

/-- A lane whose seal fails gives notice to every lane that it reaches (R14, R184). -/
theorem State.settleSeal_fails {s : State} {x : LaneId} (settles : (s.lane x).settlesSeal x = true)
    (pair : (s.lane x).settlePair = none) : ((s.settleSeal x).lane x).cyc.notice = true ∧
      ∀ y r, y ≠ x → s.route x y = some r → .xl x y r (.notice (s.lane x).cyc.num) ∈ (s.settleSeal x).out := by
  rw [State.settleSeal_of_none settles pair]
  refine ⟨by rw [State.xcast_lane, State.setLane_lane_same], fun y r hy route => State.xcast_mem hy ?_ _⟩
  rw [State.route_congr (State.setLane_links ..)]
  exact route

/-! ## The COMMAND frame -/

theorem Lane.commandWord_of_holds {l : Lane} (holds : l.cyc.drop = none) (sealed : l.cyc.sealed = true)
    (quiet : l.cyc.notice = false) : l.commandWord = l.localWord l.cyc.num :=
  if_neg (by simp [holds, sealed, quiet])

theorem Lane.commandWord_of_fails {l : Lane} (h : l.cyc.drop.isSome = true ∨ l.cyc.sealed = false ∨ l.cyc.notice = true) :
    l.commandWord = none :=
  if_pos (by rcases h with h | h | h <;> simp [h])

/-- An active lane in service sends its COMMAND frame (R220, R222). -/
theorem State.sendCommand_out {s : State} {x : LaneId} (serves : (s.lane x).serves x = true) (active : (s.lane x).active = true) :
    (s.sendCommand x).out = s.out ++ [.fcuCommand x
      { crcOk := true, seq := (s.lane x).lio.seqC + 1, cyc := (s.lane x).cyc.num, word := (s.lane x).commandWord }] := by
  simp [State.sendCommand, serves, active]

/-- A COMMAND frame changes its lane's command figures; a local word that cannot be formed fails outside the seats (R66, R220). -/
theorem State.sendCommand_rest (s : State) (x : LaneId) : let u := s.sendCommand x
    KeepsOthers s u x ∧ u.sup = s.sup ∧ (∃ os, u.out = s.out ++ os) ∧ Lane.ClosesSeal (s.lane x) (u.lane x) ∧
      (u.lane x).vote = (s.lane x).vote ∧ (u.lane x).cyc.notice = (s.lane x).cyc.notice := by
  dsimp only
  unfold State.sendCommand
  dsimp only
  split
  · exact ⟨fun _ _ => rfl, rfl, ⟨[], by simp⟩, ⟨rfl⟩, rfl, rfl⟩
  · refine ⟨fun y hy => ?_, ?_, ⟨_, by rw [State.emit_out, State.setLane_out]⟩, ?_⟩
    · rw [State.emit_lane, State.setLane_lane_other _ _ hy]
    · rw [State.emit_sup, State.setLane_sup]
    · rw [State.emit_lane, State.setLane_lane_same]
      have fails := Lane.Fails.ite (c := ((s.lane x).cyc.drop.isNone && (s.lane x).cyc.sealed && !(s.lane x).cyc.notice &&
        ((s.lane x).localWord (s.lane x).cyc.num).isNone) = true) (.sealFails (s.lane x) (s.lane x).cyc.num localKeys) (.refl _)
      rw [fails.rest]
      exact ⟨⟨rfl⟩, rfl, rfl⟩

/-! ## The work of the guard -/

/-- The supervisor slice leaves its figures, its failures, and perhaps an exclusion (R360). -/
theorem Lane.supervisorSlice_rest (l : Lane) (dip : Bool) (r : SliceEnd) : let m := l.supervisorSlice dip r
    m = { l with
      codes := m.codes, rcd := m.rcd, vote := { l.vote with selfExcl := m.vote.selfExcl }
      bist := { l.bist with supNext := m.bist.supNext, supBad := m.bist.supBad, supPass := m.bist.supPass,
                            supMis := m.bist.supMis, supAband := m.bist.supAband, supOpen := m.bist.supOpen } } := by
  dsimp only
  unfold Lane.supervisorSlice
  split
  · rfl
  · split
    · rfl
    · cases r with
      | matched => rfl
      | unfinished => rfl
      | mismatched =>
        dsimp only [Lane.supMismatched]
        split <;> rfl

section
variable {l : Lane} (settled : l.pwr.want = none) (env : GuardEnv) (dip : Bool)
include settled

/-- With no new operating point asked for, the guard's work is known answers and the slice (R345, R360, R361). -/
theorem Lane.guardWork_of_settled : l.guardWork env dip = (l.knownAnswer env.kaWrong).supervisorSlice dip env.slice := by
  have same : (l.knownAnswer env.kaWrong).changeOp = l.knownAnswer env.kaWrong := by
    simp [Lane.changeOp, Lane.knownAnswer, settled]
  rw [Lane.guardWork, same]

/-- The guard's work counts the known answers and leaves the cycle, the stores and the seal as they are (R360, R361). -/
theorem Lane.guardWork_fields : let m := l.guardWork env dip
    m.cyc = l.cyc ∧ m.store = l.store ∧ m.stats = l.stats ∧ m.vote.sealPair = l.vote.sealPair ∧
      m.bist.cuRuns = l.bist.cuRuns + 1 ∧ m.bist.cuFails = l.bist.cuFails + env.kaWrong.toNat := by
  dsimp only
  rw [Lane.guardWork_of_settled settled, Lane.supervisorSlice_rest]
  exact ⟨rfl, rfl, rfl, rfl, rfl, rfl⟩

end

/-- A slice runs in the guard of every sixteenth cycle, except in a dip (R342, R360). -/
theorem Lane.supervisorSlice_matched {l : Lane} (due : l.cyc.num.toNat % 16 = 0) :
    l.supervisorSlice false .matched = l.supMatched := if_neg (by simp [due])

theorem Lane.supervisorSlice_mismatched {l : Lane} (due : l.cyc.num.toNat % 16 = 0) :
    l.supervisorSlice false .mismatched = l.supMismatched := if_neg (by simp [due])

theorem Lane.supervisorSlice_undue {l : Lane} (undue : l.cyc.num.toNat % 16 ≠ 0) (dip : Bool) (r : SliceEnd) :
    l.supervisorSlice dip r = l := if_pos (by simpa using undue)

/-- A second mismatch in a row excludes the lane until START (R360). -/
theorem Lane.supMismatched_selfExcl {l : Lane} (again : l.bist.supBad = true) : l.supMismatched.vote.selfExcl = some 6 := by
  rw [Lane.supMismatched, if_pos again]
  rfl

/-! ## A lane that opens its guard and settles its seal -/

/-- The module once lane `l` has opened its guard and settled its seal. -/
def State.guardSeal (s : State) (l : LaneId) (img : Image) (t : Nat) : State :=
  (s.begin.setLane l ((s.lane l).openGuard img t)).settleSeal l

/-- What closes the seal of a lane in its guard leaves it there. -/
theorem Lane.EntersGuard.closes {l m k : Lane} {t : Nat} (h : EntersGuard l t m) (i : ClosesSeal m k) : EntersGuard l t k :=
  ⟨by rw [i.rest, h.rest]⟩

section
variable {s : State} {l : LaneId} {img : Image} {t : Nat} (voted : (s.lane l).cyc.voted = true) (intime : t ≤ dSeal img.hdr)
include voted intime

theorem State.guardSeal_rest : let u := s.guardSeal l img t
    KeepsOthers s u l ∧ Lane.EntersGuard (s.lane l) t (u.lane l) ∧ (u.lane l).cyc.drop = (s.lane l).cyc.drop ∧
      (u.lane l).lio = (s.lane l).lio ∧ ((s.lane l).cyc.notice = true → (u.lane l).cyc.notice = true) := by
  obtain ⟨enters, drop, notice, lio⟩ := Lane.openGuard_inTime voted intime
  obtain ⟨others, -, closes, drop', lio', notice'⟩ := (s.begin.setLane l ((s.lane l).openGuard img t)).settleSeal_rest l
  rw [State.setLane_lane_same] at closes drop' lio' notice'
  refine ⟨fun y hy => ?_, enters.closes closes, drop'.trans drop, lio'.trans lio, fun told => notice' (notice.trans told)⟩
  exact (others y hy).trans ((State.setLane_lane_other _ _ hy).trans (State.begin_lane ..))

theorem State.guardSeal_notice (sealable : (s.lane l).settlesSeal l = true → (s.lane l).settlePair ≠ none) :
    ((s.guardSeal l img t).lane l).cyc.notice = (s.lane l).cyc.notice := by
  obtain ⟨enters, -, notice, -⟩ := Lane.openGuard_inTime voted intime
  rw [State.guardSeal, State.settleSeal_notice, State.setLane_lane_same, notice]
  rw [State.setLane_lane_same, enters.settlesSeal, enters.settlePair]
  exact sealable

variable (settles : (s.lane l).settlesSeal l = true)
include settles

theorem State.guardSeal_sealPair {p : Pair} {b : Bool} (pair : (s.lane l).settlePair = some (p, b)) :
    ((s.guardSeal l img t).lane l).vote.sealPair = some p := by
  obtain ⟨enters, -⟩ := Lane.openGuard_inTime voted intime
  exact State.settleSeal_sealPair (b := b) (by rw [State.setLane_lane_same, enters.settlesSeal, settles])
    (by rw [State.setLane_lane_same, enters.settlePair, pair])

theorem State.guardSeal_fails (none : (s.lane l).settlePair = none) : ((s.guardSeal l img t).lane l).cyc.notice = true ∧
    ∀ y r, y ≠ l → s.route l y = some r → .xl l y r (.notice (s.lane l).cyc.num) ∈ (s.guardSeal l img t).out := by
  obtain ⟨enters, -⟩ := Lane.openGuard_inTime voted intime
  obtain ⟨told, reaches⟩ := State.settleSeal_fails (s := s.begin.setLane l ((s.lane l).openGuard img t)) (x := l)
    (by rw [State.setLane_lane_same, enters.settlesSeal, settles]) (by rw [State.setLane_lane_same, enters.settlePair, none])
  rw [State.setLane_lane_same, enters.cyc] at reaches
  exact ⟨told, fun y r hy route => reaches y r hy ((State.route_congr (State.setLane_links ..) ..).trans route)⟩

end

section
variable {s : State} {l : LaneId} {img : Image} {t : Nat} (voted : (s.lane l).cyc.voted = true) (intime : t ≤ dSeal img.hdr)
include voted intime

/-- The word of the COMMAND frame is the local word of a sealed cycle that holds, while the lane's seal does not fail (R220). -/
theorem State.guardSeal_word (holds : (s.lane l).cyc.drop = none) (isSealed : (s.lane l).cyc.sealed = true)
    (quiet : (s.lane l).cyc.notice = false) (sealable : (s.lane l).settlesSeal l = true → (s.lane l).settlePair ≠ none) :
    ((s.guardSeal l img t).lane l).commandWord = (s.lane l).localWord (s.lane l).cyc.num := by
  obtain ⟨-, enters, drop, -⟩ := State.guardSeal_rest voted intime
  rw [Lane.commandWord_of_holds (drop.trans holds) (by rw [enters.cyc]; exact isSealed)
    ((State.guardSeal_notice voted intime sealable).trans quiet), enters.localWord, enters.cyc]

/-- There is no word where the cycle dropped or was not sealed, or the seal failed (R37, R184, R220). -/
theorem State.guardSeal_hold (fails : (s.lane l).cyc.drop.isSome = true ∨ (s.lane l).cyc.sealed = false ∨
    (s.lane l).cyc.notice = true ∨
      ((s.lane l).sealsNow = true ∧ (s.lane l).transmits l = true ∧ (s.lane l).settlePair = none)) :
    ((s.guardSeal l img t).lane l).commandWord = none := by
  obtain ⟨-, enters, drop, -, notice⟩ := State.guardSeal_rest voted intime
  have unsealed (h : (s.lane l).cyc.sealed = false) : ((s.guardSeal l img t).lane l).cyc.sealed = false := by
    rw [enters.cyc]
    exact h
  apply Lane.commandWord_of_fails
  rcases fails with dropped | h | told | ⟨seals, transmits, none⟩
  · exact .inl (by rw [drop]; exact dropped)
  · exact .inr (.inl (unsealed h))
  · exact .inr (.inr (notice told))
  · cases isSealed : (s.lane l).cyc.sealed with
    | false => exact .inr (.inl (unsealed isSealed))
    | true =>
      have settles := ((s.lane l).settlesSeal_iff l).mpr ⟨isSealed, seals, transmits⟩
      exact .inr (.inr (State.guardSeal_fails voted intime settles none).1)

/-- An active lane in service sends its COMMAND frame with that word (R220, R222). -/
theorem State.guardSeal_sends (serves : (s.lane l).serves l = true) (active : (s.lane l).active = true) :
    .fcuCommand l { crcOk := true, seq := (s.lane l).lio.seqC + 1, cyc := (s.lane l).cyc.num,
                    word := ((s.guardSeal l img t).lane l).commandWord } ∈ ((s.guardSeal l img t).sendCommand l).out := by
  obtain ⟨-, enters, -, lio, -⟩ := State.guardSeal_rest voted intime
  have out := State.sendCommand_out ((enters.serves l).trans serves) (enters.active.trans active)
  rw [lio, enters.cyc] at out
  rw [out]
  exact List.mem_append_right _ (List.mem_singleton_self _)

end

/-! ## GUARD_START -/

/-- GUARD_START in a running cycle: the seal settles, the COMMAND frame goes, and the guard's work follows (R33, R184, R220). -/
theorem exec_guardStart {s : State} {l : LaneId} {img : Image} {t : Nat} (env : GuardEnv) (runs : RunsCycle s l img)
    (unguarded : (s.lane l).cyc.guard = false) (voted : (s.lane l).cyc.voted = true) (intime : t ≤ dSeal img.hdr) :
    exec (.guardStart l t env) s = .next
      (((s.guardSeal l img t).sendCommand l).modLane l fun m => m.guardWork env s.sup.warnNow) := by
  obtain ⟨image, cycle, phased, -⟩ := runs
  have timed : ((s.lane l).sealTime img t).phased l = true := ((Lane.openGuard_inTime voted intime).1.phased l).trans phased
  have sup : ((s.guardSeal l img t).sendCommand l).sup = s.sup := calc
    _ = (s.guardSeal l img t).sup := ((s.guardSeal l img t).sendCommand_rest l).2.1
    _ = _ := (State.settleSeal_rest ..).2.1
    _ = s.sup := State.setLane_sup ..
  simp only [exec, execGuardStart, State.begin_lane, image, cycle, unguarded, phased, timed, if_true]
  rw [← sup]
  rfl

/-- Settles O43: what stands when the guard opens is carried through the settled seal, the COMMAND frame and the guard's work. -/
theorem guardStarts : Obligations.GuardStarts := by
  unfold Obligations.GuardStarts
  intro s l t env img w
  dsimp only
  intro runs unguarded voted intime want
  obtain ⟨sealOthers, sealed, -⟩ := State.guardSeal_rest voted intime
  obtain ⟨sendOthers, -, ⟨sent, sends⟩, closes, sendVote, sendNotice⟩ := (s.guardSeal l img t).sendCommand_rest l
  let c := (s.guardSeal l img t).sendCommand l
  have enters : Lane.EntersGuard (s.lane l) t (c.lane l) := sealed.closes closes
  have num : (c.lane l).cyc.num = (s.lane l).cyc.num := by rw [enters.cyc]
  have settled : (c.lane l).pwr.want = none := by rw [enters.pwr, want]
  have work := Lane.guardWork_of_settled settled env s.sup.warnNow
  obtain ⟨cyc, store, stats, sealPair, cuRuns, cuFails⟩ := Lane.guardWork_fields settled env s.sup.warnNow
  have settles (isSealed : (s.lane l).cyc.sealed = true) (seals : (s.lane l).sealsNow = true)
      (transmits : (s.lane l).transmits l = true) : (s.lane l).settlesSeal l = true :=
    (Lane.settlesSeal_iff ..).mpr ⟨isSealed, seals, transmits⟩
  refine ⟨_, exec_guardStart env runs unguarded voted intime, fun y hy => ?_, ?_⟩
  · rw [State.modLane_lane_other _ _ hy, sendOthers y hy, sealOthers y hy]
  rw [State.modLane_lane_same, State.modLane_out]
  refine ⟨?guard, ?phase, ?store, ?used, ?runs, ?fails, fun due up matched => ?matched, fun due up mismatched again => ?excludes,
    fun undue => ?undue, fun serves active holds isSealed quiet sealable word => ?word,
    fun serves active fails => ?hold, fun isSealed seals transmits none => ?notice, fun p b isSealed seals transmits pair => ?pair⟩
  case guard => rw [cyc, enters.cyc]
  case phase => rw [cyc, enters.cyc]
  case store => rw [store, enters.store]
  case used => rw [stats, enters.used]
  case runs => rw [cuRuns, enters.bist]
  case fails => rw [cuFails, enters.bist]
  case matched =>
    rw [work, up, matched, Lane.supervisorSlice_matched (num ▸ due), ← enters.bist]
    exact ⟨rfl, rfl⟩
  case excludes =>
    rw [work, up, mismatched, Lane.supervisorSlice_mismatched (num ▸ due)]
    exact Lane.supMismatched_selfExcl ((congrArg Bist.supBad enters.bist).trans again)
  case undue =>
    rw [work, Lane.supervisorSlice_undue (num ▸ undue), ← enters.bist]
    exact ⟨rfl, rfl⟩
  case word =>
    have formed := State.guardSeal_word voted intime holds isSealed quiet fun settles =>
      have ⟨_, seals, transmits⟩ := (Lane.settlesSeal_iff ..).mp settles
      sealable seals transmits
    exact (formed.trans word) ▸ State.guardSeal_sends voted intime serves active
  case hold => exact State.guardSeal_hold voted intime fails ▸ State.guardSeal_sends voted intime serves active
  case notice =>
    obtain ⟨told, reaches⟩ := State.guardSeal_fails voted intime (settles isSealed seals transmits) none
    exact ⟨by rw [cyc, sendNotice, told], fun y r hy route => sends ▸ List.mem_append_left _ (reaches y r hy route)⟩
  case pair =>
    refine ⟨?_, ?_⟩
    · rw [sealPair, sendVote, State.guardSeal_sealPair voted intime (settles isSealed seals transmits) pair]
    · rw [cyc, sendNotice, State.guardSeal_notice voted intime fun _ => by rw [pair]; simp]

end Sys2Proof.Machine
end

section
/-!
PROOFS. Register terms (spec/04_node_programs.md R73, R74): O3.
-/
namespace Sys2Proof.Machine
open Config

/-- G(r) is r · 2^40, which does not wrap (R73). -/
theorem gTerm_toNat (r : BitVec 4) : (gTerm r).toNat = 2 ^ 40 * r.toNat := by
  have bound := r.isLt
  rw [gTerm, BitVec.toNat_shiftLeft, BitVec.toNat_setWidth, Nat.shiftLeft_eq]
  omega

/-- The difference of two terms is a multiple of 2^40 (R74). -/
theorem gTerm_sub (q r : BitVec 4) : gTerm r - gTerm q = BitVec.ofNat 64 (2 ^ 40) * (r.setWidth 64 - q.setWidth 64) := by
  have term (p : BitVec 4) : gTerm p = BitVec.ofNat 64 (2 ^ 40) * p.setWidth 64 := by
    rw [gTerm, BitVec.shiftLeft_eq_mul_twoPow, BitVec.mul_comm]
    rfl
  rw [term, term]
  ring

/-- A multiple of 2^40 modulo 2^64 is one (R74). -/
theorem two_pow_dvd_toNat_mul (c : Coded) : 2 ^ 40 ∣ (BitVec.ofNat 64 (2 ^ 40) * c).toNat := by
  rw [BitVec.toNat_mul]
  exact (Nat.dvd_mod_iff (by decide)).mpr ⟨c.toNat, rfl⟩

/-- Whatever K takes to the difference of two terms is a multiple of 2^40, since K is odd (R74). -/
theorem dvd_of_mul_kOf_eq {slot : BitVec 2} {q r : BitVec 4} {u : Coded} (h : u * kOf slot = gTerm r - gTerm q) :
    2 ^ 40 ∣ u.toNat := by
  have quotient : u = BitVec.ofNat 64 (2 ^ 40) * ((r.setWidth 64 - q.setWidth 64) * kInvOf slot) := calc
    u = u * (kOf slot * kInvOf slot) := by rw [k_mul_kInv, mul_one]
    _ = u * kOf slot * kInvOf slot := by ring
    _ = _ := by rw [h, gTerm_sub]; ring
  rw [quotient]
  exact two_pow_dvd_toNat_mul _

theorem gTerm_injective {q r : BitVec 4} (h : gTerm q = gTerm r) : q = r := by
  have same := congrArg BitVec.toNat h
  rw [gTerm_toNat, gTerm_toNat] at same
  exact BitVec.eq_of_toNat_eq (by omega)

/-- Two values that differ by a multiple of 2^40 are equal. -/
theorem eq_of_dvd_sub {v w : Half} (h : 2 ^ 40 ∣ (w.setWidth 64 - v.setWidth 64 : Coded).toNat) : w = v := by
  have hv := v.isLt
  have hw := w.isLt
  rw [BitVec.toNat_sub, BitVec.toNat_setWidth, BitVec.toNat_setWidth] at h
  exact BitVec.eq_of_toNat_eq (by omega)

/-- A word of one register is valid for no value under the term of another (R74). -/
theorem decode_encode_gTerm_other {q r : BitVec 4} (h : q ≠ r) (slot : BitVec 2) (v : Half) (m : Cycle) :
    decode slot (encode slot v (gTerm r) m) (gTerm q) m = none := by
  refine Option.eq_none_iff_forall_ne_some.mpr fun w found => h ?_
  have words : v.setWidth 64 * kOf slot + gTerm r = w.setWidth 64 * kOf slot + gTerm q := by
    simpa [encode] using eq_encode_of_decode found
  have difference : (w.setWidth 64 - v.setWidth 64) * kOf slot = gTerm r - gTerm q := by
    linear_combination -words
  have same : w = v := eq_of_dvd_sub (dvd_of_mul_kOf_eq difference)
  rw [same] at words
  exact (gTerm_injective (add_left_cancel words)).symm

/-- Settles O3: K is odd, so that it takes to a difference of two terms only multiples of 2^40, and no two values differ by one. -/
theorem registerTermsDiffer : Obligations.RegisterTermsDiffer := by
  unfold Obligations.RegisterTermsDiffer
  intro slot v m q r u _ other
  have apart : q.toNat ≠ r.toNat := fun h => other (BitVec.eq_of_toNat_eq h)
  have hq := q.isLt
  have hr := r.isLt
  rw [gTerm_toNat, gTerm_toNat]
  refine ⟨decode_encode_gTerm_other other slot v m, by push_cast; ring, by omega, by omega, ?_, dvd_of_mul_kOf_eq⟩
  revert slot
  decide

end Sys2Proof.Machine
end

section
/-!
PROOFS. Timers and the boundaries (spec/04_node_programs.md R85 to R88): O5.
-/
namespace Sys2Proof.Machine

/-! ## The fields of a timer word -/

theorem tRunning_iff (v : Half) : tRunning v = true ↔ 2 ^ 15 ≤ v.toNat := by
  have bound := v.isLt
  rw [tRunning, BitVec.getLsbD, Nat.testBit_eq_decide_div_mod_eq, decide_eq_true_iff]
  omega

theorem tUnit_iff (v : Half) : tUnit v = true ↔ v.toNat / 2 ^ 14 % 2 = 1 := by
  rw [tUnit, BitVec.getLsbD, Nat.testBit_eq_decide_div_mod_eq, decide_eq_true_iff]

theorem tCount_toNat (v : Half) : (tCount v).toNat = v.toNat % 2 ^ 14 := by
  rw [tCount, BitVec.toNat_and]
  exact Nat.and_two_pow_sub_one_eq_mod v.toNat 14

theorem tCount_eq_zero_iff (v : Half) : tCount v = 0 ↔ v.toNat % 2 ^ 14 = 0 := by
  rw [← tCount_toNat, ← BitVec.toNat_inj]
  rfl

/-- A timer is expired when it runs and its count is 0 (R85). -/
theorem tExpired_iff (v : Half) : tExpired v = true ↔ 2 ^ 15 ≤ v.toNat ∧ v.toNat % 2 ^ 14 = 0 := by
  rw [tExpired, Bool.and_eq_true, tRunning_iff, beq_iff_eq, tCount_eq_zero_iff]

/-! ## A running timer -/

/-- Word of a timer that runs with `n` units to go, in 100 ms where `unit100` (R85). -/
def runningWord (unit100 : Bool) (n : Nat) : Half := BitVec.ofNat 16 (2 ^ 15 + 2 ^ 14 * unit100.toNat + n)

section
variable {unit100 : Bool} {n : Nat} (small : n < 2 ^ 14)
include small

theorem runningWord_toNat : (runningWord unit100 n).toNat = 2 ^ 15 + 2 ^ 14 * unit100.toNat + n := by
  have := unit100.toNat_le
  rw [runningWord, BitVec.toNat_ofNat]
  omega

theorem tExpired_runningWord : tExpired (runningWord unit100 n) = true ↔ n = 0 := by
  rw [tExpired_iff, runningWord_toNat small]
  omega

/-- A running timer falls at the end of its unit while units are to go (R87). -/
theorem timerFalls_runningWord (tick : Bool) :
    timerFalls (runningWord unit100 n) tick = true ↔ n ≠ 0 ∧ (unit100 = true → tick = true) := by
  have unit : tUnit (runningWord unit100 n) = unit100 := by
    rw [Bool.eq_iff_iff, tUnit_iff, runningWord_toNat small]
    cases unit100 <;> simp <;> omega
  have running : tRunning (runningWord unit100 n) = true := by
    rw [tRunning_iff, runningWord_toNat small]
    omega
  have count : tCount (runningWord unit100 n) = 0 ↔ n = 0 := by
    rw [tCount_eq_zero_iff, runningWord_toNat small]
    omega
  simp only [timerFalls, unit, running, Bool.and_eq_true, bne_iff_ne, ne_eq, count, Bool.or_eq_true, Bool.not_eq_true', true_and]
  cases unit100 <;> simp

theorem timerNext_runningWord (tick : Bool) :
    timerNext (runningWord unit100 n) tick = runningWord unit100 (if unit100 = true → tick = true then n - 1 else n) := by
  have falls := timerFalls_runningWord (unit100 := unit100) small tick
  by_cases ended : unit100 = true → tick = true
  · rw [if_pos ended]
    by_cases zero : n = 0
    · rw [timerNext, if_neg fun h => (falls.mp h).1 zero, zero]
    · rw [timerNext, if_pos (falls.mpr ⟨zero, ended⟩)]
      apply BitVec.eq_of_toNat_eq
      have word := runningWord_toNat (unit100 := unit100) small
      rw [BitVec.toNat_sub_of_le (by rw [BitVec.le_def, word]; simp; omega), word, runningWord_toNat (by omega)]
      simp
      omega
  · rw [if_neg ended, timerNext, if_neg fun h => ended (falls.mp h).2]

end

/-- A started timer runs with its count, one more in units of 100 ms (R86). -/
theorem tStarted_eq (unit100 : Bool) {k : Half} (h : k.toNat ≤ 16382) :
    tStarted unit100 k = runningWord unit100 (k.toNat + unit100.toNat) := by
  have count (c : Half) : (c &&& 0x3FFF).toNat = c.toNat % 2 ^ 14 := tCount_toNat c
  have joined (a n : Nat) (h : n < 2 ^ 14) : 2 ^ 14 * a ||| n = 2 ^ 14 * a + n := (Nat.two_pow_add_eq_or_of_lt h a).symm
  apply BitVec.eq_of_toNat_eq
  rw [runningWord_toNat (by have := unit100.toNat_le; omega)]
  cases unit100 with
  | false =>
    rw [tStarted, if_neg (by decide), BitVec.toNat_or, count]
    exact (joined 2 _ (by omega)).trans (by simp; omega)
  | true =>
    rw [tStarted, if_pos rfl, BitVec.toNat_or, count, BitVec.toNat_add]
    exact (joined 3 _ (by omega)).trans (by simp; omega)

/-! ## The boundaries -/

/-- Units of a timer that have ended after `j` boundaries: cycles, or 100 ms by the accumulator (R87). -/
def unitsEnded (unit100 : Bool) (acc tCycle j : Nat) : Nat := if unit100 then (acc + tCycle * j) / 1000 else j

section
variable {acc tCycle : Nat} (below : acc < 1000) (cycle : tCycle ≤ 1000)
include below cycle

/-- The accumulator holds what is left of the time passed (R87). -/
theorem accAfter_eq (j : Nat) : accAfter acc tCycle j = (acc + tCycle * j) % 1000 := by
  induction j with
  | zero => rw [accAfter]; omega
  | succ j ih =>
    rw [accAfter, ih, accNext, accTick, Nat.mul_succ]
    split <;> rename_i h <;> simp at h <;> omega

theorem unitsEnded_succ (unit100 : Bool) (j : Nat) :
    unitsEnded unit100 acc tCycle (j + 1) =
      unitsEnded unit100 acc tCycle j + (if unit100 = true → accTick (accAfter acc tCycle j) tCycle = true then 1 else 0) := by
  cases unit100 with
  | false => simp [unitsEnded]
  | true =>
    rw [accAfter_eq below cycle]
    simp only [unitsEnded, accTick, if_true, true_imp_iff, decide_eq_true_iff, Nat.mul_succ]
    split <;> omega

/-- A running timer has lost the units that have ended, down to 0 (R87). -/
theorem timerAfter_runningWord {unit100 : Bool} {n : Nat} (small : n < 2 ^ 14) (j : Nat) :
    timerAfter acc tCycle (runningWord unit100 n) j = runningWord unit100 (n - unitsEnded unit100 acc tCycle j) := by
  induction j with
  | zero =>
    have none : unitsEnded unit100 acc tCycle 0 = 0 := by
      cases unit100
      · rfl
      · exact Nat.div_eq_of_lt below
    rw [timerAfter, none, Nat.sub_zero]
  | succ j ih =>
    rw [timerAfter, ih, timerNext_runningWord (by omega), unitsEnded_succ below cycle]
    congr 1
    split <;> omega

/-- A timer reads expired once as many units have ended as it was started with (R86, R88). -/
theorem tExpired_timerAfter_iff (unit100 : Bool) {k : Half} (h : k.toNat ≤ 16382) (j : Nat) :
    tExpired (timerAfter acc tCycle (tStarted unit100 k) j) = true ↔
      k.toNat + unit100.toNat ≤ unitsEnded unit100 acc tCycle j := by
  have small : k.toNat + unit100.toNat < 2 ^ 14 := by have := unit100.toNat_le; omega
  rw [tStarted_eq unit100 h, timerAfter_runningWord below cycle small, tExpired_runningWord (by omega)]
  omega

end

/-- Settles O5: a timer reads expired once as many units have ended as it was started with. -/
theorem timersExpire : Obligations.TimersExpire := by
  unfold Obligations.TimersExpire
  intro k acc t j _ most below _ cycle
  have expired (unit100 : Bool) := tExpired_timerAfter_iff below cycle unit100 most j
  rw [expired false, expired true]
  simp only [unitsEnded, Bool.false_eq_true, if_false, if_true, Bool.toNat_false, Bool.toNat_true]
  refine ⟨Iff.rfl, fun h => ?_, fun h => ?_⟩ <;> omega

end Sys2Proof.Machine
end

section
/-!
PROOFS. Node words (spec/04_node_programs.md R78, R79): O6 and O7.
-/
namespace Sys2Proof

/-! ## A word is spelt by its opcode and its fields -/

/-- Two neighbouring fields of a word are one field. -/
theorem bitsAt_append (w : Word) {j k m n : Nat} (h : j = k + n) : bitsAt w j m ++ bitsAt w k n = bitsAt w k (m + n) :=
  BitVec.extractLsb'_append_extractLsb'_eq_extractLsb' h

theorem bitsAt_all (w : Word) : bitsAt w 0 32 = w := BitVec.extractLsb'_eq_self

theorem wordN_eq_iff {op : BitVec 6} {f : FmtN} {w : Word} : wordN op f = w ↔ opcodeOf w = op ∧ fieldsN w = f := by
  constructor
  · rintro rfl
    simp (disch := decide) only [wordN, opcodeOf, fieldsN, bitsAt, BitVec.extractLsb'_append_eq_of_le,
      BitVec.extractLsb'_append_eq_of_add_le, Nat.reduceSub, BitVec.extractLsb'_eq_self, and_self]
  · rintro ⟨rfl, rfl⟩
    simp (disch := decide) only [wordN, opcodeOf, fieldsN, bitsAt_append]
    exact bitsAt_all w

theorem wordG_eq_iff {op : BitVec 6} {f : FmtG} {w : Word} : wordG op f = w ↔ opcodeOf w = op ∧ fieldsG w = f := by
  constructor
  · rintro rfl
    simp (disch := decide) only [wordG, opcodeOf, fieldsG, bitsAt, BitVec.extractLsb'_append_eq_of_le,
      BitVec.extractLsb'_append_eq_of_add_le, Nat.reduceSub, BitVec.extractLsb'_eq_self, and_self]
  · rintro ⟨rfl, rfl⟩
    simp (disch := decide) only [wordG, opcodeOf, fieldsG, bitsAt_append]
    exact bitsAt_all w

theorem wordI_eq_iff {op : BitVec 6} {f : FmtI} {w : Word} : wordI op f = w ↔ opcodeOf w = op ∧ fieldsI w = f := by
  constructor
  · rintro rfl
    simp (disch := decide) only [wordI, opcodeOf, fieldsI, bitsAt, BitVec.extractLsb'_append_eq_of_le,
      BitVec.extractLsb'_append_eq_of_add_le, Nat.reduceSub, BitVec.extractLsb'_eq_self, and_self]
  · rintro ⟨rfl, rfl⟩
    simp (disch := decide) only [wordI, opcodeOf, fieldsI, bitsAt_append]
    exact bitsAt_all w

theorem wordF_eq_iff {op : BitVec 6} {f : FmtF} {w : Word} : wordF op f = w ↔ opcodeOf w = op ∧ fieldsF w = f := by
  constructor
  · rintro rfl
    simp (disch := decide) only [wordF, opcodeOf, fieldsF, bitsAt, BitVec.extractLsb'_append_eq_of_le,
      BitVec.extractLsb'_append_eq_of_add_le, Nat.reduceSub, BitVec.extractLsb'_eq_self, and_self]
  · rintro ⟨rfl, rfl⟩
    simp (disch := decide) only [wordF, opcodeOf, fieldsF, bitsAt_append]
    exact bitsAt_all w

theorem wordC_eq_iff {op : BitVec 6} {f : FmtC} {w : Word} : wordC op f = w ↔ opcodeOf w = op ∧ fieldsC w = f := by
  constructor
  · rintro rfl
    simp (disch := decide) only [wordC, opcodeOf, fieldsC, bitsAt, BitVec.extractLsb'_append_eq_of_le,
      BitVec.extractLsb'_append_eq_of_add_le, Nat.reduceSub, BitVec.extractLsb'_eq_self, and_self]
  · rintro ⟨rfl, rfl⟩
    simp (disch := decide) only [wordC, opcodeOf, fieldsC, bitsAt_append]
    exact bitsAt_all w

theorem wordB_eq_iff {op : BitVec 6} {f : FmtB} {w : Word} : wordB op f = w ↔ opcodeOf w = op ∧ fieldsB w = f := by
  constructor
  · rintro rfl
    simp (disch := decide) only [wordB, opcodeOf, fieldsB, bitsAt, BitVec.extractLsb'_append_eq_of_le,
      BitVec.extractLsb'_append_eq_of_add_le, Nat.reduceSub, BitVec.extractLsb'_eq_self, and_self]
  · rintro ⟨rfl, rfl⟩
    simp (disch := decide) only [wordB, opcodeOf, fieldsB, bitsAt_append]
    exact bitsAt_all w

theorem wordE_eq_iff {op : BitVec 6} {f : FmtE} {w : Word} : wordE op f = w ↔ opcodeOf w = op ∧ fieldsE w = f := by
  constructor
  · rintro rfl
    simp (disch := decide) only [wordE, opcodeOf, fieldsE, bitsAt, BitVec.extractLsb'_append_eq_of_le,
      BitVec.extractLsb'_append_eq_of_add_le, Nat.reduceSub, BitVec.extractLsb'_eq_self, and_self]
  · rintro ⟨rfl, rfl⟩
    simp (disch := decide) only [wordE, opcodeOf, fieldsE, bitsAt_append]
    exact bitsAt_all w

@[simp] theorem opcodeOf_wordN (op : BitVec 6) (f : FmtN) : opcodeOf (wordN op f) = op := (wordN_eq_iff.mp rfl).1
@[simp] theorem fieldsN_wordN (op : BitVec 6) (f : FmtN) : fieldsN (wordN op f) = f := (wordN_eq_iff.mp rfl).2
@[simp] theorem opcodeOf_wordG (op : BitVec 6) (f : FmtG) : opcodeOf (wordG op f) = op := (wordG_eq_iff.mp rfl).1
@[simp] theorem fieldsG_wordG (op : BitVec 6) (f : FmtG) : fieldsG (wordG op f) = f := (wordG_eq_iff.mp rfl).2
@[simp] theorem opcodeOf_wordI (op : BitVec 6) (f : FmtI) : opcodeOf (wordI op f) = op := (wordI_eq_iff.mp rfl).1
@[simp] theorem fieldsI_wordI (op : BitVec 6) (f : FmtI) : fieldsI (wordI op f) = f := (wordI_eq_iff.mp rfl).2
@[simp] theorem opcodeOf_wordF (op : BitVec 6) (f : FmtF) : opcodeOf (wordF op f) = op := (wordF_eq_iff.mp rfl).1
@[simp] theorem fieldsF_wordF (op : BitVec 6) (f : FmtF) : fieldsF (wordF op f) = f := (wordF_eq_iff.mp rfl).2
@[simp] theorem opcodeOf_wordC (op : BitVec 6) (f : FmtC) : opcodeOf (wordC op f) = op := (wordC_eq_iff.mp rfl).1
@[simp] theorem fieldsC_wordC (op : BitVec 6) (f : FmtC) : fieldsC (wordC op f) = f := (wordC_eq_iff.mp rfl).2
@[simp] theorem opcodeOf_wordB (op : BitVec 6) (f : FmtB) : opcodeOf (wordB op f) = op := (wordB_eq_iff.mp rfl).1
@[simp] theorem fieldsB_wordB (op : BitVec 6) (f : FmtB) : fieldsB (wordB op f) = f := (wordB_eq_iff.mp rfl).2
@[simp] theorem opcodeOf_wordE (op : BitVec 6) (f : FmtE) : opcodeOf (wordE op f) = op := (wordE_eq_iff.mp rfl).1
@[simp] theorem fieldsE_wordE (op : BitVec 6) (f : FmtE) : fieldsE (wordE op f) = f := (wordE_eq_iff.mp rfl).2

/-! ## Entries of node programs -/

/-- The entry of a command decodes to the command (R79). -/
theorem decodeWord_of_encodeWord {i : Instr} {l : LaneId} {x : SeatId} {w : Word} (h : encodeWord i = some (l, x, w)) :
    decodeWord l x w = some i := by
  cases i <;> cases h
  all_goals simp [decodeWord]

/-- An entry is the word of the command that it decodes to: its opcode is that of the command's row (R79). -/
theorem encodeWord_of_decodeWord {i : Instr} {l : LaneId} {x : SeatId} {w : Word} (h : decodeWord l x w = some i) :
    encodeWord i = some (l, x, w) := by
  unfold decodeWord at h
  split at h <;> rename_i row <;> cases h
  all_goals
    simp only [encodeWord, Option.some.injEq, Prod.mk.injEq, true_and, and_true, wordN_eq_iff, wordG_eq_iff, wordI_eq_iff,
      wordF_eq_iff, wordC_eq_iff, wordB_eq_iff, wordE_eq_iff]
    exact BitVec.eq_of_toNat_eq row

/-- Settles O6: a word is spelt by its opcode, which names the row, and the row's fields. -/
theorem entriesDecode : Obligations.EntriesDecode := by
  unfold Obligations.EntriesDecode
  exact fun _ _ _ _ => ⟨decodeWord_of_encodeWord, encodeWord_of_decodeWord⟩

/-- Settles O7: two words are those of their commands, opcode 0 is in no row, and the word of all ones is that of an END whose
reserved field is not 0. -/
theorem decodedWords : Obligations.DecodedWords := by
  unfold Obligations.DecodedWords
  intro l x
  exact ⟨decodeWord_of_encodeWord rfl, decodeWord_of_encodeWord rfl, rfl, { z := -1 }, decodeWord_of_encodeWord rfl, rfl⟩

end Sys2Proof
end

section
/-!
PROOFS. What a node instruction comes to, and what its seat does then (spec/04_node_programs.md R73 to R79, R100): O16.
-/
namespace Sys2Proof.Machine

/-! ## What a command of a node row comes to -/

/-- What a command of a node row comes to in an evaluation (R79). The other commands have no entry, and nothing is said of what
they come to. -/
def comesTo : Instr → Eval → ResE
  | .ld _ _ f => fun c => evalLd c f
  | .st _ _ f => fun c => evalSt c f
  | .andN _ _ f => fun c => evalBoolNode bAnd c f
  | .orN _ _ f => fun c => evalBoolNode bOr c f
  | .andnN _ _ f => fun c => evalBoolNode bAndn c f
  | .subr _ _ f => fun c => evalSubr c f
  | .edg _ _ f => fun c => evalEdg c f
  | .tstart _ _ f => fun c => evalTstart c f
  | .tstop _ _ f => fun c => evalTstop c f
  | .tqry _ _ f => fun c => evalTimerRead tCount c f
  | .texp _ _ f => fun c => evalTimerRead (fun v => flag (tExpired v)) c f
  | .trun _ _ f => fun c => evalTimerRead (fun v => flag (tRunning v)) c f
  | .mov _ _ f => fun c => evalMov c f
  | .not _ _ f => fun c => evalNot c f
  | .and _ _ f => fun c => evalBool bAnd c f
  | .or _ _ f => fun c => evalBool bOr c f
  | .xor _ _ f => fun c => evalBool bXor c f
  | .andn _ _ f => fun c => evalBool bAndn c f
  | .sel _ _ f => fun c => evalSel c f
  | .cmp _ _ f => fun c => evalCmp c f
  | .cadd _ _ f => fun c => evalArith clampAdd c f
  | .csub _ _ f => fun c => evalArith clampSub c f
  | .ldi _ _ f => fun c => evalLdi c f
  | .cmpi _ _ f => fun c => evalCmpi c f
  | .caddi _ _ f => fun c => evalArithImm clampAdd c f
  | .csubi _ _ f => fun c => evalArithImm clampSub c f
  | .mtch _ _ f => fun c => evalMtch c f
  | .stn _ _ f => fun c => evalStn c f
  | .unpk _ _ f => fun c => evalUnpk c f
  | .pack _ _ f => fun c => evalPack c f
  | .csel _ _ f => fun c => evalCsel c f
  | .cfb _ _ f => fun c => evalCfb c f
  | .cfh _ _ f => fun c => evalCfh c f
  | .cfw _ _ f => fun c => evalCfw c f
  | .crd _ _ f => fun c => evalCrd c f
  | .cwr _ _ f => fun c => evalCwr c f
  | .ccmp _ _ f => fun c => evalCcmp c f
  | .br _ _ f => fun c => evalBr c f
  | .brz _ _ f => fun c => evalBrCond true c f
  | .brnz _ _ f => fun c => evalBrCond false c f
  | .fin _ _ f => fun c => evalEnd c f
  | _ => fun _ => .ok .done

/-- A command of a node row is its entry in the seat named, and what it comes to there (R79). -/
theorem exec_of_entry {i : Instr} {l : LaneId} {x : SeatId} {w : Word} (entry : encodeWord i = some (l, x, w)) (s : State) :
    exec i s = .next (nodeCommand l x w (comesTo i) s) := by
  cases i <;> cases entry <;> rfl

section
variable {i : Instr} {s : State} {l : LaneId} {x : SeatId} {w : Word} {c : Eval} {d : BitVec 4} {v : Half}
  (entry : encodeWord i = some (l, x, w)) (runs : RunsEntry s l x c w)
include entry runs

/-- It writes a register with an encoded result (D-class, R75). -/
theorem exec_reg (h : comesTo i c = .ok (.reg d v)) : exec i s = .next (writesReg s l x c d v) := by
  rw [exec_of_entry entry, nodeCommand_reg runs h]

/-- It writes a register with a coded result that is the word of the value (L-class, R75). -/
theorem exec_regWord {k : Coded} (h : comesTo i c = .ok (.regWord d v k)) (word : k = encode c.slot v (gTerm d) c.n) :
    exec i s = .next (writesReg s l x c d v) := by
  rw [exec_of_entry entry, nodeCommand_regWord runs h word]

/-- The same after errors that were corrected (R60). -/
theorem exec_regEcc {k : Nat} (h : comesTo i c = { res := .eff (.reg d v), corr := k, uncorr := 0 }) :
    exec i s = .next (writesRegEcc s l x c k d v) := by
  rw [exec_of_entry entry, nodeCommand_regEcc runs h]

theorem exec_regWordEcc {k : Nat} {u : Coded} (h : comesTo i c = { res := .eff (.regWord d v u), corr := k, uncorr := 0 })
    (word : u = encode c.slot v (gTerm d) c.n) : exec i s = .next (writesRegEcc s l x c k d v) := by
  rw [exec_of_entry entry, nodeCommand_regWordEcc runs h word]

/-- Another effect than the end of the node or a store is performed (R76). -/
theorem exec_eff {e : Eff} (h : comesTo i c = .ok e) (goes : e ≠ .done) (stays : e.retires = false) :
    exec i s = .next (s.begin.setLane l ((s.lane l).perform x c (opcodeOf w) e)) := by
  rw [exec_of_entry entry, nodeCommand_eff runs h (.inl goes) (.inl stays), Lane.noteEcc_zero]

/-- A store retires its value, unless the force entry that gives it is poisoned (R60, R81). -/
theorem exec_retire {k : Coded} (h : comesTo i c = .ok (.retire v k)) (sound : (s.lane l).forceBad c.i = none) :
    exec i s = .next (s.begin.setLane l ((s.lane l).retireNode x c (opcodeOf w) v k)) := by
  rw [exec_of_entry entry, nodeCommand_eff runs h (.inl nofun) (.inr sound)]
  rfl

/-- A substituted input writes a register and sets the latch of its seat (R91). -/
theorem exec_regSubst (h : comesTo i c = .ok (.regSubst d v)) :
    exec i s = .next (withSeat s l x ({ c.seat with latch := true }.withReg c d v)) := by
  rw [exec_eff entry runs h nofun rfl, Lane.perform, writeReg_encode]
  rfl

/-- A comparison is counted in its seat and its outcome written (R96, R130). -/
theorem exec_compare {ok fails : Bool} (h : comesTo i c = .ok (.compare d ok fails)) :
    exec i s = .next (withSeat s l x ({ c.seat with
      cmps := c.seat.cmps + 1, falses := c.seat.falses + (!ok && !fails).toNat }.withReg c d (flag ok))) := by
  rw [exec_eff entry runs h nofun rfl, Lane.perform, writeReg_encode]
  rfl

/-- Outbound half-words are written in order, and its seat goes on (R93). -/
theorem exec_packed {ws : List (Nat × Coded)} (h : comesTo i c = .ok (.packed ws)) :
    exec i s = .next (s.begin.setLane l ((ws.foldl (fun m p => m.putOut c.settle p.1 p.2) (s.lane l)).setSeat x
      { c.seat with off := c.seat.off + 1 })) :=
  exec_eff entry runs h nofun rfl

/-- A branch changes the offset of its seat (R97). -/
theorem exec_jump {n : Nat} (h : comesTo i c = .ok (.jump n)) :
    exec i s = .next (s.begin.setLane l ((s.lane l).setSeat x { c.seat with off := n })) :=
  exec_eff entry runs h nofun rfl

/-- A timer operation is queued in its seat (R87). -/
theorem exec_timer {t : TimerOp} (h : comesTo i c = .ok (.timer t)) :
    exec i s = .next (withSeat s l x { c.seat with tq := some t }) :=
  exec_eff entry runs h nofun rfl

/-- A context comes into force in its seat (R89). -/
theorem exec_ctx {k : Ctx} (h : comesTo i c = .ok (.ctx k)) : exec i s = .next (withSeat s l x { c.seat with ctx := some k }) :=
  exec_eff entry runs h nofun rfl

/-- The check-value unit of its seat changes (R95). -/
theorem exec_cvu {u : Cvu} {n : Nat} (h : comesTo i c = .ok (.cvu u n)) :
    exec i s = .next (withSeat s l x { c.seat with cvu := u, bytes := c.seat.bytes + n }) :=
  exec_eff entry runs h nofun rfl

end

/-! ## Reserved encodings -/

/-! What each row has as reserved is what a well-formed word does not have (R78). -/

theorem getLsbD_one_eq (n : BitVec 2) : n.getLsbD 1 = !List.contains [0, 1] n := by
  revert n
  decide

section
variable (f : FmtN)

theorem resN_bank : (f.m == 3) = !f.ok [0, 1, 2] true := by
  rw [FmtN.ok, Bool.true_or, Bool.and_true]
  exact (by decide : ∀ m : BitVec 2, (m == 3) = !List.contains [0, 1, 2] m) f.m

theorem resN_store : (f.m != 1) = !f.ok [1] true := by simp [FmtN.ok, bne, beq_eq_decide]

theorem resN_zero : (f.m != 0) = !f.ok [0] true := by simp [FmtN.ok, bne, beq_eq_decide]

theorem resN_start : f.m.getLsbD 1 = !f.ok [0, 1] true := by
  rw [FmtN.ok, Bool.true_or, Bool.and_true]
  exact getLsbD_one_eq f.m

theorem resN_stop : (f.m != 0 || f.w != 0) = !f.ok [0] false := by simp [FmtN.ok, bne, beq_eq_decide]

end

section
variable (f : FmtG) (d a b e : Bool)

theorem resG_eq : resG f d a b e false = !f.ok d a b e [0] := by simp [resG, FmtG.ok, beq_eq_decide]

theorem resG_fn_eq : resG f d a b e true = !f.ok d a b e allTwo := by
  rw [resG, FmtG.ok, (by decide : ∀ n, allTwo.contains n = true) f.fn, Bool.true_or]

theorem resG_compare_eq : (resG f d a b e true || f.fn.getLsbD 1) = !f.ok d a b e [0, 1] := by
  rw [resG, FmtG.ok, getLsbD_one_eq, Bool.true_or, Bool.and_true, ← Bool.not_and]

end

section
variable (f : FmtI)

theorem resI_eq : (f.fn != 0) = !f.ok true false := by simp [FmtI.ok, bne]

theorem resI_load : (f.wa != 0 || f.fn != 0) = !f.ok false false := by simp [FmtI.ok, bne]

end

theorem resZ_eq {n : Nat} (z : BitVec n) : (z != 0) = !(z == 0) := rfl

section
variable {c : Eval} {reserved kindBad out isEnd ok : Bool} {k : ResE} (h : reserved = !ok)
include h

/-- A reserved encoding is the first fault of stage 2 (R100, R102). -/
theorem stage2_reserved (bad : ok = false) : stage2 c reserved kindBad out isEnd k = .nf 8 := by
  rw [stage2, h, bad]
  rfl

/-- A well-formed instruction of a permitted kind that is not its program's last entry passes stage 2 (R102). -/
theorem stage2_wellFormed (wf : ok = true) (permitted : kindBad = false) (going : c.notLast) :
    stage2 c reserved kindBad out isEnd k = k :=
  stage2_pass k (by rw [h, wf]; rfl) permitted (.inr going)

end

/-- A command of a node row, other than a branch, that is not well formed is a reserved encoding (R78). -/
theorem comesTo_reserved {i : Instr} {l : LaneId} {x : SeatId} {w : Word} (c : Eval) (entry : encodeWord i = some (l, x, w))
    (br : opcodeOf w ≠ 0x30) (brz : opcodeOf w ≠ 0x31) (brnz : opcodeOf w ≠ 0x32) (bad : i.wf = false) :
    comesTo i c = .nf 8 := by
  cases i <;> cases entry
  case br => exact absurd (opcodeOf_wordB ..) br
  case brz => exact absurd (opcodeOf_wordB ..) brz
  case brnz => exact absurd (opcodeOf_wordB ..) brnz
  case cmpi f => exact absurd bad (by simp [Instr.wf, FmtI.ok])
  case ld f | andN f | orN f | andnN f | edg f => exact stage2_reserved (resN_bank f) bad
  case st f => exact stage2_reserved (resN_store f) bad
  case subr f | tqry f | texp f | trun f => exact stage2_reserved (resN_zero f) bad
  case tstart f => exact stage2_reserved (resN_start f) bad
  case tstop f => exact stage2_reserved (resN_stop f) bad
  case cmp f | csel f | crd f | cwr f => exact stage2_reserved (resG_fn_eq f ..) bad
  case ccmp f => exact stage2_reserved (resG_compare_eq f ..) bad
  case ldi f => exact stage2_reserved (resI_load f) bad
  case caddi f | csubi f | mtch f => exact stage2_reserved (resI_eq f) bad
  case stn f | unpk f | pack f | fin f => exact stage2_reserved (resZ_eq f.z) bad
  all_goals exact stage2_reserved (resG_eq ..) bad

/-- Settles O16: whatever else holds, a reserved encoding is the first fault, and it is met as any node fault is. -/
theorem reservedEncodingFaults : Obligations.ReservedEncodingFaults := by
  unfold Obligations.ReservedEncodingFaults
  intro s l x c i w entry br brz brnz bad runs active
  exact ⟨_, exec_of_entry entry s, nodeCommand_faulted runs active (comesTo_reserved c entry br brz brnz bad)⟩

end Sys2Proof.Machine
end

section
/-!
PROOFS. Register, immediate and branch instructions (spec/04_node_programs.md R73, R75, R82, R97): O8 and O14.
-/
namespace Sys2Proof.Machine
open Config

/-! ## Conditions (R82) -/

theorem condHolds_iff (fn : BitVec 2) (v w : Half) : condHolds fn v w = true ↔
    fn = 0 ∧ v = w ∨ fn = 1 ∧ v ≠ w ∨ fn = 2 ∧ v.toNat < w.toNat ∨ fn = 3 ∧ w.toNat ≤ v.toNat := by
  obtain rfl | rfl | rfl | rfl := (by decide : ∀ n : BitVec 2, n = 0 ∨ n = 1 ∨ n = 2 ∨ n = 3) fn <;>
    simp [condHolds, BitVec.ult]

/-- The bounds of MTCH are the two bytes of IMM (R82). -/
theorem inRange_iff (imm v : Half) : inRange imm v = true ↔ imm.toNat / 256 ≤ v.toNat ∧ v.toNat ≤ imm.toNat % 256 := by
  have low : (imm &&& 0xFF).toNat = imm.toNat % 256 := by
    rw [BitVec.toNat_and]
    exact Nat.and_two_pow_sub_one_eq_mod imm.toNat 8
  rw [inRange, Bool.and_eq_true, decide_eq_true_iff, decide_eq_true_iff, low, BitVec.toNat_ushiftRight, Nat.shiftRight_eq_div_pow]

/-! ## What the instructions come to -/

section
variable {c : Eval} (going : c.notLast)
include going

section
variable {f : FmtG} {v w u : Half} {p q : Bool}

theorem evalMov_eq (wf : f.ok true true false false [0] = true) (a : c.holds f.wa v) :
    evalMov c f = .ok (.regWord f.wd v (encode c.slot v (gTerm f.wa) c.n - gTerm f.wa + gTerm f.wd)) := by
  rw [evalMov, stage2_wellFormed (resG_eq ..) wf rfl going, a.full, a.value, a.word]
  rfl

theorem evalNot_eq (wf : f.ok true true false false [0] = true) (a : c.holds f.wa (flag p)) :
    evalNot c f = .ok (.regWord f.wd (1 - flag p)
      (kOf c.slot - encode c.slot (flag p) (gTerm f.wa) c.n + 2 * dTerm c.slot c.n + gTerm f.wa + gTerm f.wd)) := by
  rw [evalNot, stage2_wellFormed (resG_eq ..) wf rfl going, a.full, a.value, a.word]
  dsimp only
  rw [isBool_flag]
  rfl

theorem evalBool_eq {op : Half → Half → Half} (wf : f.ok true true true false [0] = true) (a : c.holds f.wa (flag p))
    (b : c.holds f.wb (flag q)) (result : op (flag p) (flag q) = u) : evalBool op c f = .ok (.reg f.wd u) := by
  rw [evalBool, stage2_wellFormed (resG_eq ..) wf rfl going, withRegs_two a b, a.val, b.val, isBool_flag, isBool_flag, result]
  rfl

theorem evalSel_eq (wf : f.ok true true true true [0] = true) (a : c.holds f.wa v) (b : c.holds f.wb w)
    (sel : c.holds f.wc (flag p)) : evalSel c f = .ok (.reg f.wd (if p then v else w)) := by
  rw [evalSel, stage2_wellFormed (resG_eq ..) wf rfl going, withRegs_three a b sel, a.val, b.val, sel.val, isBool_flag, bSel_flag]
  rfl

theorem evalCmp_eq (wf : f.ok true true true false allTwo = true) (a : c.holds f.wa v) (b : c.holds f.wb w) :
    evalCmp c f = .ok (.reg f.wd (flag (condHolds f.fn v w))) := by
  rw [evalCmp, stage2_wellFormed (resG_fn_eq ..) wf rfl going, withRegs_two a b, a.val, b.val]

theorem evalArith_eq {op : Half → Half → Half} (wf : f.ok true true true false [0] = true) (a : c.holds f.wa v)
    (b : c.holds f.wb w) : evalArith op c f = .ok (.reg f.wd (op v w)) := by
  rw [evalArith, stage2_wellFormed (resG_eq ..) wf rfl going, withRegs_two a b, a.val, b.val]

end

section
variable {f : FmtI} {v : Half}

theorem evalLdi_eq (wf : f.ok false false = true) : evalLdi c f = .ok (.reg f.wd f.imm) :=
  stage2_wellFormed (resI_load f) wf rfl going

theorem evalCmpi_eq (a : c.holds f.wa v) : evalCmpi c f = .ok (.reg f.wd (flag (condHolds f.fn v f.imm))) := by
  rw [evalCmpi, stage2_pass _ rfl rfl (.inr going), withRegs_one a, a.val]

theorem evalArithImm_eq {op : Half → Half → Half} (wf : f.ok true false = true) (a : c.holds f.wa v) :
    evalArithImm op c f = .ok (.reg f.wd (op v f.imm)) := by
  rw [evalArithImm, stage2_wellFormed (resI_eq f) wf rfl going, withRegs_one a, a.val]

theorem evalMtch_eq (wf : f.ok true false = true) (a : c.holds f.wa v) (enum : v.toNat ≤ 255) :
    evalMtch c f = .ok (.reg f.wd (flag (inRange f.imm v))) := by
  rw [evalMtch, stage2_wellFormed (resI_eq f) wf rfl going, withRegs_one a, a.val]
  exact if_neg (by simpa using enum)

end

section
variable {f : FmtB} {v : Half} {n : Nat} (forward : 0 < f.off.toInt) (target : (n : Int) = c.seat.off + f.off.toInt)
  (within : n < c.ent.plen.toNat)
include forward target within

/-- A well-formed branch forward within the program passes stage 2 (R97). -/
theorem withBranch_pass {reserved ok : Bool} (k : ResE) (h : reserved = !ok) (wf : ok = true) : withBranch c f reserved k = k := by
  have ahead : decide (f.off.toInt ≤ 0) = false := decide_eq_false (by omega)
  have inside : decide ((c.ent.plen.toNat : Int) ≤ branchTarget c f) = false := decide_eq_false (by rw [branchTarget]; omega)
  rw [withBranch, ahead, inside, stage2_wellFormed h wf rfl going]
  rfl

theorem evalBr_eq (wf : (f.wa == 0 && f.z == 0) = true) : evalBr c f = .ok (.jump n) := by
  rw [evalBr, withBranch_pass going forward target within _ (by rw [Bool.not_and]; rfl) wf, branchTarget, ← target]
  rfl

theorem evalBrCond_eq {z : Bool} (wf : (f.z == 0) = true) (a : c.holds f.wa v) :
    evalBrCond z c f = .ok (.jump (if (v == 0) == z then n else c.seat.off + 1)) := by
  rw [evalBrCond, withBranch_pass going forward target within _ (resZ_eq f.z) wf, withRegs_one a, a.val, branchTarget, ← target]
  rfl

end
end

/-! ## What they write, and where they go -/

/-- Settles O8: what each instruction comes to is the result named, and a result goes to its register and nowhere else. -/
theorem registerResults : Obligations.RegisterResults := by
  unfold Obligations.RegisterResults
  refine ⟨fun s l x c f v w p q r going => ?_, fun s l x c f g v w b going => ?_⟩
  · refine ⟨fun wf runs a => ?mov, fun wf runs a => ?not, fun wf runs a b => ?and, fun wf runs a b => ?or,
      fun wf runs a b => ?xor, fun wf runs a b => ?andn, fun wf runs a b sel => ?sel⟩
    case mov => exact exec_regWord rfl runs (evalMov_eq going wf a) (by unfold encode; ring)
    case not =>
      have negated : 1 - flag p = flag !p := by cases p <;> rfl
      have widened : (flag !p).setWidth 64 = 1 - (flag p).setWidth 64 := by cases p <;> rfl
      exact exec_regWord rfl runs (negated ▸ evalNot_eq going wf a) (by rw [encode, encode, widened]; ring)
    case and => exact exec_reg rfl runs (evalBool_eq going wf a b (bAnd_flag p q))
    case or => exact exec_reg rfl runs (evalBool_eq going wf a b (bOr_flag p q))
    case xor => exact exec_reg rfl runs (evalBool_eq going wf a b (bXor_flag p q))
    case andn => exact exec_reg rfl runs (evalBool_eq going wf a b (bAndn_flag p q))
    case sel => exact exec_reg rfl runs (evalSel_eq going wf a b sel)
  · refine ⟨fun wf runs a e holds => ?cmp, fun wf runs a holds => ?cmpi, fun wf runs a e => ?cadd, fun wf runs a e => ?csub,
      fun wf runs => ?ldi, fun wf runs a => ?caddi, fun wf runs a => ?csubi, fun wf runs a enum holds => ?mtch⟩
    case cmp =>
      rw [Bool.eq_iff_iff.mpr (holds.trans (condHolds_iff ..).symm)]
      exact exec_reg rfl runs (evalCmp_eq going wf a e)
    case cmpi =>
      rw [Bool.eq_iff_iff.mpr (holds.trans (condHolds_iff ..).symm)]
      exact exec_reg rfl runs (evalCmpi_eq going a)
    case cadd => exact exec_reg rfl runs (evalArith_eq going wf a e)
    case csub => exact exec_reg rfl runs (evalArith_eq going wf a e)
    case ldi => exact exec_reg rfl runs (evalLdi_eq going wf)
    case caddi => exact exec_reg rfl runs (evalArithImm_eq going wf a)
    case csubi => exact exec_reg rfl runs (evalArithImm_eq going wf a)
    case mtch =>
      rw [Bool.eq_iff_iff.mpr (holds.trans (inRange_iff ..).symm)]
      exact exec_reg rfl runs (evalMtch_eq going wf a enum)

/-- Settles O14: a branch forward within the program comes to a jump to its target or to the next entry. -/
theorem branchResults : Obligations.BranchResults := by
  unfold Obligations.BranchResults
  intro s l x c f v n going forward target within
  refine ⟨fun wf runs => ?_, fun wf runs a => ?_, fun wf runs a => ?_⟩
  · exact exec_jump rfl runs (evalBr_eq going forward target within wf)
  · refine (exec_jump (i := .brz l x f) rfl runs (evalBrCond_eq going forward target within wf a)).trans ?_
    simp only [beq_true, beq_iff_eq]
  · refine (exec_jump (i := .brnz l x f) rfl runs (evalBrCond_eq going forward target within wf a)).trans ?_
    simp only [beq_false, Bool.not_eq_true', beq_eq_false_iff_ne, ne_eq, ite_not]

end Sys2Proof.Machine
end

section
/-!
PROOFS. Node operands, stores and timers (spec/04_node_programs.md R80, R81, R83, R86, R87): O9, O10 and O11.
-/
namespace Sys2Proof.Machine
open Config

/-! ## Node operands -/

/-- The condition of EDG on the shadow and the current value, for the three conditions that a well-formed word names (R83). -/
theorem edgeHolds_iff {f : FmtN} (wf : f.ok [0, 1, 2] true = true) (sh cur : Half) : edgeHolds f.m sh cur = true ↔
    f.m = 0 ∧ cur.toNat < sh.toNat ∨ f.m = 1 ∧ sh.toNat < cur.toNat ∨ f.m = 2 ∧ sh ≠ cur := by
  have named : f.m = 0 ∨ f.m = 1 ∨ f.m = 2 := by simpa [FmtN.ok] using wf
  rcases named with m | m | m <;> simp [m, edgeHolds, BitVec.ult]

theorem Eval.operandOk.permitted {c : Eval} {m : BitVec 2} {j : Nat} (h : c.operandOk m j) : bankKindBad c m j = false :=
  (operandOk_pass h (.nf 0)).1

section
variable {c : Eval} (going : c.notLast) {f : FmtN}
include going

/-- An operand that keeps the rules of R80 passes stage 2, and is read with its errors counted (R60, R80). -/
theorem operand_read {kindBad out : Bool} {m : BitVec 2} {j k : Nat} {v : Half} (wf : f.ok [0, 1, 2] true = true)
    (permitted : kindBad = false) (operand : c.operandOk m j) (reads : c.nodeReads m j v k) (r : ResE) :
    stage2 c (f.m == 3) kindBad out false (withNode c m j false (withEcc c m j r)) = { r with corr := r.corr + k } := by
  rw [stage2_wellFormed (resN_bank f) wf permitted going, (operandOk_pass operand _).2, nodeReads_ecc reads]

/-- LD re-codes the node's word to the word of its value in the register (R80). -/
theorem evalLd_eq {v : Half} {k : Nat} (wf : f.ok [0, 1, 2] true = true) (operand : c.operandOk f.m f.idx.toNat)
    (reads : c.nodeReads f.m f.idx.toNat v k) :
    evalLd c f = { res := .eff (.regWord f.w v (encode c.slot v (gTerm f.w) c.n)), corr := k, uncorr := 0 } := by
  have word : (bankWord c.lane.store f.m f.idx.toNat).word - sigOf c.img f.idx.toNat
      - dTerm c.slot (bcnOf c.lane.store c.n f.m) + gTerm f.w + dTerm c.slot c.n = encode c.slot v (gTerm f.w) c.n := by
    rw [reads.1, encode, encode]
    ring
  refine (operand_read going wf operand.permitted operand reads _).trans ?_
  simp only [nodeReads_value reads, word, ResE.ok, Nat.zero_add]

theorem evalBoolNode_eq {op : Half → Half → Half} {p q : Bool} {u : Half} {k : Nat} (wf : f.ok [0, 1, 2] true = true)
    (operand : c.operandOk f.m f.idx.toNat) (a : c.holds f.w (flag p)) (reads : c.nodeReads f.m f.idx.toNat (flag q) k)
    (result : op (flag p) (flag q) = u) : evalBoolNode op c f = { res := .eff (.reg f.w u), corr := k, uncorr := 0 } := by
  unfold evalBoolNode
  rw [a.bad]
  refine (operand_read going wf operand.permitted operand reads _).trans ?_
  simp [nodeReads_value reads, withRegs_one a, a.val, isBool_flag, failIf, ResE.ok, result]

theorem evalSubr_eq {e : NodeEntry} (wf : f.ok [0] true = true) (within : f.idx.toNat < c.img.hdr.nodes)
    (listed : c.img.nodes[f.idx.toNat]? = some e) (sound : nodeSound c.img f.idx.toNat e = true) :
    evalSubr c f = .ok (.reg f.w e.rval) := by
  rw [evalSubr, stage2_wellFormed (resN_zero f) wf rfl going, listed]
  dsimp only
  rw [sound, decide_eq_false (by omega)]
  rfl

theorem evalEdg_eq {v w : Half} {k k' : Nat} (wf : f.ok [0, 1, 2] true = true) (kind : c.ent.kind = 4)
    (operand : c.operandOk 1 f.idx.toNat) (shadow : c.nodeReads 1 f.idx.toNat v k) (current : c.nodeReads 0 f.idx.toNat w k') :
    evalEdg c f = { res := .eff (.reg f.w (if Mem.get false c.lane.store.blank f.idx.toNat then c.ent.rval
      else flag (edgeHolds f.m v w))), corr := k + k', uncorr := 0 } := by
  refine (operand_read going wf (by rw [kind]; rfl) operand shadow _).trans ?_
  rw [nodeReads_ecc current, nodeReads_value shadow, nodeReads_value current]
  simp [ResE.ok, Nat.add_comm]

end

/-- Settles O9: an operand that keeps the rules of R80 is read, and the result of reading it goes to the register. -/
theorem nodeOperandResults : Obligations.NodeOperandResults := by
  unfold Obligations.NodeOperandResults
  intro s l x c f v w p q b k k' e going
  refine ⟨fun wf runs operand reads => ?ld, fun wf runs operand a reads => ?andN, fun wf runs operand a reads => ?orN,
    fun wf runs operand a reads => ?andnN, fun wf runs within listed sound => ?subr,
    fun wf runs kind operand shadow current holds => ?edg⟩
  case ld => exact exec_regWordEcc rfl runs (evalLd_eq going wf operand reads) rfl
  case andN => exact exec_regEcc rfl runs (evalBoolNode_eq going wf operand a reads (bAnd_flag p q))
  case orN => exact exec_regEcc rfl runs (evalBoolNode_eq going wf operand a reads (bOr_flag p q))
  case andnN => exact exec_regEcc rfl runs (evalBoolNode_eq going wf operand a reads (bAndn_flag p q))
  case subr => exact exec_reg rfl runs (evalSubr_eq going wf within listed sound)
  case edg =>
    rw [Bool.eq_iff_iff.mpr (holds.trans (edgeHolds_iff wf ..).symm)]
    exact exec_regEcc rfl runs (evalEdg_eq going wf kind operand shadow current)

/-! ## Stores -/

section
variable {c : Eval} (going : c.notLast) {f : FmtN} {v : Half}
include going

/-- ST stores the register's value, or the restrictive value under the latch (R81, R91). -/
theorem evalSt_eq (wf : f.ok [1] true = true) (own : f.idx.toNat = c.i) (held : c.holds f.w v) (first : c.seat.stored = false)
    (domain : c.seat.latch = false → v.toNat ≤ kindMax c.ent.kind) :
    let u := if c.seat.latch then c.ent.rval else v
    evalSt c f = .ok (.retire u (encode c.slot u (sigOf c.img c.i) c.n)) := by
  rw [evalSt, stage2_wellFormed (resN_store f) wf rfl going, own, held.full, held.value, held.word, first]
  cases latch : c.seat.latch with
  | true => simp [failIf]
  | false =>
    have word : encode c.slot v (gTerm f.w) c.n - gTerm f.w + sigOf c.img c.i = encode c.slot v (sigOf c.img c.i) c.n := by
      unfold encode
      ring
    simp [failIf, inDomain, domain latch, word]

end

/-- The lane in which an active seat has retired the value `u` of its node (R58, R59, R81). -/
def Lane.afterRetire (l : Lane) (x : SeatId) (c : Eval) (u : Half) (word : Coded) : Lane :=
  let t := l.store
  let b := bankOf t 1
  let m : Lane := { l with store := { t with
    phys := t.phys.set b.val (Mem.set MemWord.zero t.phys[b] c.i { word := word, ecc := .ok }),
    bitmap := Mem.set false t.bitmap c.i true,
    plain := Mem.set none t.plain c.i (some u),
    redone := if c.p5 then Mem.set false t.redone c.i true else t.redone } }
  let m := if c.p5 then m.statA fun a => { a with dirty := a.dirty + 1 } else m
  m.setSeat x { c.seat with stored := true, off := c.seat.off + 1 }

/-- A node's word passes the verify stage, and the force, where one is active, gives the value that is retired (R81, R293). -/
theorem Lane.retireNode_eq (l : Lane) (x : SeatId) (c : Eval) (op : BitVec 6) (v u : Half)
    (forced : u = (l.forcedValue c.i).getD v) :
    let word := encode c.slot u (sigOf c.img c.i) c.n
    l.retireNode x c op v (encode c.slot v (sigOf c.img c.i) c.n) =
      if c.settle then ({ l with rot := { l.rot with ret := Mem.set none l.rot.ret c.i (some word) } } : Lane).setSeat x
        { c.seat with stored := true, off := c.seat.off + 1 }
      else l.afterRetire x c u word := by
  subst forced
  rw [Lane.retireNode, if_pos (decode_encode ..)]
  cases l.forcedValue c.i <;> rfl

/-- Settles O10: ST comes to the retirement of its value, which passes the verify stage. -/
theorem storeRetires : Obligations.StoreRetires := by
  unfold Obligations.StoreRetires
  intro s l x c f v u word going wf runs own held first domain sound forced coded
  have stored := exec_retire (i := .st l x f) rfl runs (evalSt_eq going wf own held first domain) sound
  rw [Lane.retireNode_eq _ _ _ _ _ u forced, ← coded] at stored
  exact ⟨fun active => by rw [stored, active]; rfl, fun settling => by rw [stored, settling]; rfl⟩

/-! ## Timers -/

theorem handleBad_eq_false {c : Eval} {h : Nat} (below : h < 65536) (listed : h < c.img.hdr.timers) : handleBad c h = false := by
  simp only [handleBad, Bool.or_eq_false_iff, decide_eq_false_iff_not]
  omega

section
variable {c : Eval} (going : c.notLast) {f : FmtN} {v : Half} (below : f.idx.toNat < 65536)
  (listed : f.idx.toNat < c.img.hdr.timers)
include going below listed

section
variable (kind : c.ent.kind = 3) (own : c.ent.aux.toNat = f.idx.toNat)
include kind own

/-- The TIMER node that owns a handle may operate on it (R70, R86). -/
theorem withOwnTimer_pass {reserved ok : Bool} (k : ResE) (h : reserved = !ok) (wf : ok = true) :
    withOwnTimer c reserved f.idx.toNat false k = k := by
  rw [withOwnTimer, stage2_wellFormed h wf (by rw [kind]; rfl) going, handleBad_eq_false below listed, own]
  simp [failIf]

theorem evalTstart_eq (wf : f.ok [0, 1] true = true) (held : c.holds f.w v) (least : 1 ≤ v.toNat) (most : v.toNat ≤ 16382) :
    evalTstart c f = .ok (.timer { h := f.idx.toNat, op := if f.m = 1 then 2 else 1, k := v }) := by
  have unit : f.m.getLsbD 0 = decide (f.m = 1) := by
    have named : f.m = 0 ∨ f.m = 1 := by simpa [FmtN.ok] using wf
    rcases named with m | m <;> rw [m] <;> rfl
  rw [evalTstart, held.bad, withOwnTimer_pass going below listed kind own _ (resN_start f) wf, withRegs_one held, held.val, unit]
  simp [failIf]
  omega

theorem evalTstop_eq (wf : f.ok [0] false = true) : evalTstop c f = .ok (.timer { h := f.idx.toNat, op := 3, k := 0 }) :=
  withOwnTimer_pass going below listed kind own _ (resN_stop f) wf

end

/-- A timer word that passes its check is read (R63, R86). -/
theorem evalTimerRead_eq {g : Half → Half} {u : Half} (wf : f.ok [0] true = true)
    (word : Mem.get 0 c.lane.store.timers f.idx.toNat = encode c.slot v (sigTimer f.idx.toNat) c.n)
    (good : c.lane.store.poisoned (.timer f.idx.toNat) = false) (result : g v = u) : evalTimerRead g c f = .ok (.reg f.w u) := by
  have value : timerValue c f.idx.toNat = some v := by rw [timerValue, good, word, decode_encode]; rfl
  rw [evalTimerRead, stage2_wellFormed (resN_zero f) wf rfl going, handleBad_eq_false below listed, value, good, ← result]
  rfl

end

/-- Settles O11: an operation on the node's own timer is queued in its seat, and what is read of a timer word goes to the
register. -/
theorem timerResults : Obligations.TimerResults := by
  unfold Obligations.TimerResults
  intro s l x c f v going below listed
  have count : tCount v = BitVec.ofNat 16 (v.toNat % 2 ^ 14) := by
    rw [← tCount_toNat, BitVec.ofNat_toNat, BitVec.setWidth_eq]
  have ended : tExpired v = (v.getLsbD 15 && v.toNat % 2 ^ 14 == 0) := by
    rw [tExpired, Bool.eq_iff_iff, Bool.and_eq_true, Bool.and_eq_true, beq_iff_eq, beq_iff_eq, tCount_eq_zero_iff]
    rfl
  refine ⟨fun kind own => ⟨fun wf runs held least most => ?start, fun wf runs => ?stop⟩,
    fun word good => ⟨fun wf runs => ?query, fun wf runs => ?expired, fun wf runs => ?running⟩⟩
  case start => exact exec_timer rfl runs (evalTstart_eq going below listed kind own wf held least most)
  case stop => exact exec_timer rfl runs (evalTstop_eq going below listed kind own wf)
  case query => exact exec_reg rfl runs (evalTimerRead_eq going below listed wf word good count)
  case expired => exact exec_reg rfl runs (evalTimerRead_eq going below listed wf word good (congrArg flag ended))
  case running => exact exec_reg rfl runs (evalTimerRead_eq going below listed wf word good rfl)

end Sys2Proof.Machine
end

section
/-!
PROOFS. Contexts and fields (spec/04_node_programs.md R89 to R93): O12.
-/
namespace Sys2Proof.Machine

/-! ## Reading a field -/

theorem Eval.inHolds.value {c : Eval} {key : Nat} {v : Half} {b : Bool} (h : c.inHolds key v b) : inValue c key = some v := by
  obtain ⟨word, good, -⟩ := h
  rw [inValue, good, word, decode_encode]
  rfl

theorem Eval.outHolds.value {c : Eval} {key : Nat} {v : Half} (h : c.outHolds key v) : outValue c key = some v := by
  obtain ⟨word, good⟩ := h
  rw [outValue, good, word, decode_encode]
  rfl

/-- The keys of a field's half-words are those of its first and its last one (R90). -/
theorem fieldKeys_eq (k : Ctx) (f : FmtF) :
    fieldKeys k f = (ctxKey k.ck k.index (firstHalf f), ctxKey k.ck k.index (lastHalf f)) := rfl

/-- A field that fits its buffer raises no context fault (R90). -/
theorem fieldBad_eq_false {f : FmtF} {n : Nat} (fits : fitsBuffer f n) : fieldBad f n = false := by
  obtain ⟨within, aligned⟩ := fits
  have inside : decide (n ≤ fieldLast f.off.toNat (f.wid.toNat + 1)) = false := decide_eq_false (by rw [fieldLast]; omega)
  rw [fieldBad, inside, Bool.or_false]
  cases order : f.e == 1 with
  | false => rfl
  | true =>
    obtain ⟨byte, width⟩ := aligned (by simpa using order)
    simp [byte, width]

section
variable {rd : Nat → Option Half} {k : Ctx} {f : FmtF} {h0 h1 : Half} (first : rd (ctxKey k.ck k.index (firstHalf f)) = some h0)
  (last : rd (ctxKey k.ck k.index (lastHalf f)) = some h1)
include first last

/-- Half-words that pass their checks do not fail (R57). -/
theorem fieldFails_eq_false (n : Nat) : fieldFails rd n k f = false := by
  simp [fieldFails, fieldKeys_eq, first, last]

theorem fieldValue_eq : fieldValue rd k.ck k.index f = some (fieldGet h0 h1 (f.off.toNat % 16) (f.wid.toNat + 1) (f.e == 1)) := by
  have last' : rd (ctxKey k.ck k.index (fieldLast f.off.toNat (f.wid.toNat + 1))) = some h1 := last
  rw [fieldValue, show rd (ctxKey k.ck k.index (fieldFirst f.off.toNat)) = some h0 from first, last']

end

theorem fieldPoison_eq_zero {bad : Nat → Bool} {k : Ctx} {f : FmtF} (first : bad (ctxKey k.ck k.index (firstHalf f)) = false)
    (last : bad (ctxKey k.ck k.index (lastHalf f)) = false) (n : Nat) : fieldPoison bad n k f = 0 := by
  simp [fieldPoison, badWords, fieldKeys_eq, first, last]

/-! ## What the instructions come to -/

/-- The indices that R89 permits pass. -/
theorem ctxOk_of_permitted {img : Image} {g : FmtC} (station : g.ck = 0 → g.index.toNat < img.hdr.stations)
    (border : g.ck = 1 → g.index.toNat < 8 ∧ ∃ r, img.nbs[g.index.toNat]? = some r ∧ r.used.getLsbD 0 = true)
    (other : g.ck = 2 ∨ g.ck = 3 → g.index = 0) : ctxOk img g.ck g.index.toNat = true := by
  obtain ck | ck | ck | ck := (by decide : ∀ n : BitVec 2, n = 0 ∨ n = 1 ∨ n = 2 ∨ n = 3) g.ck
  · simpa [ctxOk, ck] using station ck
  · obtain ⟨below, r, listed, used⟩ := border ck
    simp only [ctxOk, ck, listed, below, Option.map_some, Option.getD_some, used]
    rfl
  · simp [ctxOk, ck, other (.inl ck)]
  · simp [ctxOk, ck, other (.inr ck)]

section
variable {c : Eval} (going : c.notLast)
include going

theorem evalStn_eq {g : FmtC} (wf : (g.z == 0) = true) (permitted : ctxOk c.img g.ck g.index.toNat = true) :
    evalStn c g = .ok (.ctx { ck := g.ck, index := g.index.toNat }) := by
  rw [evalStn, stage2_wellFormed (resZ_eq g.z) wf rfl going, permitted]
  rfl

section
variable {f : FmtF} {k : Ctx} (wf : (f.z == 0) = true) (ctx : c.seat.ctx = some k)
include wf ctx

/-- UNPK takes the field's value, or the restrictive value where a half-word is SUBST (R91). -/
theorem evalUnpk_eq {h : Nat → Half} {b0 b1 : Bool} (kind : c.ent.kind = ctxKind k.ck)
    (fits : fitsBuffer f (inHalves c.img k.ck k.index))
    (first : c.inHolds (ctxKey k.ck k.index (firstHalf f)) (h (firstHalf f)) b0)
    (last : c.inHolds (ctxKey k.ck k.index (lastHalf f)) (h (lastHalf f)) b1) :
    evalUnpk c f = .ok (if b0 || b1 then .regSubst f.w c.ent.rval else .reg f.w (BitVec.ofNat 16 (fieldIn f h))) := by
  have input : isInputKind (ctxKind k.ck) = true := (by decide : ∀ n, isInputKind (ctxKind n) = true) k.ck
  have subst : fieldSubst c k.ck k.index f = (b0 || b1) := congrArg₂ or first.2.2 last.2.2
  rw [evalUnpk, ctx, stage2_wellFormed (resZ_eq f.z) wf (by simp [kind, input]) going]
  dsimp only
  rw [fieldFails_eq_false first.value last.value, fieldBad_eq_false fits, fieldValue_eq first.value last.value, subst,
    fieldPoison_eq_zero first.2.1 last.2.1, fieldGet_eq f h _ fits]
  cases b0 || b1 <;> rfl

/-- PACK re-codes the half-words that its field touches (R93). -/
theorem evalPack_eq {h : Nat → Half} {v : Half} (kind : isOutputKind c.ent.kind = true) (notHost : k.ck ≠ 3)
    (fits : fitsBuffer f (outHalves c.img k.ck k.index)) (window : inWindow (windowOf c.img c.ent) k f = true)
    (held : c.holds f.w v) (small : v.toNat < 2 ^ (f.wid.toNat + 1))
    (first : c.outHolds (ctxKey k.ck k.index (firstHalf f)) (h (firstHalf f)))
    (last : c.outHolds (ctxKey k.ck k.index (lastHalf f)) (h (lastHalf f))) :
    evalPack c f = .ok (.packed (packWords c k f (h (firstHalf f)) (h (lastHalf f)) v)) := by
  have good : packBad c f = false := by
    rw [packBad, ctx]
    exact fieldFails_eq_false first.value last.value _
  have whole : packPoison c f = 0 := by
    rw [packPoison, ctx]
    exact fieldPoison_eq_zero first.2 last.2 _
  have permitted : (!isOutputKind c.ent.kind || k.ck == 3) = false := by rw [kind, beq_eq_false_iff_ne.mpr notHost]; rfl
  rw [evalPack, ctx, stage2_wellFormed (resZ_eq f.z) wf permitted going]
  dsimp only
  rw [good, whole, withRegs_one held, fieldBad_eq_false fits, window, fieldKeys_eq, first.value, last.value, held.val,
    decide_eq_false (by omega)]
  rfl

end
end

/-- The half-words that PACK writes are those of the buffer in which it has replaced its field (R93). -/
theorem packWords_eq (c : Eval) (k : Ctx) (f : FmtF) (h : Nat → Half) (v : Half) :
    let word (j : Nat) := encode c.slot (packed h f v j) (sigKey outByte (ctxKey k.ck k.index j)) c.n
    packWords c k f (h (firstHalf f)) (h (lastHalf f)) v = (ctxKey k.ck k.index (firstHalf f), word (firstHalf f)) ::
      if firstHalf f = lastHalf f then [] else [(ctxKey k.ck k.index (lastHalf f), word (lastHalf f))] := by
  have firstWord : packed h f v (firstHalf f) =
      (fieldPut (h (firstHalf f)) (h (lastHalf f)) (f.off.toNat % 16) (f.wid.toNat + 1) (f.e == 1) v).1 := if_pos rfl
  dsimp only
  rw [firstWord]
  by_cases one : firstHalf f = lastHalf f
  · rw [if_pos one]
    exact if_pos one
  · have lastWord : packed h f v (lastHalf f) =
        (fieldPut (h (firstHalf f)) (h (lastHalf f)) (f.off.toNat % 16) (f.wid.toNat + 1) (f.e == 1) v).2 :=
      (if_neg (Ne.symm one)).trans (if_pos rfl)
    rw [if_neg one, lastWord]
    exact if_neg one

/-- Settles O12: a context is permitted, a field is read, and a field is replaced in the half-words that it touches. -/
theorem fieldResults : Obligations.FieldResults := by
  unfold Obligations.FieldResults
  intro s l x c f g k h b0 b1 v going
  refine ⟨fun wf runs station border other => ?stn, fun wf runs ctx kind fits first last => ?unpk,
    fun wf runs kind ctx notHost fits window held small first last =>
      ⟨packed h f v, fieldIn_packed h f v _ fits small, fun b outside => ?bits, ?pack⟩⟩
  case stn => exact exec_ctx rfl runs (evalStn_eq going wf (ctxOk_of_permitted station border other))
  case unpk =>
    have comes := evalUnpk_eq going wf ctx kind fits first last
    cases subst : b0 || b1 with
    | true => exact exec_regSubst rfl runs (comes.trans (by rw [subst]; rfl))
    | false => exact exec_reg rfl runs (comes.trans (by rw [subst]; rfl))
  case bits => rw [packed_bit, if_neg (by omega)]
  case pack =>
    have comes := evalPack_eq going wf ctx kind notHost fits window held small first last
    rw [packWords_eq] at comes
    refine (exec_packed (i := .pack l x f) rfl runs comes).trans ?_
    by_cases one : firstHalf f = lastHalf f
    · rw [if_pos one]
      simp only [if_pos one]
      rfl
    · rw [if_neg one]
      simp only [if_neg one]
      rfl

end Sys2Proof.Machine
end

section
/-!
PROOFS. Check-value instructions (spec/04_node_programs.md R95, R96; spec/06_check_value_units.md R123 to R130): O13.
-/
namespace Sys2Proof.Machine

/-! ## The two engines (R124, R126) -/

/-- Two words that may each take a third one by exclusive or. -/
theorem xor_ite (s t : Bool) (x y g : Coded) : (if (s ^^ t) = true then (x ^^^ y) ^^^ g else x ^^^ y) =
    (if s then x ^^^ g else x) ^^^ (if t then y ^^^ g else y) := by
  have twice : (x ^^^ g) ^^^ (y ^^^ g) = x ^^^ y := by
    rw [BitVec.xor_comm y, BitVec.xor_assoc, ← BitVec.xor_assoc g, BitVec.xor_self, BitVec.zero_xor]
  have once : (x ^^^ g) ^^^ y = (x ^^^ y) ^^^ g := by rw [BitVec.xor_assoc, BitVec.xor_comm g, BitVec.xor_assoc]
  cases s <;> cases t <;> simp [twice, once, BitVec.xor_assoc]

theorem xor_and_right (x y m : Coded) : (x ^^^ y) &&& m = (x &&& m) ^^^ (y &&& m) := by
  ext i hi
  simp [Bool.and_xor_distrib_right]

section
variable (p : Poly)

/-- A shift is linear over exclusive or (R124). -/
theorem polyShift_xor (a b : Coded) : polyShift p (a ^^^ b) = polyShift p a ^^^ polyShift p b := by
  unfold polyShift
  cases p.refl with
  | true =>
    simp only [if_true, BitVec.getLsbD_xor, BitVec.ushiftRight_xor_distrib]
    exact xor_ite ..
  | false =>
    simp only [Bool.false_eq_true, if_false, BitVec.getLsbD_xor, BitVec.shiftLeft_xor_distrib, xor_and_right]
    exact xor_ite ..

theorem polyShifts_xor (n : Nat) (a b : Coded) : polyShifts p n (a ^^^ b) = polyShifts p n a ^^^ polyShifts p n b := by
  induction n generalizing a b with
  | zero => rfl
  | succ n ih => rw [polyShifts, polyShift_xor, ih]; rfl

theorem polyShifts_add (m n : Nat) (r : Coded) : polyShifts p (m + n) r = polyShifts p n (polyShifts p m r) := by
  induction m generalizing r with
  | zero => rw [Nat.zero_add]; rfl
  | succ m ih => rw [Nat.succ_add, polyShifts, ih]; rfl

end

/-- A byte is its two halves. -/
theorem byte_halves : ∀ b : Byte, b.setWidth 64 = (b &&& 0x0F).setWidth 64 ^^^ ((b >>> 4).setWidth 64 <<< 4 : Coded) := by
  decide

/-- Half a byte that no shift takes out of the word only moves (R124). -/
theorem polyShifts_half : ∀ (fn : BitVec 2) (b : Byte), let p := polyOf fn
    (p.refl = true → polyShifts p 4 ((b >>> 4).setWidth 64 <<< 4) = (b >>> 4).setWidth 64) ∧
    (p.refl = false →
      polyShifts p 4 ((b &&& 0x0F).setWidth 64 <<< (p.width - 8)) = (b &&& 0x0F).setWidth 64 <<< (p.width - 4)) := by
  decide

/-- The engine by half bytes takes a byte as the one by bytes does (R126). -/
theorem polyNibbles_eq (fn : BitVec 2) (r : Coded) (b : Byte) : polyNibbles (polyOf fn) r b = polyByte (polyOf fn) r b := by
  obtain ⟨reflected, straight⟩ := polyShifts_half fn b
  rw [polyNibbles, polyByte, polyShifts_add _ 4 4, polyShifts_add _ 4 4, byte_halves b]
  cases order : (polyOf fn).refl with
  | true => simp only [if_true, ← BitVec.xor_assoc, polyShifts_xor, reflected order]
  | false =>
    have top : 4 + ((polyOf fn).width - 8) = (polyOf fn).width - 4 :=
      (by decide : ∀ n, 4 + ((polyOf n).width - 8) = (polyOf n).width - 4) fn
    simp only [Bool.false_eq_true, if_false, BitVec.shiftLeft_xor_distrib, ← BitVec.shiftLeft_add, top, polyShifts_xor,
      straight order]
    rw [BitVec.xor_assoc]
    exact congrArg _ (BitVec.xor_comm ..)

theorem foldl_polyNibbles (fn : BitVec 2) (r : Coded) (bs : List Byte) :
    bs.foldl (polyNibbles (polyOf fn)) r = polyBytes (polyOf fn) r bs := by
  induction bs generalizing r with
  | nil => rfl
  | cons b bs ih => rw [List.foldl_cons, polyNibbles_eq, ih, polyBytes_cons]

/-! ## Parts of a running value -/

theorem polyOf_width (p : BitVec 2) : (polyOf p).width = 16 * cvuParts p ∧ cvuParts p ≤ 4 :=
  (by decide : ∀ n, (polyOf n).width = 16 * cvuParts n ∧ cvuParts n ≤ 4) p

theorem cvuPart_eq (r : Coded) (k : Nat) : cvuPart r k = r.extractLsb' (16 * k) 16 := by
  apply BitVec.eq_of_getLsbD_eq
  intro i hi
  simp [-BitVec.getLsbD_eq_getElem, cvuPart, hi]

/-- A running value with a part replaced, bit by bit (R95). -/
theorem cvuWithPart_eq {r r' : Coded} {k : Nat} {v : Half}
    (bits : ∀ j, r'.getLsbD j = if j / 16 = k then v.getLsbD (j % 16) else r.getLsbD j) : cvuWithPart r k v = r' := by
  have ones (i : Nat) : (0xFFFF : Coded).getLsbD i = decide (i < 16) := by
    rw [BitVec.getLsbD, show (0xFFFF : Coded).toNat = 2 ^ 16 - 1 from rfl, Nat.testBit_two_pow_sub_one]
  apply BitVec.eq_of_getLsbD_eq
  intro j hj
  rw [bits, cvuWithPart, BitVec.getLsbD_or, BitVec.getLsbD_and, BitVec.getLsbD_not, BitVec.getLsbD_shiftLeft,
    BitVec.getLsbD_shiftLeft, ones, BitVec.getLsbD_setWidth]
  by_cases part : j / 16 = k
  · have inside : ¬ j < 16 * k ∧ j - 16 * k = j % 16 ∧ j % 16 < 16 ∧ j % 16 < 64 := by omega
    simp [-BitVec.getLsbD_eq_getElem, part, inside, hj]
  · rw [if_neg part]
    by_cases below : j < 16 * k
    · simp [below, hj]
    · have above : ¬ j - 16 * k < 16 := by omega
      simp [above, below, hj, BitVec.getLsbD_of_ge v (j - 16 * k) (by omega)]

/-- Parts spell a number from the most significant one downwards (R95). -/
theorem partsValue_succ (e : Nat → Half) (n : Nat) :
    partsValue e (n + 1) = (e 0).toNat * 65536 ^ n + partsValue (fun j => e (j + 1)) n := by
  induction n with
  | zero => simp [partsValue]
  | succ n ih => rw [partsValue, ih, partsValue, Nat.pow_succ]; ring

theorem partsValue_lt (e : Nat → Half) (n : Nat) : partsValue e n < 65536 ^ n := by
  induction n with
  | zero => simp [partsValue]
  | succ n ih =>
    have part := (e n).isLt
    rw [partsValue, Nat.pow_succ]
    omega

/-- The expected value of CCMP is what the registers' values spell (R95). -/
theorem expectedValue_toNat {c : Eval} {a : BitVec 4} {e : Nat → Half} {n : Nat}
    (held : ∀ j, j < n → c.holds (a + BitVec.ofNat 4 j) (e j)) (small : n ≤ 4) : (expectedValue c a n).toNat = partsValue e n := by
  induction n generalizing a e with
  | zero => rfl
  | succ n ih =>
    have first : a + BitVec.ofNat 4 0 = a := BitVec.add_zero a
    have next (j : Nat) : a + BitVec.ofNat 4 (j + 1) = a + 1 + BitVec.ofNat 4 j := by
      rw [Nat.add_comm j 1, BitVec.ofNat_add, ← BitVec.add_assoc]
      rfl
    have head : c.holds a (e 0) := first ▸ held 0 (Nat.succ_pos n)
    have tail (j : Nat) (hj : j < n) : c.holds (a + 1 + BitVec.ofNat 4 j) (e (j + 1)) :=
      next j ▸ held (j + 1) (Nat.succ_lt_succ hj)
    have rest := ih tail (Nat.le_of_succ_le small)
    have low := partsValue_lt (fun j => e (j + 1)) n
    have part := (e 0).isLt
    have place : ((e 0).setWidth 64 <<< (16 * n) : Coded).toNat = 2 ^ (16 * n) * (e 0).toNat := by
      have fits : 2 ^ (16 * n) * (e 0).toNat < 2 ^ 64 := calc
        _ < 2 ^ (16 * n) * 2 ^ 16 := Nat.mul_lt_mul_of_pos_left part (Nat.two_pow_pos _)
        _ = 2 ^ (16 * n + 16) := (Nat.pow_add ..).symm
        _ ≤ 2 ^ 64 := Nat.pow_le_pow_right (by decide) (by omega)
      rw [BitVec.toNat_shiftLeft, BitVec.toNat_setWidth_of_le (by decide), Nat.shiftLeft_eq, Nat.mul_comm, Nat.mod_eq_of_lt fits]
    have power : 65536 ^ n = 2 ^ (16 * n) := by rw [Nat.pow_mul]
    rw [power] at low
    rw [expectedValue, head.val, BitVec.toNat_or, place, rest, partsValue_succ, ← Nat.two_pow_add_eq_or_of_lt low, power,
      Nat.mul_comm]

/-! ## Registers in a row -/

theorem mem_regRun {a r : BitVec 4} {n : Nat} (h : r ∈ regRun a n) : ∃ j < n, r = a + BitVec.ofNat 4 j := by
  induction n generalizing a with
  | zero => cases h
  | succ n ih =>
    rcases List.mem_cons.mp h with rfl | later
    · exact ⟨0, Nat.succ_pos n, (BitVec.add_zero r).symm⟩
    · obtain ⟨j, below, rfl⟩ := ih later
      refine ⟨j + 1, Nat.succ_lt_succ below, ?_⟩
      rw [Nat.add_comm j 1, BitVec.ofNat_add, ← BitVec.add_assoc]
      rfl

/-- Registers that are read and all hold good words raise no fault (R75, R100). -/
theorem withRegs_all {c : Eval} {rs : List (BitVec 4)} (held : ∀ r ∈ rs, ∃ v, c.holds r v) (k : ResE) :
    withRegs c rs k = k := by
  have good : rs.any (regBad c) = false := List.any_eq_false.mpr fun r hr => by
    obtain ⟨v, h⟩ := held r hr
    rw [h.bad]
    decide
  have full : (rs.any fun r => !regFull c r) = false := List.any_eq_false.mpr fun r hr => by
    obtain ⟨v, h⟩ := held r hr
    rw [h.full]
    decide
  rw [withRegs, good, full]
  rfl

/-! ## What the instructions come to -/

/-- A unit whose engines agree changes (R126). -/
theorem cvuDone_eq (poly : Option (BitVec 2)) (r : Coded) (n : Nat) :
    cvuDone { poly := poly, par := r, ser := r } n = .ok (.cvu { poly := poly, par := r, ser := r } n) :=
  if_pos (beq_self_eq_true r)

section
variable {c : Eval} (going : c.notLast) {f : FmtG} {v w : Half}
include going

theorem evalCsel_eq (wf : f.ok false false false false allTwo = true) :
    evalCsel c f = .ok (.cvu { poly := some f.fn, par := (polyOf f.fn).init, ser := (polyOf f.fn).init } 0) := by
  rw [evalCsel, stage2_wellFormed (resG_fn_eq ..) wf rfl going, cvuDone_eq]

section
variable {p : BitVec 2} {r : Coded} (unit : c.unitHolds p r)
include unit

omit going in
/-- Bytes go through both engines of the selected unit, which stay agreed (R95, R126). -/
theorem feedUnit_eq (bs : List Byte) :
    feedUnit c bs = .ok (.cvu { poly := some p, par := fedValue p r bs, ser := fedValue p r bs } bs.length) := by
  rw [feedUnit, unit]
  dsimp only [Cvu.feed]
  rw [foldl_polyNibbles, cvuDone_eq]
  rfl

theorem evalCfb_eq (wf : f.ok false true false false [0] = true) (a : c.holds f.wa v) (byte : v.toNat ≤ 255) :
    evalCfb c f = .ok (.cvu { poly := some p, par := fedValue p r [v.setWidth 8], ser := fedValue p r [v.setWidth 8] } 1) := by
  rw [evalCfb, stage2_wellFormed (resG_eq ..) wf rfl going, withRegs_one a, a.val, decide_eq_false (by omega), feedUnit_eq unit]
  rfl

theorem evalCfh_eq (wf : f.ok false true false false [0] = true) (a : c.holds f.wa v) :
    let u := fedValue p r [v.extractLsb' 8 8, v.setWidth 8]
    evalCfh c f = .ok (.cvu { poly := some p, par := u, ser := u } 2) := by
  rw [evalCfh, stage2_wellFormed (resG_eq ..) wf rfl going, withRegs_one a, a.val, halfBytes, feedUnit_eq unit,
    ← BitVec.setWidth_eq_extractLsb' (by decide)]
  rfl

theorem evalCfw_eq (wf : f.ok false true false false [0] = true) (even : f.wa.getLsbD 0 = false) (a : c.holds f.wa v)
    (b : c.holds (f.wa + 1) w) :
    let u := fedValue p r [v.extractLsb' 8 8, v.setWidth 8, w.extractLsb' 8 8, w.setWidth 8]
    evalCfw c f = .ok (.cvu { poly := some p, par := u, ser := u } 4) := by
  rw [evalCfw, stage2_wellFormed (resG_eq ..) wf rfl going, even, withRegs_two a b, a.val, b.val, halfBytes, halfBytes,
    feedUnit_eq unit, ← BitVec.setWidth_eq_extractLsb' (by decide), ← BitVec.setWidth_eq_extractLsb' (by decide)]
  rfl

theorem evalCrd_eq (wf : f.ok true false false false allTwo = true) (within : 16 * f.fn.toNat < (polyOf p).width) :
    evalCrd c f = .ok (.reg f.wd (r.extractLsb' (16 * f.fn.toNat) 16)) := by
  have part : ¬ cvuParts p ≤ f.fn.toNat := by have := (polyOf_width p).1; omega
  rw [evalCrd, stage2_wellFormed (resG_fn_eq ..) wf rfl going, unit]
  dsimp only
  rw [if_neg part, cvuPart_eq]
  exact if_pos (beq_self_eq_true r)

theorem evalCwr_eq {r' : Coded} (wf : f.ok false true false false allTwo = true)
    (within : 16 * f.fn.toNat < (polyOf p).width) (a : c.holds f.wa v)
    (bits : ∀ j, r'.getLsbD j = if j / 16 = f.fn.toNat then v.getLsbD (j % 16) else r.getLsbD j) :
    evalCwr c f = .ok (.cvu { poly := some p, par := r', ser := r' } 0) := by
  have part : ¬ cvuParts p ≤ f.fn.toNat := by have := (polyOf_width p).1; omega
  rw [evalCwr, stage2_wellFormed (resG_fn_eq ..) wf rfl going, withRegs_one a, unit, a.val]
  dsimp only
  rw [if_neg part, cvuWithPart_eq bits, cvuDone_eq]

/-- CCMP compares the final value with the one that its registers spell, and fails where V asks for it (R95, R96). -/
theorem evalCcmp_eq {e : Nat → Half} {b : Bool} (wf : f.ok true true false false [0, 1] = true)
    (room : f.wa.toNat + (polyOf p).width / 16 ≤ 16)
    (held : ∀ j, j < (polyOf p).width / 16 → c.holds (f.wa + BitVec.ofNat 4 j) (e j))
    (equal : b = true ↔ (r ^^^ (polyOf p).fin).toNat = partsValue e ((polyOf p).width / 16))
    (passes : f.fn = 0 ∨ b = true) : evalCcmp c f = .ok (.compare f.wd b (f.fn.getLsbD 0)) := by
  have expected := expectedValue_toNat held (polyOf_width p).2
  have same : ((r ^^^ (polyOf p).fin) == expectedValue c f.wa (cvuParts p)) = b := by
    rw [Bool.eq_iff_iff, equal, beq_iff_eq, ← BitVec.toNat_inj, cvuParts, expected]
  have all : min (cvuParts p) (16 - f.wa.toNat) = cvuParts p := by rw [cvuParts]; omega
  have met : (f.fn.getLsbD 0 && !b) = false := by rcases passes with h | h <;> simp [h]
  rw [evalCcmp, stage2_wellFormed (resG_compare_eq ..) wf rfl going, unit]
  dsimp only
  rw [all, withRegs_all fun r hr => ?_, decide_eq_false (by rw [cvuParts]; omega), same, met]
  · simp [failIf, Cvu.agree]
  · obtain ⟨j, below, rfl⟩ := mem_regRun hr
    exact ⟨e j, held j below⟩

end
end

/-- Settles O13: each instruction by what it does to the running value that both engines hold. -/
theorem checkValueResults : Obligations.CheckValueResults := by
  unfold Obligations.CheckValueResults
  intro s l x c f p r r' v w e b going
  refine ⟨fun wf runs => ?csel, fun unit => ⟨fun wf runs a byte => ?cfb, fun wf runs a => ?cfh, fun wf runs even a a' => ?cfw,
    fun wf runs within => ?crd, fun wf runs within a bits => ?cwr, fun wf runs room held equal passes => ?ccmp⟩⟩
  case csel => exact exec_cvu rfl runs (evalCsel_eq going wf)
  case cfb => exact exec_cvu rfl runs (evalCfb_eq going unit wf a byte)
  case cfh => exact exec_cvu rfl runs (evalCfh_eq going unit wf a)
  case cfw => exact exec_cvu rfl runs (evalCfw_eq going unit wf even a a')
  case crd => exact exec_reg rfl runs (evalCrd_eq going unit wf within)
  case cwr => exact exec_cvu rfl runs (evalCwr_eq going unit wf within a bits)
  case ccmp =>
    have counted : (!b && !f.fn.getLsbD 0) = !b := by rcases passes with h | h <;> simp [h]
    refine (exec_compare (i := .ccmp l x f) rfl runs (evalCcmp_eq going unit wf room held equal passes)).trans ?_
    rw [counted]

end Sys2Proof.Machine
end

section
/-!
PROOFS. END before a FIELD-OUT node whose window is longer than its buffer has keys (spec/03_coded_state.md R51;
spec/04_node_programs.md R89, R93, R97): O15 fails.

A half-word of a window is kept under the low byte of its number (`ctxKey`), so the half-words 0 and 256 of a window
of 257 have one key. An outbound memory not in canonical form lists that key twice, a good word before a bad one:
every half-word then reads as a value before END, and the rewrite of half-word 0 leaves the bad word for half-word 256.
-/
namespace Sys2Proof.Machine

/-- A cycle in which the coded word of value 0x4453 under key 0 in slot 0 is the zero word, which `Mem.set` unlists. -/
def zeroCycle : Cycle := 270548730752476

/-- A node entry of the given kind without references. -/
def wideEntry (kind : Byte) : NodeEntry :=
  { tag := 0, rval := 0, khc := kind, pstart := 0, plen := 1, aux := 0, crc := 0 }

/-- The entry of the node that END closes, under its own check value. -/
def endedEntry : NodeEntry := { wideEntry 0 with crc := entryCrc (wideEntry 0).body 0 }

/-- The word of END with its reserved field zero. -/
def endWord : BitVec 32 := wordE 0x3F { z := 0 }

/-- A window of 257 half-words. -/
def wideWindow : Window := { ck := 0, index := 0, off := 0, len := 4112 }

/-- An image of two nodes: one whose program is END alone, and a FIELD-OUT node with the wide window. -/
def wideImg : Image :=
  { parseImage 7 0 [] with
    nodes := [endedEntry, wideEntry 6]
    progs := [endWord ++ entryCrc (toLe 4 endWord.toNat) 0]
    channels := [{ stn := 0, dir := 0, bitOff := 0, bitLen := 4112, node := 1, crc := 0 }]
    restr := [{ bytes := [0x44, 0x53], crc := 0 }] }

/-- The coded value 0 under an outbound key in slot 0. -/
def zeroHalf (key : Nat) : Coded := encode 0 0 (sigKey outByte key) zeroCycle

/-- An outbound memory that lists key 0 twice, the second time with a word that no value has. -/
def twiceListed : Mem Coded :=
  (0, zeroHalf 0) :: (0, zeroHalf 0 + 1) :: (List.range' 1 255).map fun key => (key, zeroHalf key)

/-- A lane whose first seat is active and stands at END after the store of node 0. -/
def wideLane : Lane :=
  { Lane.init with
    boot := { Boot.init with inReset := false, alive := true, img := some wideImg }
    cyc := { CycState.init with num := zeroCycle, running := true }
    store := { Store.init with out := twiceListed }
    seats := Lane.init.seats.set 0
      { SeatState.init with code := 1, hand := some 0, node := some 0, stored := true } }

/-- The reset state with the lane above as lane A. -/
def wideState : State := { State.reset with la := wideLane }

/-- The evaluation of that seat. -/
def wideEval : Eval :=
  { lane := wideLane, slot := 0, n := zeroCycle, img := wideImg, i := 0, ent := endedEntry,
    seat := wideLane.seat 0, settle := false, p5 := false }

theorem wideState_runs : RunsEntry wideState .a 0 wideEval endWord where
  eval := rfl
  entry := by decide +kernel
  window := by decide +kernel
  fetch := by decide +kernel

/-- Every half-word of the next node's window reads as a value, half-word 256 by the good word of key 0. -/
theorem wideLane_windowReads : wideLane.windowReads wideImg (nextOf wideLane wideImg 0 false 1) := by
  have follows : nextOf wideLane wideImg 0 false 1 = some 1 := by decide +kernel
  have reads : (windowHalves wideWindow).all
      (fun k => (wideLane.outValueAt false (ctxKey 0 0 k) zeroCycle).isSome) = true := by decide +kernel
  intro j e w k next entry _ window touched
  obtain rfl : 1 = j := Option.some.inj (follows.symm.trans next)
  obtain rfl : wideEntry 6 = e := Option.some.inj entry
  obtain rfl : wideWindow = w := Option.some.inj window
  exact List.all_eq_true.mp reads k touched

/-- END there meets the bad word of key 0 once, a failure at the check unit. -/
theorem wideState_codeFails :
    (match exec (.fin .a 0 { z := 0 }) wideState with | .next t => t.la.codes.cuFail | _ => 0) = 1 := by
  decide +kernel

/-- Refutes O15: in a window longer than 256 half-words two have one key (R51, R89), and where the outbound memory
lists that key twice, END can meet a failing word behind one that reads as a value, and records the failure. -/
theorem not_nodeEndsAndSeatFaults : ¬ Obligations.NodeEndsAndSeatFaults := by
  unfold Obligations.NodeEndsAndSeatFaults
  rintro ⟨ends, -⟩
  obtain ⟨t, runs, -, -, -, -, -, -, -, -, -, -, codes, -⟩ :=
    ends wideState .a 0 wideEval { z := 0 } 0 rfl wideState_runs rfl rfl rfl
  have fails := wideState_codeFails
  rw [runs] at fails
  have kept : t.la.codes.cuFail = 0 := congrArg Codes.cuFail (codes wideLane_windowReads)
  exact absurd (kept.symm.trans fails) (by decide)

end Sys2Proof.Machine
end

section
/-!
PROOFS. Check-value units (spec/06_check_value_units.md R123, R124, R126): O4.
-/
namespace Sys2Proof.Machine

/-! ## Running values keep to the width of their polynomial -/

/-- A width of R123 holds a byte, and neither the generator nor the mask has a bit beyond it. -/
theorem polyOf_fits : ∀ fn : BitVec 2, let p := polyOf fn
    8 ≤ p.width ∧ p.gen.toNat < 2 ^ p.width ∧ (maskOf p.width).toNat < 2 ^ p.width := by decide

theorem xor_toNat_lt {a b : Coded} {w : Nat} (ha : a.toNat < 2 ^ w) (hb : b.toNat < 2 ^ w) : (a ^^^ b).toNat < 2 ^ w := by
  rw [BitVec.toNat_xor]
  exact Nat.xor_lt_two_pow ha hb

theorem byte_toNat_lt (b : Byte) {w : Nat} (wide : 8 ≤ w) : (b.setWidth 64 : Coded).toNat < 2 ^ w :=
  calc (b.setWidth 64 : Coded).toNat
    _ ≤ b.toNat := by rw [BitVec.toNat_setWidth]; exact Nat.mod_le ..
    _ < 2 ^ 8 := b.isLt
    _ ≤ 2 ^ w := Nat.pow_le_pow_right (by decide) wide

/-- A byte taken in at the top of the running value (R124). -/
theorem topByte_toNat_lt (b : Byte) {w : Nat} (wide : 8 ≤ w) : (b.setWidth 64 <<< (w - 8) : Coded).toNat < 2 ^ w :=
  calc (b.setWidth 64 <<< (w - 8) : Coded).toNat
    _ ≤ (b.setWidth 64 : Coded).toNat * 2 ^ (w - 8) := by
      rw [BitVec.toNat_shiftLeft, Nat.shiftLeft_eq]; exact Nat.mod_le ..
    _ < 2 ^ 8 * 2 ^ (w - 8) := Nat.mul_lt_mul_of_pos_right (byte_toNat_lt b le_rfl) (Nat.two_pow_pos _)
    _ = 2 ^ w := by rw [← Nat.pow_add, Nat.add_sub_cancel' wide]

section
variable (fn : BitVec 2) {r : Coded} (within : r.toNat < 2 ^ (polyOf fn).width)
include within

/-- A reflected shift moves bits down only, and the other is masked (R124). -/
theorem polyShift_toNat_lt : (polyShift (polyOf fn) r).toNat < 2 ^ (polyOf fn).width := by
  obtain ⟨-, gen, mask⟩ := polyOf_fits fn
  have down : (r >>> 1).toNat < 2 ^ (polyOf fn).width := by
    rw [BitVec.toNat_ushiftRight]
    exact (Nat.shiftRight_le ..).trans_lt within
  have masked (x : Coded) : (x &&& maskOf (polyOf fn).width).toNat < 2 ^ (polyOf fn).width := by
    rw [BitVec.toNat_and]
    exact Nat.and_lt_two_pow _ mask
  unfold polyShift
  split_ifs
  · exact xor_toNat_lt down gen
  · exact down
  · exact masked _
  · exact masked _

theorem polyShifts_toNat_lt (n : Nat) : (polyShifts (polyOf fn) n r).toNat < 2 ^ (polyOf fn).width := by
  induction n generalizing r with
  | zero => exact within
  | succ n ih => exact ih (polyShift_toNat_lt fn within)

theorem polyByte_toNat_lt (b : Byte) : (polyByte (polyOf fn) r b).toNat < 2 ^ (polyOf fn).width := by
  obtain ⟨wide, -⟩ := polyOf_fits fn
  unfold polyByte
  split_ifs
  · exact polyShifts_toNat_lt fn (xor_toNat_lt within (byte_toNat_lt b wide)) 8
  · exact polyShifts_toNat_lt fn (xor_toNat_lt within (topByte_toNat_lt b wide)) 8

theorem polyBytes_toNat_lt (bs : List Byte) : (polyBytes (polyOf fn) r bs).toNat < 2 ^ (polyOf fn).width := by
  induction bs generalizing r with
  | nil => exact within
  | cons b bs ih =>
    rw [polyBytes_cons]
    exact ih (polyByte_toNat_lt fn within b)

end

/-- Settles O4: the two engines take each byte alike and no byte takes a running value beyond its width; each row of R123
is a computation. -/
theorem checkValueUnits : Obligations.CheckValueUnits := by
  unfold Obligations.CheckValueUnits
  refine ⟨fun fn r bs within => ⟨foldl_polyNibbles fn r bs, polyBytes_toNat_lt fn within bs⟩, ?_, ?_, ?_, ?_⟩
  all_goals exact ⟨rfl, rfl, rfl, rfl, by decide, by decide⟩

end Sys2Proof.Machine
end

section
/-!
PROOFS. O33: the presence contact of the data key, start marks and link probes (spec/07_data_key.md R134, R152;
spec/02_the_cycle.md R40; spec/01_lanes_and_seats.md R13).
-/
namespace Sys2Proof.Machine

/-! ## Every lane and some lane -/

/-- The module is unarmed when no lane is armed (R134). -/
theorem State.unarmed_iff {s : State} : s.unarmed = true ↔ ∀ x, (s.lane x).mode.armed = false := by
  simp only [State.unarmed, Bool.and_eq_true, Bool.not_eq_true']
  exact ⟨fun ⟨⟨a, b⟩, c⟩ x => by cases x <;> assumption, fun h => ⟨⟨h .a, h .b⟩, h .c⟩⟩

theorem mem_laneList (x : LaneId) : x ∈ laneList := by cases x <;> simp [laneList]

/-- What holds of the lanes in order holds of every lane. -/
theorem laneList_all {p : LaneId → Bool} : laneList.all p = true ↔ ∀ x, p x = true :=
  List.all_eq_true.trans ⟨fun h x => h x (mem_laneList x), fun h x _ => h x⟩

theorem laneList_any {p : LaneId → Bool} : laneList.any p = true ↔ ∃ x, p x = true :=
  List.any_eq_true.trans ⟨fun ⟨x, _, hx⟩ => ⟨x, hx⟩, fun ⟨x, hx⟩ => ⟨x, mem_laneList x, hx⟩⟩

/-! ## The presence contact -/

/-- Counting a move of the contact leaves the mode of every lane and whether START has stopped there (R134, R161). -/
theorem State.presence_fields (s : State) (l x : LaneId) (closed : Bool) :
    let t := s.begin.modLane l fun m => m.presence closed
    (t.lane x).mode = (s.lane x).mode ∧ (t.lane x).boot.stopped = (s.lane x).boot.stopped := by
  by_cases h : x = l
  · subst h
    simp [Lane.presence]
  · simp [State.modLane_lane_other _ _ h]

/-- An opened contact stops START where no lane is armed and every mode is that of START, and is only counted elsewhere (R134). -/
theorem exec_keyPresenceOpen (s : State) (l : LaneId) :
    let u := s.begin.modLane l fun m => m.presence false
    ((∀ x, (s.lane x).mode.armed = false ∧ (s.lane x).mode.mode = 0) →
      exec (.keyPresenceOpen l) s = .next (u.mapLanes fun _ m => if m.live then m.stopStart 0x10 0 else m)) ∧
    ((¬ ∀ x, (s.lane x).mode.armed = false ∧ (s.lane x).mode.mode = 0) → exec (.keyPresenceOpen l) s = .next u) := by
  intro u
  have inStart : (u.unarmed && laneList.all fun x => (u.lane x).mode.mode == 0) = true ↔
      ∀ x, (s.lane x).mode.armed = false ∧ (s.lane x).mode.mode = 0 := by
    simp only [Bool.and_eq_true, State.unarmed_iff, laneList_all, beq_iff_eq, forall_and, u, (State.presence_fields ..).1]
  exact ⟨fun h => if_pos (inStart.mpr h), fun h => if_neg (inStart.not.mpr h)⟩

/-- A closed contact asks for the repeat where no lane is armed and START has stopped in one, and is only counted elsewhere
(R134). -/
theorem exec_keyPresenceClose (s : State) (l : LaneId) :
    let u := s.begin.modLane l fun m => m.presence true
    ((∀ x, (s.lane x).mode.armed = false) → (∃ x, (s.lane x).boot.stopped = true) →
      exec (.keyPresenceClose l) s = .next { u with keyWait := true }) ∧
    ((∃ x, (s.lane x).mode.armed = true) → exec (.keyPresenceClose l) s = .next u) := by
  intro u
  have repeats : (u.unarmed && laneList.any fun x => (u.lane x).boot.stopped) = true ↔
      (∀ x, (s.lane x).mode.armed = false) ∧ ∃ x, (s.lane x).boot.stopped = true := by
    simp only [Bool.and_eq_true, State.unarmed_iff, laneList_any, u, (State.presence_fields ..).1, (State.presence_fields ..).2]
  refine ⟨fun unarmed stopped => if_pos (repeats.mpr ⟨unarmed, stopped⟩), fun ⟨x, armed⟩ => if_neg fun h => ?_⟩
  simp [(repeats.mp h).1 x] at armed

/-! ## Link probes -/

/-- A live lane numbers its probe and sends it to the peer (R40). -/
theorem exec_linkProbe {s : State} {l y : LaneId} (live : (s.lane l).live = true) (other : y ≠ l) (num : Word) :
    exec (.linkProbe l y num) s = .next ((s.begin.setLane l { s.lane l with align := { (s.lane l).align with
      probes := (s.lane l).align.probes.put y (some num) } }).xsend l y (.probe num)) := by
  simp [exec, execLinkProbe, State.modLane, live, other.symm]

/-- A live lane returns a probe at once with its turnaround (R40). -/
theorem exec_linkProbeRx_asked {s : State} {l y : LaneId} (live : (s.lane l).live = true) (other : y ≠ l) (num : Word)
    (trip turn : Nat) :
    exec (.linkProbeRx l y num false trip turn) s = .next (s.begin.xsend l y (.probeBack num turn)) := by
  simp [exec, execLinkProbeRx, live, other.symm]

/-- The return of the probe last sent gives the latency of the link (R40; log entry 82). -/
theorem exec_linkProbeRx_returned {s : State} {l y : LaneId} (live : (s.lane l).live = true) (other : y ≠ l) {num : Word}
    (sent : (s.lane l).align.probes.get y = some num) (trip turn : Nat) :
    exec (.linkProbeRx l y num true trip turn) s = .next (s.begin.setLane l { s.lane l with align := { (s.lane l).align with
      lat := (s.lane l).align.lat.put y ((trip - turn) / 2), probes := (s.lane l).align.probes.put y none } }) := by
  simp [exec, execLinkProbeRx, live, other.symm, sent]

/-- Settles O33: the contact, the marks and the probes, from the rule of each. -/
theorem keysMarksAndProbes : Obligations.KeysMarksAndProbes := by
  unfold Obligations.KeysMarksAndProbes
  refine ⟨fun s l => ?_, fun s l y num trip turn => ?_⟩
  · obtain ⟨stops, counts⟩ := exec_keyPresenceOpen s l
    obtain ⟨asks, counts'⟩ := exec_keyPresenceClose s l
    exact ⟨stops, counts, asks, counts'⟩
  · refine ⟨?_, fun live other => ⟨exec_linkProbe live other num, exec_linkProbeRx_asked live other num trip turn,
      fun sent => exec_linkProbeRx_returned live other sent trip turn⟩⟩
    simp [exec, execStartMarkRx, State.modLane]

end Sys2Proof.Machine
end

section
/-!
PROOFS. O50: the frames of the partner link that carry snapshots, HEALTH and DOZE records, and the heartbeats of stage 5
(spec/11_partner_and_failover.md R241, R242, R250, R251, R259; spec/07_data_key.md R158; spec/15_clocks.md R333).
-/
namespace Sys2Proof.Machine

/-- A link that is not down in the lane is up there (R333). -/
theorem Lane.linkUp_eq_true {m : Lane} : m.linkUp = true ↔ m.meter.portDown.getLsbD 8 = false := by
  rw [Lane.linkUp, Bool.not_eq_true']

/-! ## Frames that are not taken -/

/-- A command that leaves its lane as it is changes nothing. -/
theorem State.modLane_of_eq {s : State} {l : LaneId} {f : Lane → Lane} (h : f (s.lane l) = s.lane l) :
    s.begin.modLane l f = s.begin := by
  rw [State.modLane, State.begin_lane, h, ← State.begin_lane, State.setLane_self]

/-- The frames of a transfer, of HEALTH and of DOZE_SNAP leave the module as it is where the frame fails its check or the
partner link is down in the lane (R239, R333; log entry 88). -/
theorem exec_partnerFrames_ignored {s : State} {l : LaneId} {crcOk : Bool} (h : crcOk = false ∨ (s.lane l).linkUp = false)
    (last : Bool) (seg b : SnapBase) (d : SnapDelta) (e : SnapEnd) (bytes : List Byte) (dig : BitVec 256) :
    exec (.snapBaseRx l crcOk last seg) s = .next s.begin ∧ exec (.snapDeltaRx l crcOk d) s = .next s.begin ∧
      exec (.snapEndRx l crcOk e) s = .next s.begin ∧ exec (.healthRx l crcOk bytes) s = .next s.begin ∧
      exec (.dozeSnapRx l crcOk b dig) s = .next s.begin := by
  have lost : (crcOk && (s.lane l).linkUp) = false := Bool.and_eq_false_iff.mpr h
  have stands {f : Lane → Lane} (h : f (s.lane l) = s.lane l) : (.next (s.begin.modLane l f) : Answer) = .next s.begin :=
    congrArg _ (State.modLane_of_eq h)
  exact ⟨stands (by simp [lost]), stands (by simp [lost]), stands (by split <;> simp [lost]), stands (by simp [lost]),
    stands (by simp [lost])⟩

/-! ## A base and its deltas -/

/-- The first segment of a base starts it afresh: none is held, or that of another base or of one that is complete (R242). -/
theorem Reentry.takeSegment_first {r : Reentry} {seg : SnapBase}
    (h : ∀ b, r.base = some b → b.cyc ≠ seg.cyc ∨ r.since.isSome = true) (last : Bool) :
    r.takeSegment last seg = { r with
      base := some seg, baseOk := false, deltas := [], since := if last then some seg.cyc else none } := by
  unfold Reentry.takeSegment
  cases hb : r.base with
  | none => rfl
  | some b =>
    have new : (decide (b.cyc = seg.cyc) && r.since.isNone) = false := by
      rcases h b hb with h | h
      · simp [h]
      · simp [Option.isNone_eq_false_iff, h]
    simp [new]

/-- A later segment of the base held is joined to it (R242). -/
theorem Reentry.takeSegment_next {r : Reentry} {b seg : SnapBase} (base : r.base = some b) (same : b.cyc = seg.cyc)
    (more : r.since = none) (last : Bool) :
    r.takeSegment last seg = { r with
      base := some (joinBase b seg), since := if last then some seg.cyc else none } := by
  simp [Reentry.takeSegment, base, same, more]

section
variable {s : State} {l : LaneId}

/-- A lane that wants a base takes a segment of one (R242). -/
theorem exec_snapBaseRx (up : (s.lane l).linkUp = true) (wants : (s.lane l).wantsBase l = true) (last : Bool) (seg : SnapBase) :
    exec (.snapBaseRx l true last seg) s =
      .next (s.begin.setLane l { s.lane l with re := (s.lane l).re.takeSegment last seg }) := by
  simp [exec, execSnapBaseRx, State.modLane, up, wants]

/-- It takes the deltas that follow a base (R242). -/
theorem exec_snapDeltaRx (up : (s.lane l).linkUp = true) (wants : (s.lane l).wantsBase l = true)
    (base : (s.lane l).re.base.isSome = true) (d : SnapDelta) :
    exec (.snapDeltaRx l true d) s = .next (s.begin.setLane l { s.lane l with
      re := { (s.lane l).re with deltas := (s.lane l).re.deltas ++ [d] } }) := by
  simp [exec, execSnapDeltaRx, State.modLane, up, wants, base]

/-- A tagged SNAP_END after a complete base accepts it when the digest is that of the base, and changes nothing else (R242). -/
theorem exec_snapEndRx (up : (s.lane l).linkUp = true) (wants : (s.lane l).wantsBase l = true) {img : Image} {b : SnapBase}
    {e : SnapEnd} (image : (s.lane l).boot.img = some img) (base : (s.lane l).re.base = some b)
    (complete : (s.lane l).re.since = some b.cyc) (tagged : (s.lane l).endTrue img e = true) :
    exec (.snapEndRx l true e) s = .next (if Config.baseDigest b = e.digest then s.begin.setLane l { s.lane l with
      re := { (s.lane l).re with baseOk := true }
      fail := { (s.lane l).fail with snapAge := 0 } } else s.begin) := by
  have taken : exec (.snapEndRx l true e) s = .next (s.begin.setLane l
      (if Config.baseDigest b = e.digest then { s.lane l with
        re := { (s.lane l).re with baseOk := true }
        fail := { (s.lane l).fail with snapAge := 0 } } else s.lane l)) := by
    simp [exec, execSnapEndRx, State.modLane, up, wants, image, base, complete, tagged]
  rw [taken]
  split
  · rfl
  · rw [← State.begin_lane, State.setLane_self]

/-! ## HEALTH and DOZE_SNAP -/

/-- The active holds a HEALTH record of 80 bytes (R251). -/
theorem exec_healthRx (up : (s.lane l).linkUp = true) (live : (s.lane l).live = true) (armed : (s.lane l).mode.armed = true)
    (role : (s.lane l).ptn.role = 0) {bytes : List Byte} (len : bytes.length = 80) :
    exec (.healthRx l true bytes) s =
      .next (s.begin.setLane l { s.lane l with fail := { (s.lane l).fail with hlt := bytes } }) := by
  simp [exec, execHealthRx, State.modLane, up, live, Lane.active, armed, role, len]

/-- A lane in DOZE with no wake ordered keeps a state whose digest verifies (R250, R259). -/
theorem exec_dozeSnapRx (up : (s.lane l).linkUp = true) (live : (s.lane l).live = true) (armed : (s.lane l).mode.armed = true)
    (role : (s.lane l).ptn.role = 3) (doze : (s.lane l).pwr.mode = 2) (asleep : (s.lane l).pwr.wakeDue = false) (b : SnapBase) :
    exec (.dozeSnapRx l true b (Config.baseDigest b)) s = .next (s.begin.setLane l { s.lane l with
      fail := { (s.lane l).fail with doze := some b, snapAge := 0 } }) := by
  simp [exec, execDozeSnapRx, State.modLane, up, live, armed, role, doze, asleep]

end

/-! ## Stage 5 -/

/-- What a lane that waits at stage 5 with a partner does of a heartbeat: it judges the silence and forms its bytes (R158, R241;
log entry 30). -/
def Lane.stage5Beat (m : Lane) : Lane :=
  match m.boot.img with
  | none => m
  | some img =>
    if m.waits && m.hasPartner then
      { m.stage5Silence with ptn := { m.stage5Silence.ptn with hbHead := m.stage5Silence.heartbeatHead img } }
    else m

/-- Every lane counts its silence, and the heartbeats of two that agree are all that leaves (R241). -/
theorem exec_stage5Heartbeat (s : State) :
    ∃ t, exec .stage5Heartbeat s = .next t ∧ OnlySends (s.begin.mapLanes fun _ m => m.stage5Beat) t := by
  let u := s.begin.mapLanes fun _ m => m.stage5Beat
  have step : exec .stage5Heartbeat s =
      match u.hbPair fun y => (u.lane y).waits && (u.lane y).hasPartner with
      | none => .next u
      | some p => match (u.lane p.1).boot.img with
        | none => .next u
        | some img => .next (u.sendHeartbeat img p) := rfl
  rw [step]
  split
  · exact ⟨u, rfl, .refl u⟩
  · split
    · exact ⟨u, rfl, .refl u⟩
    · exact ⟨_, rfl, State.Follows.sendHeartbeat_sends ..⟩

/-- Settles O50: what each frame leaves in its lane, from the rule of each, and the beat of stage 5. -/
theorem partnerFrames : Obligations.PartnerFrames := by
  unfold Obligations.PartnerFrames
  intro s l last seg b d e img bytes dig
  dsimp only
  rw [← Lane.linkUp_eq_true]
  refine ⟨fun up wants => ⟨?fresh, ?joined, ?other, ?delta, ?close⟩, ?health, ?doze, fun down => ?down,
    exec_partnerFrames_ignored (.inl rfl) last seg b d e bytes dig, exec_stage5Heartbeat s⟩
  case fresh =>
    intro base
    rw [exec_snapBaseRx up wants, Reentry.takeSegment_first (by simp [base])]
  case joined =>
    intro base same more
    rw [exec_snapBaseRx up wants, Reentry.takeSegment_next base same more]
  case other =>
    intro base new
    rw [exec_snapBaseRx up wants, Reentry.takeSegment_first (fun c hc => Option.some.inj (base.symm.trans hc) ▸ new)]
  case delta => exact fun base => exec_snapDeltaRx up wants base d
  case close =>
    intro image base complete tagged
    rw [exec_snapEndRx up wants image base complete tagged]
    exact ⟨fun same => by rw [if_pos same], fun differs => by rw [if_neg differs]⟩
  case health => exact fun up live armed role len => exec_healthRx up live armed role len
  case doze =>
    rintro up live armed role doze asleep rfl
    exact exec_dozeSnapRx up live armed role doze asleep b
  case down => exact exec_partnerFrames_ignored (.inr (Bool.eq_false_iff.mpr down)) last seg b d e bytes dig

end Sys2Proof.Machine
end

section
/-!
PROOFS. O27: an arming that passes in every lane (spec/07_data_key.md R155 to R158; spec/12_cluster_and_host.md R282;
spec/14_keys_and_trust.md R321; spec/16_supplies_and_power.md R347).
-/
namespace Sys2Proof.Machine

/-- Sets of lanes are given by their members. -/
theorem LaneSet.eq_of_has {u v : LaneSet} (h : ∀ x, u.has x = v.has x) : u = v := by
  obtain ⟨a, b, c⟩ := u
  obtain ⟨a', b', c'⟩ := v
  exact (LaneSet.mk.injEq ..).mpr ⟨h .a, h .b, h .c⟩

/-- A set with a member is not empty. -/
theorem LaneSet.count_ne_zero {v : LaneSet} {x : LaneId} (h : v.has x = true) : v.count ≠ 0 := by
  cases x <;> simp only [LaneSet.has] at h <;> simp [LaneSet.count, h]

/-! ## Routes and response lanes -/

/-- What the transmit lanes of the ports rest on in a lane (R18, R326). -/
structure Lane.Standing where
  tx      : List (Port × LaneId)
  armed   : Bool
  mode    : BitVec 3
  alive   : Bool
  inReset : Bool
  img     : Option Image

/-- How the lane stands in its module. -/
def Lane.standing (l : Lane) : Lane.Standing :=
  { tx := l.tx, armed := l.mode.armed, mode := l.mode.mode, alive := l.boot.alive, inReset := l.boot.inReset, img := l.boot.img }

/-- `t` is `s` after what leaves the links, the sessions and the transmit lanes, and takes back nothing that was sent. -/
structure State.SameRoutes (s t : State) : Prop where
  links : t.links = s.links
  sessions : t.sessions = s.sessions
  lanes : ∀ x, (t.lane x).standing = (s.lane x).standing
  sent : ∀ o ∈ s.out, o ∈ t.out

namespace State.SameRoutes

variable {s t u : State}

theorem refl (s : State) : SameRoutes s s := ⟨rfl, rfl, fun _ => rfl, fun _ => id⟩

theorem trans (h : SameRoutes s t) (i : SameRoutes t u) : SameRoutes s u :=
  ⟨i.links.trans h.links, i.sessions.trans h.sessions, fun x => (i.lanes x).trans (h.lanes x),
    fun o ho => i.sent o (h.sent o ho)⟩

/-- The start of a step takes back what was sent and nothing else. -/
theorem of_begin (s : State) : SameRoutes s.begin s := ⟨rfl, rfl, fun x => by rw [State.begin_lane], by simp⟩

theorem of_sends (h : OnlySends s t) : SameRoutes s t :=
  ⟨h.links_eq, h.sessions_eq, fun x => by rw [h.lanes x]; rfl, fun _ => h.mem⟩

theorem modLane (s : State) (x : LaneId) {f : Lane → Lane} (h : (f (s.lane x)).standing = (s.lane x).standing) :
    SameRoutes s (s.modLane x f) := by
  refine ⟨by simp, by simp, fun y => ?_, by simp⟩
  by_cases e : y = x
  · subst e
    rw [State.modLane_lane_same, h]
  · rw [State.modLane_lane_other _ _ e]

theorem modLanes (s : State) (v : LaneSet) {f : LaneId → Lane → Lane}
    (h : ∀ x, (f x (s.lane x)).standing = (s.lane x).standing) :
    SameRoutes s (s.modLanes v f) :=
  ⟨rfl, rfl, fun x => by rw [State.modLanes_lane]; split <;> simp [h], fun _ => id⟩

theorem img (h : SameRoutes s t) (x : LaneId) : (t.lane x).boot.img = (s.lane x).boot.img :=
  congrArg (·.img) (h.lanes x)

theorem session (h : SameRoutes s t) (n : Nat) : t.session n = s.session n := by rw [State.session, h.sessions]; rfl

/-- The response lane of a session is the same (R381). -/
theorem respLane (h : SameRoutes s t) (k : Session) : t.respLane k = s.respLane k := by
  have tx : ∀ x p, (t.lane x).txOf p = (s.lane x).txOf p := fun x p => by
    rw [Lane.txOf, show (t.lane x).tx = (s.lane x).tx from congrArg (·.tx) (h.lanes x)]
    rfl
  have armed : ∀ x, (t.lane x).mode.armed = (s.lane x).mode.armed := fun x => congrArg (·.armed) (h.lanes x)
  have mode : ∀ x, (t.lane x).mode.mode = (s.lane x).mode.mode := fun x => congrArg (·.mode) (h.lanes x)
  have alive : ∀ x, (t.lane x).boot.alive = (s.lane x).boot.alive := fun x => congrArg (·.alive) (h.lanes x)
  have inReset : ∀ x, (t.lane x).boot.inReset = (s.lane x).boot.inReset := fun x => congrArg (·.inReset) (h.lanes x)
  have live : ∀ x, (t.lane x).live = (s.lane x).live := fun x => by simp only [Lane.live, alive, armed, inReset]
  have bounded : t.hasBoundaries = s.hasBoundaries := by simp only [State.hasBoundaries, armed, mode]
  simp only [State.respLane, State.txLane, tx, live, h.img, bounded]

/-- What one of several such steps sends has left after all of them. -/
theorem foldl_mem {α : Type} {op : State → α → State} (step : ∀ t a, SameRoutes s t → SameRoutes t (op t a))
    {as : List α} {a : α} (ha : a ∈ as) {o : Out} (sends : ∀ t, SameRoutes s t → o ∈ (op t a).out) : o ∈ (as.foldl op s).out := by
  have run (bs : List α) (t : State) (h : SameRoutes s t) : SameRoutes t (bs.foldl op t) := by
    induction bs generalizing t with
    | nil => exact refl t
    | cons b bs ih => exact (step t b h).trans (ih _ (h.trans (step t b h)))
  obtain ⟨before, after, rfl⟩ := List.append_of_mem ha
  rw [List.foldl_append, List.foldl_cons]
  have first := run before s (refl s)
  exact (run after _ (first.trans (step _ a first))).sent o (sends _ first)

end State.SameRoutes

/-- The answer of the response lane is sent (R279, R381). -/
theorem State.answer_mem {s : State} {x : LaneId} {sess : Nat} {k : Session} (found : s.session sess = some k)
    (resp : s.respLane k = some x) (req : Word) (obj : Byte) (v : Verdict) :
    .shp sess req obj v.status v.body ∈ (s.answer x sess req obj v).out := by
  simpa [State.answer, found, resp] using State.reply_mem ..

/-! ## What sending leaves of several lanes -/

/-- Lanes that change one after the other, each with what it sends, leave what their changes leave. -/
theorem OnlySends.foldLanes {s : State} {v : LaneSet} {f : State → LaneId → State} {g : LaneId → Lane → Lane}
    (hg : ∀ x (m : Lane) q, g x { m with ring := { m.ring with seq := q } } =
      { g x m with ring := { (g x m).ring with seq := (g x { m with ring := { m.ring with seq := q } }).ring.seq } })
    (h : ∀ t x, v.has x = true → t.lane x = { s.lane x with ring := { (s.lane x).ring with seq := (t.lane x).ring.seq } } →
      OnlySends (t.modLane x (g x)) (f t x)) :
    OnlySends (s.modLanes v g) (laneList.foldl (fun t x => if v.has x then f t x else t) s) := by
  have step : ∀ u t x, OnlySends u t → u.lane x = s.lane x →
      OnlySends (if v.has x then u.modLane x (g x) else u) (if v.has x then f t x else t) := by
    intro u t x ut e
    have lx := ut.lanes x
    rw [e] at lx
    split
    · next hx => exact (ut.modLane x (hg x)).trans (h t x hx lx)
    · exact ut
  rw [State.modLanes_eq]
  exact step _ _ .c (step _ _ .b (step s s .a (.refl s) rfl) (by split <;> rfl)) (by split <;> split <;> rfl)

/-- A change of every lane that leaves the ring alone goes with what was sent. -/
theorem OnlySends.mapLanes {u t : State} (h : OnlySends u t) {f : Lane → Lane}
    (hf : ∀ (m : Lane) q, f { m with ring := { m.ring with seq := q } } =
      { f m with ring := { (f m).ring with seq := (f { m with ring := { m.ring with seq := q } }).ring.seq } }) :
    OnlySends (u.mapLanes fun _ => f) (t.mapLanes fun _ => f) where
  sent := h.sent
  rest := by rw [h.rest]; rfl
  lanes x := by
    rw [State.mapLanes_lane, State.mapLanes_lane, h.lanes x]
    exact hf _ _

/-! ## The confirm -/

/-- The lane once the challenge of `p` is confirmed (R282). -/
def Lane.confirms (l : Lane) (p : Prepared) : Lane := { l with host := { l.host with prepared := confirmedList l p } }

/-- A confirm that passes steps 1 to 4 confirms its challenge (R282). -/
theorem ConfirmPasses.checkConfirm {l : Lane} {m : ConfirmMsg} {p : Prepared} (h : ConfirmPasses l m p) :
    l.checkConfirm m = (l.confirms p, .ok p) := by
  obtain ⟨key, held, mac⟩ := h.tag
  have cmacOk : l.cmacOk p m = true := by simp only [Lane.cmacOk, held, mac, beq_self_eq_true]
  simp [Lane.checkConfirm, h.held, h.waits, h.unlocked, cmacOk, Lane.confirms, confirmedList]

section
variable {s : State} {m : ConfirmMsg} {k : Session} {p : Prepared}

@[simp] theorem obeying_begin (s : State) (k : Session) (lanes : LaneSet) : obeying s.begin k lanes = obeying s k lanes := by
  simp [obeying]

/-- A lane that acts on a command takes part (R326). -/
theorem live_of_obeying {lanes : LaneSet} {x : LaneId} (h : (obeying s k lanes).has x = true) : (s.lane x).live = true := by
  simp only [obeying_has, State.obeys, Bool.and_eq_true] at h
  obtain ⟨-, ⟨⟨-, live⟩, -⟩, -⟩ := h
  exact live

/-- The lanes that verify an arming are those that act, where it passes in each of them (R155, R282). -/
theorem State.armsIn_of_passes (op : p.op = 4)
    (passes : ∀ x, (obeying s k m.lanes).has x = true → ConfirmPasses (s.lane x) m p) : s.armsIn k m = obeying s k m.lanes := by
  refine LaneSet.eq_of_has fun x => ?_
  rw [State.armsIn, LaneSet.those_has, obeying_has]
  cases acts : m.lanes.has x && s.obeys k x with
  | false => simp
  | true =>
    rw [← obeying_has] at acts
    simp [(passes x acts).checkConfirm, op]

/-- The arming check runs over the lanes that act, each with its challenge confirmed (R155, R282; log entry 12). -/
theorem exec_arming (session : s.session m.sess = some k) (general : k.comm = false) (named : s.confirmed m = some p)
    (op : p.op = 4) (someone : ∃ x, (obeying s k m.lanes).has x = true)
    (passes : ∀ x, (obeying s k m.lanes).has x = true → ConfirmPasses (s.lane x) m p) :
    exec (.arming m) s =
      .next ((s.begin.modLanes (obeying s k m.lanes) fun _ l => l.confirms p).arm (obeying s k m.lanes) m p) := by
  have session' : s.begin.session m.sess = some k := session
  have named' : s.begin.confirmed m = some p := by simpa [State.confirmed] using named
  have arms : s.begin.armsIn k m = obeying s k m.lanes := by
    rw [State.armsIn_of_passes op (by simpa using passes), obeying_begin]
  have each : (s.begin.inLanes k m.lanes fun t x => t.confirmLane k m x) =
      s.begin.modLanes (obeying s k m.lanes) fun _ l => l.confirms p := by
    rw [State.inLanes_modLanes (g := fun _ l => l.confirms p), obeying_begin]
    intro t x acts same
    rw [obeying_begin] at acts
    rw [State.begin_lane] at same
    simp [State.confirmLane, same, (passes x acts).checkConfirm, op, areaScope, State.modLane]
  have count : (obeying s k m.lanes).count ≠ 0 := by
    obtain ⟨x, hx⟩ := someone
    exact LaneSet.count_ne_zero hx
  show Host.Outcome.next (s.begin.confirmOf 4 m) = _
  simp [State.confirmOf, State.confirm, State.serve, Session.general, named', op, session', general, arms, each, count]

end

/-! ## The arming of a lane -/

/-- The floor rises to the generation where it is below (R157). -/
theorem Lane.raiseFloor_eq (l : Lane) (gen : Word) : l.raiseFloor gen =
    { l with nv := { l.nv with genFloor := if l.nv.genFloor.toNat < gen.toNat then gen else l.nv.genFloor } } := by
  unfold Lane.raiseFloor
  split <;> rfl

/-- The lane that takes a role in service with the lanes `v`: its reason code is clear and the vote opens among these lanes
(R155, R158, R206, R347). -/
def Lane.takesRole (l : Lane) (img : Image) (role : BitVec 4) (v : LaneSet) : Lane := { l with
  boot := { l.boot with code := 0, index := 0 }
  mode := { l.mode with accepted := true, takes := role, marks := noLanes }
  vote := { Vote.init with
    service := v
    codes := { a := if v.a then 1 else 0, b := if v.b then 1 else 0, c := if v.c then 1 else 0 } }
  pwr := { l.pwr with admitOps := admitPoints img.hdr } }

/-- The lane whose floor has risen to a generation and whose test port is closed (R157, R321). -/
def Lane.raised (l : Lane) (gen : Word) : Lane := { l with
  nv := { l.nv with genFloor := if l.nv.genFloor.toNat < gen.toNat then gen else l.nv.genFloor }
  sec := { l.sec with tap := false } }

/-- The lane that accepts an arming with a role among the lanes `v`, and records the confirm (R155, R157, R286). -/
def Lane.arms (l : Lane) (img : Image) (role : BitVec 4) (v : LaneSet) (p : Prepared) : Lane :=
  { (l.takesRole img role v).raised img.hdr.gen with host := l.host.noteConfirm p.op p.wsId Verdict.ok }

/-- What an accepted arming and its record leave is the lane that arms (R155, R286). -/
theorem Lane.acceptArming_noteConfirm (l : Lane) (img : Image) (v : LaneSet) (p : Prepared) :
    let k := l.acceptArming img v
    { k with host := k.host.noteConfirm p.op p.wsId Verdict.ok } = l.arms img (l.armRole img) v p := by
  simp only [Lane.acceptArming, Lane.raiseFloor_eq]
  rfl

/-- An arming that goes settles in its lane, marks the start and is answered with status 0 (R155, R156). -/
theorem State.armLane_go {t : State} {v : LaneSet} {x : LaneId} {img : Image} (pass : v.has x = true)
    (image : (t.lane x).boot.img = some img) (enough : img.params.minLanes.toNat ≤ v.count) (m : ConfirmMsg) (p : Prepared) :
    t.armLane v false (0, 0) m p x =
      (((t.modLane x fun l => l.arms img (l.armRole img) v p).xcast x .startMark).notify x 4).answer x m.sess m.req 5
        Verdict.ok := by
  have min : (t.lane x).minLanes ≤ v.count := by simpa [Lane.minLanes, image] using enough
  rw [State.modLane, ← Lane.acceptArming_noteConfirm]
  simp only [State.armLane, image, pass, min, decide_true, Bool.and_true, Bool.not_true, Bool.and_false, Bool.false_eq_true,
    if_false, if_true, State.modLane, State.setLane_lane_same, State.setLane_setLane]

/-- Every lane once the module has armed with a generation: its floor is not below it where the lane takes part, and its test
port is closed (R157, R321). -/
def Lane.moduleArms (l : Lane) (gen : Word) : Lane := { l with
  nv := { l.nv with genFloor := if l.live = true ∧ l.nv.genFloor.toNat < gen.toNat then gen else l.nv.genFloor }
  sec := { l.sec with tap := false } }

/-- The lanes of `v` settle, in order, an arming that passes in each of them (R155, R156). -/
def State.armLanes (s : State) (v : LaneSet) (m : ConfirmMsg) (p : Prepared) : State :=
  laneList.foldl (fun t x => if v.has x then t.armLane v false (0, 0) m p x else t) s

/-- The arming passes in every lane of `v`, which are enough (R155, R156, R158). -/
structure ArmsAll (s : State) (v : LaneSet) (img : LaneId → Image) (role : LaneId → BitVec 4) : Prop where
  someone : ∃ x, v.has x = true
  image : ∀ x, v.has x = true → (s.lane x).boot.img = some (img x)
  role : ∀ x, v.has x = true → (s.lane x).roleTaken (img x) = .ok (role x)
  code : ∀ x, v.has x = true → (s.lane x).armCode s.fcu = (0, 0)
  enough : ∀ x, v.has x = true → (img x).params.minLanes.toNat ≤ v.count

section
variable {s : State} {v : LaneSet} {img : LaneId → Image} {role : LaneId → BitVec 4} {gen : Word}

/-- It passes still once the challenge is confirmed. -/
theorem ArmsAll.confirms (h : ArmsAll s v img role) (p : Prepared) :
    ArmsAll (s.begin.modLanes v fun _ l => l.confirms p) v img role := by
  refine ⟨h.someone, fun x hx => ?_, fun x hx => ?_, fun x hx => ?_, h.enough⟩
  all_goals rw [State.modLanes_lane, if_pos hx, State.begin_lane]
  exacts [h.image x hx, h.role x hx, h.code x hx]

/-- The lanes that report code 0 are those of `v` (R155). -/
theorem ArmsAll.pass_eq (h : ArmsAll s v img role) :
    (LaneSet.those fun x => v.has x && ((s.lane x).armCode s.fcu).1 == 0) = v := by
  refine LaneSet.eq_of_has fun x => ?_
  rw [LaneSet.those_has]
  cases hx : v.has x with
  | false => rfl
  | true => rw [h.code x hx]; rfl

/-- None of them reports a failure (R156). -/
theorem ArmsAll.split_eq (h : ArmsAll s v img role) :
    (laneList.any fun x => v.has x && ((s.lane x).armCode s.fcu).1 != 0) = false := by
  refine Bool.eq_false_iff.mpr fun fails => ?_
  obtain ⟨x, hx⟩ := laneList_any.mp fails
  rw [Bool.and_eq_true] at hx
  simp [h.code x hx.1] at hx

/-- The module arms with the image of a lane of `v` (R157). -/
theorem ArmsAll.first_image (h : ArmsAll s v img role) : ∃ z, v.has z = true ∧
    ((laneList.find? fun x => v.has x && decide ((s.lane x).minLanes ≤ v.count)).bind fun x => (s.lane x).boot.img) =
      some (img z) := by
  obtain ⟨y, hy⟩ := h.someone
  have goes : (v.has y && decide ((s.lane y).minLanes ≤ v.count)) = true := by
    simpa [hy, Lane.minLanes, h.image y hy] using h.enough y hy
  obtain ⟨z, hz⟩ := Option.isSome_iff_exists.mp
    (List.find?_isSome (p := fun x => v.has x && decide ((s.lane x).minLanes ≤ v.count)).mpr ⟨y, mem_laneList y, goes⟩)
  have passes := List.find?_some hz
  have member : v.has z = true := (Bool.and_eq_true_iff.mp passes).1
  exact ⟨z, member, by rw [hz]; exact h.image z member⟩

/-- A lane whose test port is closed and whose floor rises where it takes part joins in the arming of the module (R157, R321). -/
theorem Lane.closed_raised (l : Lane) (gen : Word) :
    (let m := { l with sec := { l.sec with tap := false } }
     if m.live then m.raiseFloor gen else m) = l.moduleArms gen := by
  have live : ({ l with sec := { l.sec with tap := false } } : Lane).live = l.live := rfl
  simp only [live, Lane.moduleArms, Lane.raiseFloor_eq]
  cases l.live <;> simp

/-- The lanes of `v` settle one after the other, and every lane joins in the arming of the module (R155, R156, R157). -/
theorem ArmsAll.arm_eq (h : ArmsAll s v img role) (gens : ∀ x, v.has x = true → (img x).hdr.gen = gen) (m : ConfirmMsg)
    (p : Prepared) : s.arm v m p = (s.armLanes v m p).mapLanes fun _ l => l.moduleArms gen := by
  have lanes : (fun (t : State) x => if v.has x then t.armLane v false ((s.lane x).armCode s.fcu) m p x else t) =
      fun t x => if v.has x then t.armLane v false (0, 0) m p x else t := by
    funext t x
    split
    · next hx => rw [h.code x hx]
    · rfl
  obtain ⟨z, member, image⟩ := h.first_image
  simp only [State.arm, h.pass_eq, h.split_eq, lanes, image, gens z member]
  exact congrArg (State.mapLanes _) (funext fun _ => funext fun l => l.closed_raised gen)

/-- What the arming of every lane of `v` leaves beside what it sends (R155, R156, R157, R158). -/
theorem ArmsAll.sends (h : ArmsAll s v img role) (m : ConfirmMsg) (p : Prepared) :
    OnlySends (s.modLanes v fun x l => l.arms (img x) (role x) v p) (s.armLanes v m p) := by
  refine .foldLanes (fun _ _ _ => rfl) fun t x hx lane => ?_
  have image : (t.lane x).boot.img = some (img x) := by rw [lane]; exact h.image x hx
  have taken : (t.lane x).roleTaken (img x) = .ok (role x) := by rw [lane]; exact h.role x hx
  have arms : (t.modLane x fun l => l.arms (img x) (l.armRole (img x)) v p) = t.modLane x fun l => l.arms (img x) (role x) v p := by
    simp only [State.modLane, Lane.armRole, taken]
  rw [State.armLane_go hx image (h.enough x hx), arms]
  exact (OnlySends.xcast ..).trans ((OnlySends.notify ..).trans (.answer ..))

/-- Each lane that arms keeps the routes, marks the start to the lanes that they lead to, and the response lane answers
(R155, R156, R279). -/
theorem State.armLane_sends {t : State} {x : LaneId} {img : Image} (pass : v.has x = true) (image : (t.lane x).boot.img = some img)
    (enough : img.params.minLanes.toNat ≤ v.count) (m : ConfirmMsg) (p : Prepared) :
    t.SameRoutes (t.armLane v false (0, 0) m p x) ∧
    (∀ y r, y ≠ x → t.route x y = some r → .xl x y r .startMark ∈ (t.armLane v false (0, 0) m p x).out) ∧
    (∀ k, t.session m.sess = some k → t.respLane k = some x →
      .shp m.sess m.req 5 0 [] ∈ (t.armLane v false (0, 0) m p x).out) := by
  rw [State.armLane_go pass image enough]
  let u := t.modLane x fun l => l.arms img (l.armRole img) v p
  have changed : t.SameRoutes u := .modLane t x rfl
  have marked : OnlySends u (u.xcast x .startMark) := .xcast ..
  have told : OnlySends u ((u.xcast x .startMark).notify x 4) := marked.trans (.notify ..)
  have before := changed.trans (.of_sends told)
  refine ⟨before.trans (.of_sends (.answer ..)), fun y r hy route => ?_, fun k found resp => ?_⟩
  · exact ((OnlySends.notify ..).trans (.answer ..)).mem (State.xcast_mem hy ((State.route_congr changed.links x y).trans route) _)
  · exact State.answer_mem ((before.session _).trans found) ((before.respLane k).trans resp) m.req 5 Verdict.ok

/-- Start marks have left on every usable link of a lane that arms, and the response lane has answered (R155, R156). -/
theorem ArmsAll.sent (h : ArmsAll s v img role) (m : ConfirmMsg) (p : Prepared) {x : LaneId} (hx : v.has x = true) :
    (∀ y r, y ≠ x → s.route x y = some r → .xl x y r .startMark ∈ (s.armLanes v m p).out) ∧
    (∀ k, s.session m.sess = some k → s.respLane k = some x → .shp m.sess m.req 5 0 [] ∈ (s.armLanes v m p).out) := by
  have arms (t : State) (y : LaneId) (hy : v.has y = true) (same : s.SameRoutes t) :=
    State.armLane_sends hy ((same.img y).trans (h.image y hy)) (h.enough y hy) m p
  have step (t : State) (y : LaneId) (same : s.SameRoutes t) :
      t.SameRoutes (if v.has y then t.armLane v false (0, 0) m p y else t) := by
    split
    · next hy => exact (arms t y hy same).1
    · exact .refl t
  refine ⟨fun y r hy route => ?_, fun k found resp => ?_⟩
  all_goals refine State.SameRoutes.foldl_mem step (mem_laneList x) fun t same => ?_
  all_goals
    rw [if_pos hx]
    obtain ⟨-, marks, answers⟩ := arms t x hx same
  · exact marks y r hy ((State.route_congr same.links x y).trans route)
  · exact answers k ((same.session _).trans found) ((same.respLane k).trans resp)

end

/-- The lane that has accepted an arming whose challenge it confirmed (R155, R282, R286). -/
def Lane.acceptsArming (l : Lane) (img : Image) (role : BitVec 4) (v : LaneSet) (p : Prepared) : Lane :=
  { l.takesRole img role v with
    host := { l.host with
      prepared := confirmedList l p, lastOp := 4, lastSt := 0, lastWs := p.wsId.setWidth 16
      confirmed := l.host.confirmed + 1 } }

/-- A floor that has risen rises no further, and a port that is closed stays closed (R157, R321). -/
theorem Lane.raised_moduleArms {l : Lane} (live : l.live = true) (gen : Word) :
    (l.raised gen).moduleArms gen = l.moduleArms gen := by
  by_cases below : l.nv.genFloor.toNat < gen.toNat <;> simp [Lane.moduleArms, live, Lane.raised, below]

/-- A lane whose challenge was confirmed and that arms with the module has accepted the arming (R155, R282). -/
theorem Lane.confirms_arms_moduleArms {l : Lane} (live : l.live = true) (img : Image) (role : BitVec 4) (v : LaneSet) {p : Prepared}
    (op : p.op = 4) :
    ((l.confirms p).arms img role v p).moduleArms img.hdr.gen = (l.acceptsArming img role v p).moduleArms img.hdr.gen := by
  have host : (l.confirms p).host.noteConfirm p.op p.wsId Verdict.ok = (l.acceptsArming img role v p).host := by
    rw [op]
    rfl
  rw [← Lane.raised_moduleArms (l := l.acceptsArming img role v p) live, Lane.raised, ← host]
  rfl

/-- What the lanes leave that confirm, arm and join in the arming of the module (R155, R157, R158, R282, R321, R347). -/
theorem State.confirms_arms_moduleArms {s : State} {v : LaneSet} {img : LaneId → Image} {gen : Word} {p : Prepared}
    (live : ∀ x, v.has x = true → (s.lane x).live = true) (gens : ∀ x, v.has x = true → (img x).hdr.gen = gen)
    (op : p.op = 4) (role : LaneId → BitVec 4) :
    ((s.modLanes v fun _ l => l.confirms p).modLanes v fun x l => l.arms (img x) (role x) v p).mapLanes
        (fun _ l => l.moduleArms gen) =
      (s.modLanes v fun x l => l.acceptsArming (img x) (role x) v p).mapLanes fun _ l => l.moduleArms gen := by
  refine State.ext_lanes rfl fun x => ?_
  simp only [State.mapLanes_lane, State.modLanes_lane]
  split
  · next hx => rw [← gens x hx, Lane.confirms_arms_moduleArms (live x hx) (img x) (role x) v op]
  · rfl

/-- Settles O27: the lanes that verify the confirm arm one after the other, and the module with them. -/
theorem armingAccepted : Obligations.ArmingAccepted := by
  unfold Obligations.ArmingAccepted
  intro s m k p role img gen session general named op v someone passes
  have arms : ArmsAll s v img role := by
    refine ⟨someone, fun x hx => ?_, fun x hx => ?_, fun x hx => ?_, fun x hx => ?_⟩
    all_goals obtain ⟨-, image, taken, code, enough, -⟩ := passes x hx
    exacts [image, taken, code, enough]
  have gens : ∀ x, v.has x = true → (img x).hdr.gen = gen := fun x hx => by
    obtain ⟨-, -, -, -, -, same⟩ := passes x hx
    exact same
  have confirmed := arms.confirms p
  have step := exec_arming session general named op someone fun x hx => (passes x hx).1
  rw [confirmed.arm_eq gens m p] at step
  have sends := (confirmed.sends m p).mapLanes (f := fun l => l.moduleArms gen) fun _ _ => rfl
  rw [State.confirms_arms_moduleArms (fun x hx => by rw [State.begin_lane]; exact live_of_obeying hx) gens op role] at sends
  have same : s.begin.SameRoutes (s.begin.modLanes v fun _ l => l.confirms p) := .modLanes _ _ fun _ => rfl
  refine ⟨_, step, sends, fun x y r hx hy route => ?_, fun y resp hy => ?_⟩
  · exact (confirmed.sent m p hx).1 y r hy ((State.route_congr same.links x y).trans route)
  · have resp' : s.begin.respLane k = some y := ((State.SameRoutes.of_begin s).respLane k).symm.trans resp
    exact (confirmed.sent m p hy).2 k ((same.session _).trans session) ((same.respLane k).trans resp')

end Sys2Proof.Machine
end

section
/-!
PROOFS. O39: a status telegram on its way from the field port to the candidates (spec/08_field_telegrams.md R163 to R176,
R192, R193; spec/02_the_cycle.md R28; spec/03_coded_state.md R57, R62, R63, R65).
-/
namespace Sys2Proof.Mem

/-- An entry that is written reads back, in canonical form or not. -/
theorem get_set_some {α : Type} [DecidableEq α] (m : Mem (Option α)) (k : Nat) (v : α) :
    get none (set none m k (some v)) k = some v := by
  rw [set, if_neg (Option.some_ne_none v), get_put_same]

end Sys2Proof.Mem

namespace Sys2Proof.Machine

/-- Serial order of sequence numbers, written out (R176). -/
theorem newer_eq_true {x y : Word} : newer x y = true ↔ x ≠ y ∧ (x - y).toNat < 2 ^ 31 := by
  simp [newer]

/-- An entry that is sound is used without a failure (R63). -/
theorem Lane.useTables_of_sound (l : Lane) {img : Image} {t : Table} {i : Nat} (sound : img.tableSound t i = true) :
    l.useTables img [(t, i)] = (l, true) := by
  simp [Lane.useTables, Image.wrongOf, sound]

/-! ## What the intake of a telegram leaves -/

/-- What of a lane the intake of a telegram that R163 let pass leaves alone: the store, the cycle, and the frames received on
each network (R192). -/
structure IntakeRest where
  store : Store
  cyc   : CycState
  rxA   : Nat
  rxB   : Nat

namespace Lane

def intakeRest (l : Lane) : IntakeRest :=
  { store := l.store, cyc := l.cyc, rxA := l.stats.b.rxA, rxB := l.stats.b.rxB }

theorem countDiscard_intakeRest (l : Lane) (net : NetId) (f : TelFail) :
    (l.countDiscard net f).intakeRest = l.intakeRest := by
  cases f
  case partner => cases net <;> rfl
  all_goals rfl

theorem countDiscard_tag_stats (l : Lane) (net : NetId) :
    (l.countDiscard net .tag).stats.b = { l.stats.b with dTag := l.stats.b.dTag + 1 } := rfl

theorem countDiscard_old_stats (l : Lane) (net : NetId) :
    (l.countDiscard net .old).stats.b = { l.stats.b with dOld := l.stats.b.dOld + 1 } := rfl

theorem countDiscard_field (l : Lane) (net : NetId) (f : TelFail) : (l.countDiscard net f).field = l.field := by
  cases f <;> rfl

/-- An echo is kept among the echoes of the lane alone (R253). -/
theorem noteEcho_eq (l : Lane) (t : Tel) :
    l.noteEcho t = { l with fail := { l.fail with echoes := (l.noteEcho t).fail.echoes } } := by
  unfold noteEcho
  split <;> rfl

theorem noteEcho_intakeRest (l : Lane) (t : Tel) : (l.noteEcho t).intakeRest = l.intakeRest := by rw [noteEcho_eq]; rfl
@[simp] theorem noteEcho_field (l : Lane) (t : Tel) : (l.noteEcho t).field = l.field := by rw [noteEcho_eq]
@[simp] theorem noteEcho_stats (l : Lane) (t : Tel) : (l.noteEcho t).stats = l.stats := by rw [noteEcho_eq]
@[simp] theorem noteEcho_cyc (l : Lane) (t : Tel) : (l.noteEcho t).cyc = l.cyc := by rw [noteEcho_eq]
@[simp] theorem noteEcho_cand (l : Lane) (t : Tel) (p : Nat) : (l.noteEcho t).cand p = l.cand p := by rw [noteEcho_eq]; rfl

/-- The echoes kept do not enter checks 7 and 8 (R175, R177). -/
@[simp] theorem noteEcho_telLate (l : Lane) (t u : Tel) (p : Nat) (n : Cycle) :
    (l.noteEcho t).telLate p u n = l.telLate p u n := by rw [noteEcho_eq]; rfl

@[simp] theorem countFrame_field (l : Lane) (net : NetId) : (l.countFrame net).field = l.field := rfl
@[simp] theorem countFrame_cyc (l : Lane) (net : NetId) : (l.countFrame net).cyc = l.cyc := rfl
@[simp] theorem countFrame_codes (l : Lane) (net : NetId) : (l.countFrame net).codes = l.codes := rfl
@[simp] theorem countFrame_cand (l : Lane) (net : NetId) (p : Nat) : (l.countFrame net).cand p = l.cand p := rfl
@[simp] theorem countFrame_telLate (l : Lane) (net : NetId) (p : Nat) (t : Tel) (n : Cycle) :
    (l.countFrame net).telLate p t n = l.telLate p t n := rfl

/-- A frame that R163 lets pass is counted for its network alone (R192). -/
theorem countFrame_stats (l : Lane) (net : NetId) : (l.countFrame net).stats.b = { l.stats.b with
    rxA := l.stats.b.rxA + (if net = .a then 1 else 0)
    rxB := l.stats.b.rxB + (if net = .b then 1 else 0) } := by
  cases net <;> rfl

/-! ## The candidate of a station (R176) -/

/-- A valid telegram is counted for its network (R192). -/
theorem countValid_stats (l : Lane) (p : Nat) (t : Tel) : (l.countValid p t).stats.b = { l.stats.b with
    validA := l.stats.b.validA + (if t.net = .a then 1 else 0)
    validB := l.stats.b.validB + (if t.net = .b then 1 else 0) } := by
  unfold countValid
  cases t.net <;> rfl

theorem countValid_intakeRest (l : Lane) (p : Nat) (t : Tel) : (l.countValid p t).intakeRest = l.intakeRest := by
  unfold countValid
  cases t.net <;> rfl

theorem countValid_cands (l : Lane) (p : Nat) (t : Tel) : (l.countValid p t).field.cands = l.field.cands := by
  unfold countValid
  cases t.net <;> rfl

/-- The lane with a telegram as the candidate of its station, and its frame in the fetch store (R176, R193). -/
def withCand (l : Lane) (p : Nat) (t : Tel) (net : NetId) (fr : FieldFrame) : Lane :=
  { l with field := { l.field with
      cands := Mem.set none l.field.cands p (some t)
      store := Mem.set none l.field.store p (some (net, fr)) } }

section
variable (l : Lane) (p : Nat) (t : Tel) (net : NetId) (fr : FieldFrame)

theorem withCand_intakeRest : (l.withCand p t net fr).intakeRest = l.intakeRest := rfl
@[simp] theorem withCand_stats : (l.withCand p t net fr).stats = l.stats := rfl

@[simp] theorem withCand_cands_same : Mem.get none (l.withCand p t net fr).field.cands p = some t :=
  Mem.get_set_some ..

@[simp] theorem withCand_store_same : Mem.get none (l.withCand p t net fr).field.store p = some (net, fr) :=
  Mem.get_set_some ..

theorem withCand_cands_other {q : Nat} (h : q ≠ p) :
    Mem.get none (l.withCand p t net fr).field.cands q = Mem.get none l.field.cands q :=
  Mem.get_set_other none (some t) h

variable {l p}

/-- The first valid telegram of a station is its candidate (R176). -/
theorem offer_of_none (h : l.cand p = none) : l.offer p t net fr = (l.countValid p t).withCand p t net fr := by
  have same : (l.countValid p t).cand p = none := by rw [cand, countValid_cands]; exact h
  rw [offer, same]
  rfl

/-- Of two telegrams the newer one is the candidate, and the other counts as OLD (R176, R191). -/
theorem offer_of_some {c : Tel} (h : l.cand p = some c) : l.offer p t net fr =
    if newer t.seq c.seq then ((l.countValid p t).countDiscard net .old).withCand p t net fr
    else (l.countValid p t).countDiscard net .old := by
  have same : (l.countValid p t).cand p = some c := by rw [cand, countValid_cands]; exact h
  rw [offer, same]
  rfl

variable (l p)

theorem offer_intakeRest : (l.offer p t net fr).intakeRest = l.intakeRest := by
  have old : ((l.countValid p t).countDiscard net .old).intakeRest = l.intakeRest :=
    (countDiscard_intakeRest ..).trans (countValid_intakeRest ..)
  cases h : l.cand p with
  | none =>
    rw [offer_of_none t net fr h]
    exact countValid_intakeRest ..
  | some c =>
    rw [offer_of_some t net fr h]
    split <;> exact old

theorem takeTel_intakeRest : (l.takeTel p t net fr).intakeRest = l.intakeRest := by
  unfold takeTel
  split
  · rfl
  · split
    · exact countDiscard_intakeRest ..
    · exact offer_intakeRest ..

end

/-! ## Checks 1 to 6 (R175) -/

section
variable {l : Lane} {x : LaneId} {img : Image} {net : NetId} {fr : FieldFrame} {n : Cycle} {p : Nat}
  (params : img.tableSound paramTable 0 = true)
include params

theorem admitTel_of_error {e : TelFail} (lost : l.telStation img net fr.srcIp fr.data = .error e) :
    l.admitTel x img net fr n = (l.countDiscard net e, none) := by
  simp [admitTel, l.useTables_of_sound params, lost]

/-- Once its station is known, the coder's words and the tag decide over a telegram (R57, R65, R175). -/
theorem admitTel_of_ok (found : l.telStation img net fr.srcIp fr.data = .ok p) (sound : stationSound img p = true) :
    l.admitTel x img net fr n =
      if !l.coderBack p (l.codeTel p net fr.data n fr.coderErr) fr.data n then (l.codeNote 5 p, none)
      else if !l.telTagOk x ((img.stations[p]?.map (·.stnId)).getD 0) fr.data then (l.countDiscard net .tag, none)
      else (l, some (p, l.codeTel p net fr.data n fr.coderErr)) := by
  simp [admitTel, useStation, l.useTables_of_sound params, l.useTables_of_sound sound, found]

/-- Where the tables are sound, checks 1 to 6 move neither the field state nor what the intake leaves alone (R175). -/
theorem admitTel_keeps (sound : ∀ q, l.telStation img net fr.srcIp fr.data = .ok q → stationSound img q = true) :
    (l.admitTel x img net fr n).1.intakeRest = l.intakeRest ∧ (l.admitTel x img net fr n).1.field = l.field := by
  cases h : l.telStation img net fr.srcIp fr.data with
  | error e =>
    rw [admitTel_of_error params h]
    exact ⟨countDiscard_intakeRest .., countDiscard_field ..⟩
  | ok q =>
    rw [admitTel_of_ok params h (sound q h)]
    split_ifs <;> exact ⟨rfl, rfl⟩

end

/-- Where the network record is sound, a frame that R163 does not let pass is dropped as FORMAT (R63, R163). -/
theorem receiveTel_of_not_frameOk {img : Image} (sound : img.tableSound netTable 0 = true) {net : NetId} {fr : FieldFrame}
    (bad : frameOk (img.netOf net) fr = false) (l : Lane) (x : LaneId) (n : Cycle) :
    l.receiveTel x img net fr n = (l.countDiscard net .format, none) := by
  simp [receiveTel, l.useTables_of_sound sound, bad]

theorem receiveTel_of_frameOk {img : Image} (sound : img.tableSound netTable 0 = true) {net : NetId} {fr : FieldFrame}
    (good : frameOk (img.netOf net) fr = true) (l : Lane) (x : LaneId) (n : Cycle) :
    l.receiveTel x img net fr n = l.admitTel x img net fr n := by
  simp [receiveTel, l.useTables_of_sound sound, good]

/-- A lane only listens where its logic does not run (R253, R287). -/
theorem takesField_of_hearsField {l : Lane} (hears : l.hearsField = true) : l.takesField = false := by
  simp only [hearsField, Bool.and_eq_true, Bool.not_eq_true'] at hears
  obtain ⟨⟨⟨-, idle⟩, -⟩, -⟩ := hears
  rw [takesField, Bool.and_assoc l.live, idle, Bool.and_false, Bool.false_and]

end Lane

/-! ## STATUS_TELEGRAM_RX -/

/-- The step has counted the frame for its network in lane `l`, and left that lane's store and cycle and the other lanes. -/
def CountsFrame (s t : State) (l : LaneId) (net : NetId) : Prop :=
  KeepsOthers s t l ∧ (t.lane l).store = (s.lane l).store ∧ (t.lane l).cyc = (s.lane l).cyc ∧
    (t.lane l).stats.b.rxA = (s.lane l).stats.b.rxA + (if net = .a then 1 else 0) ∧
    (t.lane l).stats.b.rxB = (s.lane l).stats.b.rxB + (if net = .b then 1 else 0)

section
variable {s : State} {l : LaneId} {net : NetId} {fr : FieldFrame} {img : Image} {p : Nat} {t : Tel} {k : Lane}

theorem CountsFrame.of_intakeRest (h : k.intakeRest = ((s.lane l).countFrame net).intakeRest) :
    CountsFrame s (s.begin.setLane l k) l net := by
  obtain ⟨store, cyc, rxA, rxB⟩ := IntakeRest.mk.inj h
  rw [Lane.countFrame_stats] at rxA rxB
  rw [CountsFrame, State.setLane_lane_same]
  exact ⟨keepsOthers_setLane s.begin_lane l k, store, cyc, rxA, rxB⟩

section
variable (image : (s.lane l).boot.img = some img) (nets : img.tableSound netTable 0 = true)
  (receives : (s.lane l).takesField = true ∨ (s.lane l).hearsField = true)
include image nets receives

theorem exec_statusTelegramRx_of_not_frameOk (bad : frameOk (img.netOf net) fr = false) :
    exec (.statusTelegramRx l net fr) s = .next (s.begin.setLane l ((s.lane l).countDiscard net .format)) := by
  rcases receives with h | h <;>
    simp [exec, execStatusTelegramRx, image, nets, h, bad, Lane.receiveTel_of_not_frameOk nets bad]

variable (good : frameOk (img.netOf net) fr = true)
include good

/-- A telegram that fails one of checks 1 to 6 leaves what they leave (R175). -/
theorem exec_statusTelegramRx_of_lost
    (lost : ((s.lane l).countFrame net).admitTel l img net fr (s.lane l).cyc.num = (k, none)) :
    exec (.statusTelegramRx l net fr) s = .next (s.begin.setLane l k) := by
  rcases receives with h | h <;>
    simp [exec, execStatusTelegramRx, image, nets, h, good, Lane.receiveTel_of_frameOk nets good, lost]

/-- A telegram that passes checks 1 to 6 leaves its echo, and a lane whose logic runs takes it (R28, R175, R253). -/
theorem exec_statusTelegramRx_of_admitted
    (admitted : ((s.lane l).countFrame net).admitTel l img net fr (s.lane l).cyc.num = (k, some (p, t))) :
    exec (.statusTelegramRx l net fr) s = .next (s.begin.setLane l
      (if (s.lane l).takesField then (k.noteEcho t).takeTel p t net fr else k.noteEcho t)) := by
  rcases receives with h | h <;>
    simp [exec, execStatusTelegramRx, image, nets, h, good, Lane.receiveTel_of_frameOk nets good, admitted]

end

/-- A lane whose logic does not run counts a frame and takes no telegram (R164, R253). -/
theorem exec_statusTelegramRx_of_hears (image : (s.lane l).boot.img = some img) (nets : img.tableSound netTable 0 = true)
    (hears : (s.lane l).hearsField = true) (good : frameOk (img.netOf net) fr = true)
    (params : img.tableSound paramTable 0 = true)
    (sound : ∀ q, (s.lane l).telStation img net fr.srcIp fr.data = .ok q → stationSound img q = true) :
    ∃ t, exec (.statusTelegramRx l net fr) s = .next t ∧ CountsFrame s t l net ∧ (t.lane l).field = (s.lane l).field := by
  have keeps := Lane.admitTel_keeps (l := (s.lane l).countFrame net) (x := l) (n := (s.lane l).cyc.num) params sound
  cases h : ((s.lane l).countFrame net).admitTel l img net fr (s.lane l).cyc.num with
  | mk k r =>
    rw [h] at keeps
    obtain ⟨rest, field⟩ := keeps
    cases r with
    | none =>
      refine ⟨_, exec_statusTelegramRx_of_lost image nets (.inr hears) good h, .of_intakeRest rest, ?_⟩
      rw [State.setLane_lane_same]
      exact field
    | some a =>
      have step := exec_statusTelegramRx_of_admitted image nets (.inr hears) good h
      rw [if_neg (by simp [Lane.takesField_of_hearsField hears])] at step
      refine ⟨_, step, .of_intakeRest ((Lane.noteEcho_intakeRest ..).trans rest), ?_⟩
      rw [State.setLane_lane_same, Lane.noteEcho_field]
      exact field

end

/-- A lane takes a telegram of a known station: its logic runs, the frame and the tables it uses are good, and checks 1 to 5
find the station at position `p` (R163, R175, R287). -/
structure TakesTel (s : State) (l : LaneId) (net : NetId) (fr : FieldFrame) (img : Image) (p : Nat) (r : StationRec) :
    Prop where
  image   : (s.lane l).boot.img = some img
  nets    : img.tableSound netTable 0 = true
  takes   : (s.lane l).takesField = true
  good    : frameOk (img.netOf net) fr = true
  params  : img.tableSound paramTable 0 = true
  found   : (s.lane l).telStation img net fr.srcIp fr.data = .ok p
  sound   : stationSound img p = true
  station : img.stations[p]? = some r

namespace TakesTel

/-- The telegram as the lane keeps it in its cycle (R65). -/
def tel (s : State) (l : LaneId) (net : NetId) (fr : FieldFrame) (p : Nat) : Tel :=
  (s.lane l).codeTel p net fr.data (s.lane l).cyc.num fr.coderErr

/-- The lane once the frame is counted and the telegram's echo kept (R192, R253). -/
def admits (s : State) (l : LaneId) (net : NetId) (fr : FieldFrame) (p : Nat) : Lane :=
  ((s.lane l).countFrame net).noteEcho (tel s l net fr p)

section
variable {s : State} {l : LaneId} {net : NetId} {fr : FieldFrame} {p : Nat}

/-- Whether it is held, discarded late or offered, the telegram leaves what the intake leaves alone (R28, R175). -/
theorem countsFrame_takeTel :
    CountsFrame s (s.begin.setLane l ((admits s l net fr p).takeTel p (tel s l net fr p) net fr)) l net :=
  .of_intakeRest ((Lane.takeTel_intakeRest ..).trans (Lane.noteEcho_intakeRest ..))

/-- Before the freeze a telegram that passes checks 7 and 8 is offered (R28, R175). -/
theorem takeTel_eq_offer (timely : (s.lane l).cyc.frozen = false)
    (fresh : (s.lane l).telLate p (tel s l net fr p) (s.lane l).cyc.num = none) :
    (admits s l net fr p).takeTel p (tel s l net fr p) net fr =
      (admits s l net fr p).offer p (tel s l net fr p) net fr := by
  simp [Lane.takeTel, admits, timely, fresh]

variable {img : Image} {r : StationRec} (h : TakesTel s l net fr img p r)
include h

/-- Checks 1 to 6 in the lane that has counted the frame: the count enters none of them (R175). -/
theorem admitTel_eq : ((s.lane l).countFrame net).admitTel l img net fr (s.lane l).cyc.num =
    if !(s.lane l).coderBack p (tel s l net fr p) fr.data (s.lane l).cyc.num then
      (((s.lane l).countFrame net).codeNote 5 p, none)
    else if !(s.lane l).telTagOk l r.stnId fr.data then (((s.lane l).countFrame net).countDiscard net .tag, none)
    else ((s.lane l).countFrame net, some (p, tel s l net fr p)) := by
  rw [Lane.admitTel_of_ok (l := (s.lane l).countFrame net) h.params h.found h.sound, h.station]
  rfl

/-- A word that the coder garbles costs the telegram and is located (R57, R65, R68). -/
theorem exec_garbled (garbles : (s.lane l).coderBack p (tel s l net fr p) fr.data (s.lane l).cyc.num = false) :
    exec (.statusTelegramRx l net fr) s = .next (s.begin.setLane l (((s.lane l).countFrame net).codeNote 5 p)) :=
  exec_statusTelegramRx_of_lost h.image h.nets (.inl h.takes) h.good (by simp [h.admitTel_eq, garbles])

variable (codes : (s.lane l).coderBack p (tel s l net fr p) fr.data (s.lane l).cyc.num = true)
include codes

/-- A wrong tag costs the telegram and is counted (R169, R175). -/
theorem exec_wrongTag (tag : (s.lane l).telTagOk l r.stnId fr.data = false) :
    exec (.statusTelegramRx l net fr) s = .next (s.begin.setLane l (((s.lane l).countFrame net).countDiscard net .tag)) :=
  exec_statusTelegramRx_of_lost h.image h.nets (.inl h.takes) h.good (by simp [h.admitTel_eq, codes, tag])

variable (tag : (s.lane l).telTagOk l r.stnId fr.data = true)
include tag

/-- A telegram that passes checks 1 to 6 leaves its echo and is taken (R28, R175, R253). -/
theorem exec_taken : exec (.statusTelegramRx l net fr) s =
    .next (s.begin.setLane l ((admits s l net fr p).takeTel p (tel s l net fr p) net fr)) := by
  rw [exec_statusTelegramRx_of_admitted h.image h.nets (.inl h.takes) h.good
    (by rw [h.admitTel_eq, codes, tag]; rfl), if_pos h.takes]
  rfl

/-- At the freeze or later the telegram is held for the next cycle (R28). -/
theorem exec_held (frozen : (s.lane l).cyc.frozen = true) : ∃ t, exec (.statusTelegramRx l net fr) s = .next t ∧
    CountsFrame s t l net ∧ (t.lane l).field = { (s.lane l).field with
      held := (s.lane l).field.held ++ [(p, tel s l net fr p, net, fr)] } := by
  refine ⟨_, h.exec_taken codes tag, countsFrame_takeTel, ?_⟩
  simp [Lane.takeTel, admits, frozen]

variable (timely : (s.lane l).cyc.frozen = false)
  (fresh : (s.lane l).telLate p (tel s l net fr p) (s.lane l).cyc.num = none)
include timely fresh

/-- The first telegram of a station in the cycle is its candidate, kept for a fetch and counted as valid (R176, R192,
R193). -/
theorem exec_first_cand (only : (s.lane l).cand p = none) : ∃ t, exec (.statusTelegramRx l net fr) s = .next t ∧
    CountsFrame s t l net ∧ Mem.get none (t.lane l).field.cands p = some (tel s l net fr p) ∧
    Mem.get none (t.lane l).field.store p = some (net, fr) ∧
    (∀ q, q ≠ p → Mem.get none (t.lane l).field.cands q = Mem.get none (s.lane l).field.cands q) ∧
    (t.lane l).stats.b.validA = (s.lane l).stats.b.validA + (if net = .a then 1 else 0) ∧
    (t.lane l).stats.b.validB = (s.lane l).stats.b.validB + (if net = .b then 1 else 0) ∧
    (t.lane l).stats.b.dOld = (s.lane l).stats.b.dOld := by
  have noCand : (admits s l net fr p).cand p = none := by simp [admits, only]
  refine ⟨_, h.exec_taken codes tag, countsFrame_takeTel, ?_⟩
  rw [State.setLane_lane_same, takeTel_eq_offer timely fresh, Lane.offer_of_none _ _ _ noCand]
  refine ⟨Lane.withCand_cands_same .., Lane.withCand_store_same .., fun q hq => ?_, ?_⟩
  · rw [Lane.withCand_cands_other _ _ _ _ _ hq, Lane.countValid_cands, admits, Lane.noteEcho_field, Lane.countFrame_field]
  · rw [Lane.withCand_stats, Lane.countValid_stats, admits, Lane.noteEcho_stats, Lane.countFrame_stats]
    exact ⟨rfl, rfl, rfl⟩

/-- Of two telegrams of a station the newer one stands, and the other counts as OLD (R176, R191). -/
theorem exec_newer_cand {c : Tel} (cand : (s.lane l).cand p = some c) : ∃ t, exec (.statusTelegramRx l net fr) s = .next t ∧
    CountsFrame s t l net ∧ (t.lane l).stats.b.dOld = (s.lane l).stats.b.dOld + 1 ∧
    Mem.get none (t.lane l).field.cands p =
      some (if newer (tel s l net fr p).seq c.seq then tel s l net fr p else c) := by
  have hasCand : (admits s l net fr p).cand p = some c := by simp [admits, cand]
  let old := ((admits s l net fr p).countValid p (tel s l net fr p)).countDiscard net .old
  have counted : old.stats.b.dOld = (s.lane l).stats.b.dOld + 1 := by
    simp only [old, Lane.countDiscard_old_stats, Lane.countValid_stats, admits, Lane.noteEcho_stats, Lane.countFrame_stats]
  have stands : Mem.get none old.field.cands p = some c := by
    rw [Lane.countDiscard_field, Lane.countValid_cands]
    exact hasCand
  refine ⟨_, h.exec_taken codes tag, countsFrame_takeTel, ?_⟩
  rw [State.setLane_lane_same, takeTel_eq_offer timely fresh, Lane.offer_of_some _ _ _ hasCand]
  split
  · exact ⟨counted, Lane.withCand_cands_same ..⟩
  · exact ⟨counted, stands⟩

end
end TakesTel

/-- Settles O39: a frame that is not of the form, one that a lane hears, and the checks of one that a lane takes. -/
theorem telegramsTaken : Obligations.TelegramsTaken := by
  unfold Obligations.TelegramsTaken
  intro s l net fr img p r m image nets d tel counts
  refine ⟨fun receives bad => exec_statusTelegramRx_of_not_frameOk image nets receives bad,
    fun hears good params sound => exec_statusTelegramRx_of_hears image nets hears good params sound,
    fun takes good params found sound station garbles => ?_, fun takes good params found sound station codes => ?_⟩
  all_goals have h : TakesTel s l net fr img p r := ⟨image, nets, takes, good, params, found, sound, station⟩
  · refine ⟨_, h.exec_garbled garbles, CountsFrame.of_intakeRest rfl, ?_⟩
    rw [State.setLane_lane_same]
    exact ⟨rfl, rfl⟩
  · refine ⟨fun wrong => ?_, h.exec_held codes, h.exec_first_cand codes, fun c tag timely fresh cand => ?_⟩
    · refine ⟨_, h.exec_wrongTag codes wrong, CountsFrame.of_intakeRest rfl, ?_⟩
      rw [State.setLane_lane_same]
      refine ⟨?_, rfl, rfl⟩
      rw [Lane.countDiscard_tag_stats, Lane.countFrame_stats]
    · have step := h.exec_newer_cand codes tag timely fresh cand
      simp only [newer_eq_true] at step
      exact step

end Sys2Proof.Machine
end

section
/-!
PROOFS. O42: what a vote takes to seal (spec/09_agreement_and_vote.md R201; spec/02_the_cycle.md R37).
-/
namespace Sys2Proof

/-! ## The order of the lanes -/

@[simp] theorem LaneId.next_prev (x : LaneId) : x.next.prev = x := by cases x <;> rfl
@[simp] theorem LaneId.prev_next (x : LaneId) : x.prev.next = x := by cases x <;> rfl
@[simp] theorem LaneId.next_next (x : LaneId) : x.next.next = x.prev := by cases x <;> rfl
@[simp] theorem LaneId.prev_prev (x : LaneId) : x.prev.prev = x.next := by cases x <;> rfl
@[simp] theorem LaneId.third_next (x : LaneId) : x.third x.next = x.prev := by cases x <;> rfl
theorem LaneId.ne_next (x : LaneId) : x ≠ x.next := by cases x <;> decide
theorem LaneId.next_ne_prev (x : LaneId) : x.next ≠ x.prev := by cases x <;> decide

/-- From a lane, every lane is that lane, the next one or the previous one. -/
theorem LaneId.eq_or_next_or_prev (x y : LaneId) : y = x ∨ y = x.next ∨ y = x.prev := by
  cases x <;> cases y <;> decide

/-- Three lanes are in a set exactly when it is the set of all. -/
theorem LaneSet.count_eq_three {v : LaneSet} : v.count = 3 ↔ v = allLanes := by
  obtain ⟨a, b, c⟩ := v
  cases a <;> cases b <;> cases c <;> decide

end Sys2Proof

namespace Sys2Proof.Machine

/-- The pairs in the order of SEAL_PAIR are those of a lane and the next (R168). -/
theorem mem_lanePairs {p : LaneId × LaneId} : p ∈ lanePairs ↔ p.2 = p.1.next := by
  obtain ⟨x, y⟩ := p
  cases x <;> cases y <;> decide

/-! ## Lanes that agree -/

/-- Two lanes are in service and hold equal whole-cycle digests (R201). -/
def Agreeing (service : LaneSet) (d : PerLane (Option DigestFrame)) (x y : LaneId) : Prop :=
  service.has x = true ∧ service.has y = true ∧ ∃ f g, d.get x = some f ∧ d.get y = some g ∧ f.whole = g.whole

section
variable {service : LaneSet} {d : PerLane (Option DigestFrame)} {x y z : LaneId}

theorem Agreeing.symm (h : Agreeing service d x y) : Agreeing service d y x := by
  obtain ⟨hx, hy, f, g, hf, hg, same⟩ := h
  exact ⟨hy, hx, g, f, hg, hf, same.symm⟩

theorem Agreeing.trans (h : Agreeing service d x y) (i : Agreeing service d y z) : Agreeing service d x z := by
  obtain ⟨hx, -, f, g, hf, hg, same⟩ := h
  obtain ⟨-, hz, g', k, hg', hk, same'⟩ := i
  obtain rfl : g = g' := Option.some.inj (hg.symm.trans hg')
  exact ⟨hx, hz, f, k, hf, hk, same.trans same'⟩

theorem sameDigest_eq_true : sameDigest d (x, y) = true ↔ ∃ f g, d.get x = some f ∧ d.get y = some g ∧ f.whole = g.whole := by
  unfold sameDigest
  cases d.get x <;> cases d.get y <;> simp

/-- The pairs that the vote looks through for equal digests are those of lanes in service (R201). -/
theorem agreeing_iff : Agreeing service d x y ↔ (service.has x && service.has y) = true ∧ sameDigest d (x, y) = true := by
  rw [sameDigest_eq_true, Bool.and_eq_true, and_assoc]
  rfl

/-- Where one lane agrees with both others, every two lanes agree. -/
theorem Agreeing.all (next : Agreeing service d x x.next) (prev : Agreeing service d x x.prev) (y z : LaneId) :
    Agreeing service d y z := by
  have withAll (y : LaneId) : Agreeing service d x y := by
    rcases x.eq_or_next_or_prev y with rfl | rfl | rfl
    · exact next.trans next.symm
    · exact next
    · exact prev
  exact (withAll y).symm.trans (withAll z)

/-! ## The outcomes of a vote -/

/-- The three ways in which a vote settles: no two lanes agree, all three do, or a lane and the next do and the third does not
agree with them, which is outvoted where it is in service (R201). -/
inductive VoteSettles (service : LaneSet) (d : PerLane (Option DigestFrame)) (r : VoteRes) : Prop
  | none (sealed : r.sealed = false) (outcome : r.outcome ≠ 0) (agree : r.agree = noLanes) (outvoted : r.outvoted = none)
      (differ : ∀ x y, x ≠ y → ¬ Agreeing service d x y)
  | all (sealed : r.sealed = true) (outcome : r.outcome = 0) (outvoted : r.outvoted = none)
      (agreeing : ∀ x y, Agreeing service d x y)
  | two (x : LaneId) (sealed : r.sealed = true) (outcome : r.outcome ≠ 0)
      (agree : ∀ y, r.agree.has y = true ↔ y = x ∨ y = x.next)
      (outvoted : ∀ z, r.outvoted = some z ↔ service = allLanes ∧ z = x.prev)
      (agreeing : Agreeing service d x x.next) (third : ¬ Agreeing service d x x.prev)

end

/-- The vote looks for a lane that agrees with the next, and where all are in service asks the third (R201). -/
theorem settleVote_settles (service : LaneSet) (d : PerLane (Option DigestFrame)) :
    VoteSettles service d (settleVote service d) := by
  have two_has (x y : LaneId) : ((noLanes.put x true).put x.next true).has y = true ↔ y = x ∨ y = x.next := by
    have empty : noLanes.has y = false := by cases y <;> rfl
    simp [empty, or_comm]
  unfold settleVote
  dsimp only
  split
  case h_1 p found =>
    have inSvc := List.mem_filter.mp (List.mem_of_find?_eq_some found)
    obtain ⟨x, y⟩ := p
    obtain rfl : y = x.next := mem_lanePairs.mp inSvc.1
    have agreeing : Agreeing service d x x.next := agreeing_iff.mpr ⟨inSvc.2, List.find?_some found⟩
    simp only [LaneId.third_next, LaneSet.count_eq_three]
    split
    case isTrue every =>
      have third : sameDigest d (x.next, x.prev) = true ↔ Agreeing service d x.next x.prev := by
        rw [agreeing_iff, every]
        simp
      split
      case isTrue same => exact .all rfl rfl rfl fun y z => agreeing.all (agreeing.trans (third.mp same)) y z
      case isFalse differ =>
        exact .two x rfl (by simp) (two_has x) (fun z => by simp [every, eq_comm]) agreeing
          fun h => differ (third.mpr (agreeing.symm.trans h))
    case isFalse few =>
      refine .two x rfl (by simp) (two_has x) (fun z => by simp [few]) agreeing fun h => few (LaneSet.eq_of_has fun y => ?_)
      rw [(agreeing.all h y y).1, allLanes_has]
  case h_2 noPair =>
    have apart (x : LaneId) : ¬ Agreeing service d x x.next := fun h => by
      obtain ⟨served, same⟩ := agreeing_iff.mp h
      exact List.find?_eq_none.mp noPair (x, x.next) (List.mem_filter.mpr ⟨mem_lanePairs.mpr rfl, served⟩) same
    refine .none ?_ ?_ rfl rfl fun x y other h => ?_
    · dsimp only [VoteRes.sealed]
      split_ifs <;> rfl
    · dsimp only
      split_ifs <;> decide
    · rcases x.eq_or_next_or_prev y with rfl | rfl | rfl
      · exact other rfl
      · exact apart x h
      · exact apart x.prev (by rw [LaneId.prev_next]; exact h.symm)

namespace VoteSettles

variable {service : LaneSet} {d : PerLane (Option DigestFrame)} {r : VoteRes} (h : VoteSettles service d r)
include h

/-- A vote seals exactly when two different lanes agree (R37, R201). -/
theorem sealed_iff : r.sealed = true ↔ ∃ x y, x ≠ y ∧ Agreeing service d x y := by
  cases h with
  | none sealed _ _ _ differ =>
    rw [sealed]
    exact ⟨fun e => (by cases e), fun ⟨x, y, other, e⟩ => absurd e (differ x y other)⟩
  | all sealed _ _ agreeing => exact ⟨fun _ => ⟨.a, .b, by decide, agreeing _ _⟩, fun _ => sealed⟩
  | two x sealed _ _ _ agreeing _ => exact ⟨fun _ => ⟨x, x.next, x.ne_next, agreeing⟩, fun _ => sealed⟩

theorem outcome_eq_zero_iff : r.outcome = 0 ↔ ∀ x y, x ≠ y → Agreeing service d x y := by
  cases h with
  | none _ outcome _ _ differ => exact ⟨fun e => absurd e outcome, fun e => absurd (e .a .b (by decide)) (differ _ _ (by decide))⟩
  | all _ outcome _ agreeing => exact ⟨fun _ x y _ => agreeing x y, fun _ => outcome⟩
  | two x _ outcome _ _ _ third =>
    have other : x ≠ x.prev := by simpa using x.prev.ne_next.symm
    exact ⟨fun e => absurd e outcome, fun e => absurd (e x x.prev other) third⟩

/-- An outvoted lane is the one of three in service that the other two do not agree with (R201). -/
theorem outvoted_iff (z : LaneId) : r.outvoted = some z ↔
    service = allLanes ∧ Agreeing service d z.next z.prev ∧ ¬ Agreeing service d z.next z := by
  cases h with
  | none _ _ _ outvoted differ =>
    rw [outvoted]
    exact ⟨fun e => (by cases e), fun ⟨_, e, _⟩ => absurd e (differ _ _ z.next_ne_prev)⟩
  | all _ _ outvoted agreeing =>
    rw [outvoted]
    exact ⟨fun e => (by cases e), fun ⟨_, _, e⟩ => absurd (agreeing _ _) e⟩
  | two x _ _ _ outvoted agreeing third =>
    rw [outvoted]
    refine and_congr_right fun _ => ⟨?_, fun ⟨others, apart⟩ => ?_⟩
    · rintro rfl
      simpa using And.intro agreeing third
    · rcases x.eq_or_next_or_prev z with rfl | rfl | rfl
      · exact absurd agreeing.symm apart
      · simp only [LaneId.next_next, LaneId.next_prev] at others
        exact absurd others.symm third
      · rfl

theorem agreeing_of_has (x y : LaneId) (hx : r.agree.has x = true) (hy : r.agree.has y = true) (other : x ≠ y) :
    Agreeing service d x y := by
  cases h with
  | none _ _ agree _ _ =>
    rw [agree] at hx
    cases x <;> cases hx
  | all _ _ _ agreeing => exact agreeing x y
  | two z _ _ agree _ agreeing _ =>
    rcases (agree x).mp hx with rfl | rfl <;> rcases (agree y).mp hy with rfl | rfl
    · exact absurd rfl other
    · exact agreeing
    · exact agreeing.symm
    · exact absurd rfl other

end VoteSettles

/-- Settles O42, from the three ways in which a vote settles. -/
theorem voteNeedsTwo : Obligations.VoteNeedsTwo := by
  unfold Obligations.VoteNeedsTwo
  intro service d
  have settles := settleVote_settles service d
  exact ⟨settles.sealed_iff, settles.outcome_eq_zero_iff, settles.outvoted_iff, settles.agreeing_of_has⟩

end Sys2Proof.Machine
end

section
/-!
PROOFS. O40: the two rounds of agreement (spec/09_agreement_and_vote.md R194 to R197, R218; spec/02_the_cycle.md R30, R36).
-/
namespace Sys2Proof.Machine

/-! ## Reports and the newest of them -/

/-- The newest of a list is in the list (R195). -/
theorem newest_mem {vs : List Half} {v : Half} (h : newest vs = some v) : v ∈ vs := by
  have fold (ws : List Half) (b : Half) : ws.foldl (fun b w => if newer w b then w else b) b ∈ b :: ws := by
    induction ws generalizing b with
    | nil => simp
    | cons w ws ih =>
      rcases List.mem_cons.mp (ih (if newer w b then w else b)) with e | later
      · rw [List.foldl_cons, e]
        split <;> simp
      · exact List.mem_cons_of_mem _ (List.mem_cons_of_mem _ later)
  cases vs with
  | nil => cases h
  | cons b ws =>
    obtain rfl := Option.some.inj h
    exact fold ws b

/-- The newest number reported for a station is one that a lane reports (R195). -/
theorem reportOf_of_newest {r : PerLane (List (Nat × Half))} {p : Nat} {v : Half} (h : newest (reportsFor r p) = some v) :
    ∃ y, reportOf r y p = some v := by
  obtain ⟨y, -, hy⟩ := List.mem_filterMap.mp (newest_mem h)
  exact ⟨y, hy⟩

/-! ## Stations settled one after the other -/

/-- A fold over the stations settles each, if a step settles its own station when that is fresh and leaves the others as they
are. -/
theorem foldl_range_settles {σ : Type} {op : σ → Nat → σ} {Fresh Settled : σ → Nat → Prop}
    (settles : ∀ s p, Fresh s p → Settled (op s p) p)
    (fresh : ∀ s p q, q ≠ p → Fresh s q → Fresh (op s p) q)
    (settled : ∀ s p q, q ≠ p → Settled s q → Settled (op s p) q)
    (n : Nat) {s : σ} (start : ∀ p, Fresh s p) :
    (∀ p, p < n → Settled ((List.range n).foldl op s) p) ∧ ∀ p, n ≤ p → Fresh ((List.range n).foldl op s) p := by
  induction n with
  | zero => exact ⟨fun p hp => absurd hp p.not_lt_zero, fun p _ => start p⟩
  | succ n ih =>
    obtain ⟨done, waits⟩ := ih
    rw [List.range_succ, List.foldl_append]
    refine ⟨fun p hp => ?_, fun p hp => fresh _ _ _ (by omega) (waits p (by omega))⟩
    by_cases e : p = n
    · subst e
      exact settles _ _ (waits p (Nat.le_refl p))
    · exact settled _ _ _ e (done p (by omega))

/-! ## Round 1 (R195) -/

namespace Lane

section
variable {l : Lane} {r : PerLane (List (Nat × Half))} {p : Nat} (acc : Lane × List (LaneId × Nat))

theorem settleTarget_of_none (h : newest (reportsFor r p) = none) : l.settleTarget r acc p = acc := by
  rw [settleTarget, h]

/-- A lane whose candidate is the target holds it. -/
theorem settleTarget_of_held {v : Half} {t : Tel} (h : newest (reportsFor r p) = some v) (held : l.candIs p v = some t) :
    l.settleTarget r acc p = ({ acc.1 with field := { acc.1.field with
      targets := Mem.set none acc.1.field.targets p (some v), hold := Mem.set none acc.1.field.hold p (some t) } }, acc.2) := by
  simp only [settleTarget, h, held]

/-- A lane without the target fetches it from a lane that reported it. -/
theorem settleTarget_of_lacking {v : Half} (h : newest (reportsFor r p) = some v) (lacks : l.candIs p v = none) :
    ∃ y, reportOf r y p = some v ∧ l.settleTarget r acc p = ({ acc.1 with field := { acc.1.field with
      targets := Mem.set none acc.1.field.targets p (some v), fetches := acc.1.field.fetches ++ [p] } }, acc.2 ++ [(y, p)]) := by
  obtain ⟨z, reports⟩ := reportOf_of_newest h
  cases found : laneList.find? fun y => reportOf r y p == some v with
  | none => exact absurd (beq_iff_eq.mpr reports) (List.find?_eq_none.mp found z (mem_laneList z))
  | some y => exact ⟨y, by simpa using List.find?_some found, by simp only [settleTarget, h, lacks, found]⟩

end

/-- The target of a station is settled: the newest number reported, held, or to be fetched from a lane that reported it. -/
def TargetSettled (l : Lane) (r : PerLane (List (Nat × Half))) (acc : Lane × List (LaneId × Nat)) (p : Nat) : Prop :=
  Mem.get none acc.1.field.targets p = newest (reportsFor r p) ∧
    ∀ v, newest (reportsFor r p) = some v → Mem.get none acc.1.field.hold p = l.candIs p v ∧
      (l.candIs p v = none → p ∈ acc.1.field.fetches ∧ ∃ y, reportOf r y p = some v ∧ (y, p) ∈ acc.2)

/-- No target of a station is noted, and no telegram of it held. -/
def TargetFresh (acc : Lane × List (LaneId × Nat)) (p : Nat) : Prop :=
  Mem.get none acc.1.field.targets p = none ∧ Mem.get none acc.1.field.hold p = none

section
variable {l : Lane} {r : PerLane (List (Nat × Half))} (acc : Lane × List (LaneId × Nat)) (p : Nat)

/-- Settling a station settles its target. -/
theorem settleTarget_settles (fresh : TargetFresh acc p) : l.TargetSettled r (l.settleTarget r acc p) p := by
  obtain ⟨noTarget, noHold⟩ := fresh
  cases h : newest (reportsFor r p) with
  | none =>
    rw [settleTarget_of_none acc h]
    exact ⟨noTarget.trans h.symm, fun v e => by rw [h] at e; cases e⟩
  | some v =>
    cases held : l.candIs p v with
    | some t =>
      rw [settleTarget_of_held acc h held]
      refine ⟨(Mem.get_set_some ..).trans h.symm, fun w e => ?_⟩
      obtain rfl : v = w := Option.some.inj (h.symm.trans e)
      rw [held]
      exact ⟨Mem.get_set_some .., fun e => by cases e⟩
    | none =>
      obtain ⟨y, reports, step⟩ := settleTarget_of_lacking acc h held
      rw [step]
      refine ⟨(Mem.get_set_some ..).trans h.symm, fun w e => ?_⟩
      obtain rfl : v = w := Option.some.inj (h.symm.trans e)
      exact ⟨noHold.trans held.symm, fun _ => ⟨by simp, y, reports, by simp⟩⟩

/-- Settling a station leaves what is noted of the others, and drops no fetch. -/
theorem settleTarget_others : let a := l.settleTarget r acc p
    (∀ q, q ≠ p → Mem.get none a.1.field.targets q = Mem.get none acc.1.field.targets q ∧
      Mem.get none a.1.field.hold q = Mem.get none acc.1.field.hold q) ∧
    acc.1.field.fetches ⊆ a.1.field.fetches ∧ acc.2 ⊆ a.2 ∧ a.1.field.r1Done = acc.1.field.r1Done := by
  dsimp only
  cases h : newest (reportsFor r p) with
  | none =>
    rw [settleTarget_of_none acc h]
    exact ⟨fun _ _ => ⟨rfl, rfl⟩, fun _ => id, fun _ => id, rfl⟩
  | some v =>
    cases held : l.candIs p v with
    | some t =>
      rw [settleTarget_of_held acc h held]
      exact ⟨fun q hq => ⟨Mem.get_set_other none (some v) hq, Mem.get_set_other none (some t) hq⟩, fun _ => id, fun _ => id,
        rfl⟩
    | none =>
      obtain ⟨y, -, step⟩ := settleTarget_of_lacking acc h held
      rw [step]
      exact ⟨fun q hq => ⟨Mem.get_set_other none (some v) hq, rfl⟩, List.subset_append_left .., List.subset_append_left ..,
        rfl⟩

end

/-- What settling the targets leaves in the lane outside the field state and the statistics, and that round 1 is done. -/
theorem settleTargets_rest (l : Lane) (x : LaneId) (n : Nat) : let m := (l.settleTargets x n).1
    m.field.r1Done = true ∧ m.store = l.store ∧ m.cyc = l.cyc ∧ m.field.cands = l.field.cands := by
  have targets := l.settleTargets_targets x n
  have done (ps : List Nat) (acc : Lane × List (LaneId × Nat)) :
      (ps.foldl (l.settleTarget (l.reports x)) acc).1.field.r1Done = acc.1.field.r1Done := by
    induction ps generalizing acc with
    | nil => rfl
    | cons p ps ih => exact (ih _).trans (settleTarget_others acc p).2.2.2
  refine ⟨done _ _, ?_, ?_, ?_⟩ <;> rw [targets.rest]

/-- Round 1 settles the target of every station of the image. -/
theorem settleTargets_settles {l : Lane} (targets : l.field.targets = []) (hold : l.field.hold = []) (x : LaneId) {n p : Nat}
    (hp : p < n) : l.TargetSettled (l.reports x) (l.settleTargets x n) p := by
  refine (foldl_range_settles (Fresh := TargetFresh) (Settled := l.TargetSettled (l.reports x)) settleTarget_settles
    (fun acc p q hq fresh => ?_) (fun acc p q hq settled => ?_) n fun q => ?_).1 p hp
  · obtain ⟨others, -, -, -⟩ := settleTarget_others (l := l) (r := l.reports x) acc p
    exact ⟨(others q hq).1.trans fresh.1, (others q hq).2.trans fresh.2⟩
  · obtain ⟨others, fetches, requests, -⟩ := settleTarget_others (l := l) (r := l.reports x) acc p
    obtain ⟨target, held⟩ := settled
    refine ⟨(others q hq).1.trans target, fun v e => ⟨(others q hq).2.trans (held v e).1, fun lacks => ?_⟩⟩
    obtain ⟨fetch, y, reports, request⟩ := (held v e).2 lacks
    exact ⟨fetches fetch, y, reports, requests request⟩
  · exact ⟨congrArg (Mem.get none · q) targets, congrArg (Mem.get none · q) hold⟩

end Lane

/-- Settling round 1 changes the lane, and asks by every route there is (R195). -/
theorem State.settleRound1_spec {s : State} {x : LaneId} {img : Image} (image : (s.lane x).boot.img = some img) :
    let r := (s.lane x).settleTargets x img.stations.length
    KeepsOthers s (s.settleRound1 x) x ∧ (s.settleRound1 x).lane x = r.1 ∧
      ∀ q ∈ r.2, ∀ b, s.route x q.1 = some b → .xl x q.1 b (.fetch q.2) ∈ (s.settleRound1 x).out := by
  have lanes (qs : List (LaneId × Nat)) (u : State) (y : LaneId) :
      (qs.foldl (fun t q => t.xsend x q.1 (.fetch q.2)) u).lane y = u.lane y := by
    induction qs generalizing u with
    | nil => rfl
    | cons q qs ih => exact (ih _).trans (State.xsend_lane ..)
  unfold State.settleRound1
  simp only [image]
  refine ⟨fun y hy => ?_, ?_, fun q hq b route => ?_⟩
  · rw [lanes, State.setLane_lane_other _ _ hy]
  · rw [lanes, State.setLane_lane_same]
  · refine OnlySends.foldl_mem (fun _ _ => .xsend ..) hq fun t sends => State.xsend_mem ?_ _
    rw [State.route_congr (sends.links_eq.trans (State.setLane_links ..)), route]

section
variable {s : State} {l : LaneId} {img : Image} (runs : RunsCycle s l img)
include runs

theorem RunsCycle.round1Open (frozen : (s.lane l).cyc.frozen = true) (undone : (s.lane l).field.r1Done = false) :
    (s.lane l).round1Open l = true := by
  simp [Lane.round1Open, runs.cycle, runs.phased, frozen, undone]

/-- A round-1 frame is held, and the last one that is needed settles the targets (R194, R195). -/
theorem exec_round1FrameRx {sender : LaneId} (serves : (s.lane l).serves sender = true) (other : sender ≠ l) {f : Round1}
    (num : f.cyc = (s.lane l).cyc.num) (undone : (s.lane l).field.r1Done = false) :
    exec (.round1FrameRx l sender f) s = .next ((s.begin.setLane l { s.lane l with
      field := { (s.lane l).field with r1 := (s.lane l).field.r1.put sender (some f) } }).tryRound1 l) := by
  simp only [exec, execRound1FrameRx, State.begin_lane]
  rw [if_pos (by simp [runs.cycle, runs.phased, serves, other, num, undone])]

/-- At its deadline round 1 is settled by what is held (R194, R195). -/
theorem exec_round1Deadline (frozen : (s.lane l).cyc.frozen = true) (undone : (s.lane l).field.r1Done = false) :
    exec (.round1Deadline l) s = .next (s.begin.settleRound1 l) := by
  simp only [exec, execRound1Deadline, State.begin_lane]
  rw [if_pos (runs.round1Open frozen undone)]

theorem exec_telegramFetchRx (sender : LaneId) {pos : Nat} {net : NetId} {fr : FieldFrame}
    (stored : Mem.get none (s.lane l).field.store pos = some (net, fr)) :
    exec (.telegramFetchRx l sender pos) s = .next (s.begin.xsend l sender (.fetchReply pos net fr)) := by
  have live : (s.lane l).live = true := by
    have cycle := runs.cycle
    simp only [Lane.inCycle, Bool.and_eq_true] at cycle
    exact cycle.1.1.1
  simp only [exec, execTelegramFetchRx, State.begin_lane, stored]
  rw [if_pos live]

end

/-! ## Fetched telegrams (R195) -/

theorem positions_map_range {α : Type} (f : Nat → α) (n : Nat) :
    positions ((List.range n).map f) = (List.range n).map fun k => (k, f k) := by
  apply List.ext_getElem <;> simp [positions]

/-- What an intake coder that works forms decodes back (R57, R65). -/
theorem Lane.coderBack_codeTel (l : Lane) (p : Nat) (net : NetId) (d : List Byte) (n : Cycle) :
    l.coderBack p (l.codeTel p net d n 0) d n = true := by
  simp [Lane.coderBack, Lane.codeTel, positions_map_range]

theorem Lane.countValid_store (l : Lane) (p : Nat) (t : Tel) : (l.countValid p t).store = l.store :=
  congrArg IntakeRest.store (l.countValid_intakeRest p t)

/-- Counting a valid telegram leaves the fetches and their figures (R192). -/
theorem Lane.countValid_fetches (l : Lane) (p : Nat) (t : Tel) :
    (l.countValid p t).stats.a = l.stats.a ∧ (l.countValid p t).field.fetches = l.field.fetches := by
  unfold Lane.countValid
  cases t.net <;> exact ⟨rfl, rfl⟩

/-- The lane with the fetch of a station ended (R195). -/
def Lane.endFetch (l : Lane) (pos : Nat) : Lane :=
  { l with field := { l.field with fetches := l.field.fetches.filter (· != pos) } }

/-- The lane with a fetched telegram held and counted (R192, R195). -/
def Lane.holdFetched (l : Lane) (pos : Nat) (t : Tel) : Lane :=
  let k := (l.countValid pos t).statA fun a => { a with fetched := a.fetched + 1 }
  { k with field := { k.field with hold := Mem.set none k.field.hold pos (some t) } }

/-- A copy that was asked for, passes every check of R175 and is the target is held and counted (R195). -/
theorem exec_fetchReplyRx {s : State} {l : LaneId} {img : Image} (runs : RunsCycle s l img) {pos : Nat} {net : NetId}
    {fr : FieldFrame} {tel : Tel} (asked : pos ∈ (s.lane l).field.fetches) (unsent : (s.lane l).field.r2Sent = false)
    (coder : fr.coderErr = 0) (nets : img.tableSound netTable 0 = true) (params : img.tableSound paramTable 0 = true)
    (good : frameOk (img.netOf net) fr = true) (found : (s.lane l).telStation img net fr.srcIp fr.data = .ok pos)
    (sound : stationSound img pos = true)
    (tag : (s.lane l).telTagOk l ((img.stations[pos]?.map (·.stnId)).getD 0) fr.data = true)
    (coded : tel = (s.lane l).codeTel pos net fr.data (s.lane l).cyc.num 0)
    (timely : (s.lane l).telLate pos tel (s.lane l).cyc.num = none)
    (target : Mem.get none (s.lane l).field.targets pos = some (tel.seq.setWidth 16)) :
    exec (.fetchReplyRx l pos net fr) s = .next (s.begin.setLane l (((s.lane l).endFetch pos).holdFetched pos tel)) := by
  let m := (s.lane l).endFetch pos
  have tagged : m.telTagOk l ((img.stations[pos]?.map (·.stnId)).getD 0) fr.data = true := tag
  have received : m.receiveTel l img net fr (s.lane l).cyc.num = (m, some (pos, tel)) := by
    rw [Lane.receiveTel_of_frameOk nets good, Lane.admitTel_of_ok (l := m) params found sound, coder, m.coderBack_codeTel, tagged,
      coded]
    rfl
  have isTarget : m.fetchedIs pos (some (pos, tel)) = some tel := by
    have late : m.telLate pos tel m.cyc.num = none := timely
    have wanted : Mem.get none m.field.targets pos = some (tel.seq.setWidth 16) := target
    simp [Lane.fetchedIs, late, wanted]
  simp only [exec, execFetchReplyRx, State.begin_lane, runs.image]
  rw [if_neg (by simp [asked, unsent, runs.cycle])]
  simp only [m, Lane.endFetch] at received isTarget
  simp only [received, isTarget]
  rfl

/-! ## The agreed set (R196, R197) -/

/-- `m` is `l` with stations agreed, and counted (R192, R196). -/
structure Lane.Agrees (l m : Lane) : Prop where
  rest : m = { l with
    field := { l.field with agreed := m.field.agreed, inSet := m.field.inSet }
    stats := m.stats }

/-- The lane's own copy of the telegram that is agreed for a station (R196, R197). -/
def Lane.agreedCopy (l : Lane) (x : LaneId) (r : PerLane (List (Nat × Half))) (p : Nat) : Option Tel :=
  (l.agreedSeq x r p).bind (l.copyOf p)

namespace Lane.Agrees

theorem refl (l : Lane) : Agrees l l := ⟨rfl⟩

theorem trans {l m k : Lane} (h : Agrees l m) (i : Agrees m k) : Agrees l k := ⟨by rw [i.rest, h.rest]⟩

/-- Stations that are agreed enter no other station's agreement. -/
theorem agreedCopy {l m : Lane} (h : Agrees l m) (x : LaneId) (r : PerLane (List (Nat × Half))) (p : Nat) :
    m.agreedCopy x r p = l.agreedCopy x r p := by
  rw [h.rest]
  rfl

theorem agreeStation (x : LaneId) (r : PerLane (List (Nat × Half))) (l : Lane) (p : Nat) :
    Agrees l (Lane.agreeStation x r l p) := by
  unfold Lane.agreeStation
  split
  · exact refl l
  · dsimp only
    split <;> exact ⟨rfl⟩

end Lane.Agrees

namespace Lane

section
variable (x : LaneId) (r : PerLane (List (Nat × Half))) (l : Lane) (p : Nat)

/-- A station not agreed before is agreed on the copy that the lane has of the number agreed (R196, R197). -/
theorem agreeStation_same (fresh : Mem.get none l.field.agreed p = none) :
    Mem.get none (agreeStation x r l p).field.agreed p = l.agreedCopy x r p := by
  unfold agreeStation agreedCopy
  cases l.agreedSeq x r p with
  | none => exact fresh
  | some v =>
    dsimp only [Option.bind_some]
    cases l.copyOf p v with
    | none => exact fresh
    | some t => exact Mem.get_set_some ..

theorem agreeStation_other {q : Nat} (h : q ≠ p) :
    Mem.get none (agreeStation x r l p).field.agreed q = Mem.get none l.field.agreed q := by
  unfold agreeStation
  split
  · rfl
  · dsimp only
    split
    · rfl
    next t _ => exact Mem.get_set_other none (some t) h

end

/-- In `m`, the lane `l` with some stations agreed, a station is not agreed yet. -/
def StationWaits (l m : Lane) (p : Nat) : Prop := Agrees l m ∧ Mem.get none m.field.agreed p = none

/-- The agreement is settled: every station of the image has what the lane has of the number agreed, and the cycle is marked
(R196, R197). -/
theorem agree_fields {l : Lane} (empty : l.field.agreed = []) (x : LaneId) (img : Image) : let m := l.agree x img
    m.store = l.store ∧ m.lio = l.lio ∧ m.ptn = l.ptn ∧ m.cyc = { l.cyc with agreed := true } ∧
      ∀ p, p < img.stations.length → Mem.get none m.field.agreed p = l.agreedCopy x (l.reports x) p := by
  let r := l.reports x
  obtain ⟨settled, waits⟩ := foldl_range_settles (op := agreeStation x r) (Fresh := l.StationWaits)
    (Settled := fun m p => Mem.get none m.field.agreed p = l.agreedCopy x r p)
    (fun m p fresh => (agreeStation_same x r m p fresh.2).trans (fresh.1.agreedCopy x r p))
    (fun m p q hq fresh => ⟨fresh.1.trans (.agreeStation x r m p), (agreeStation_other x r m p hq).trans fresh.2⟩)
    (fun m p q hq settled => (agreeStation_other x r m p hq).trans settled)
    img.stations.length (s := l) fun p => ⟨.refl l, congrArg (Mem.get none · p) empty⟩
  obtain ⟨agrees, -⟩ := waits _ (Nat.le_refl _)
  refine ⟨?_, ?_, ?_, ?_, settled⟩
  · exact congrArg (·.store) agrees.rest
  · exact congrArg (·.lio) agrees.rest
  · exact congrArg (·.ptn) agrees.rest
  · exact congrArg (fun m => { m.cyc with agreed := true }) agrees.rest

/-- The start of P5 leaves the agreed set, and the count of the cycle sets missed (R116, R218). -/
theorem startP5_agreed (l : Lane) (img : Image) (t walk : Nat) :
    (l.startP5 img t walk).field.agreed = l.field.agreed ∧ (l.startP5 img t walk).lio.missed = l.lio.missed := by
  have keeps {k m : Lane} (h : Starts k m) (agreed : k.field.agreed = l.field.agreed) (missed : k.lio.missed = l.lio.missed) :
      m.field.agreed = l.field.agreed ∧ m.lio.missed = l.lio.missed :=
    ⟨(congrArg (·.field.agreed) h.rest).trans agreed, (congrArg (·.lio.missed) h.rest).trans missed⟩
  unfold startP5
  dsimp only
  split
  · exact ⟨rfl, rfl⟩
  · split
    · exact keeps (.startPhase ..) rfl rfl
    · exact keeps ((Starts.of_fails (.tableFail ..)).trans (.startPhase ..)) rfl rfl

/-- The lane with its agreement settled, its deadline judged at instant `t`, and a cycle set that is not held counted as missed
(R24, R196, R218). -/
def agreementSettled (m : Lane) (x : LaneId) (img : Image) (t : Nat) : Lane :=
  let k := (m.agree x img).meet 4 (dAgree img.hdr) t
  if m.lio.gotSet then k else { k with lio := { k.lio with missed := k.lio.missed + 1 } }

theorem agreementSettled_fields {m : Lane} (run : m.cyc.running = true) (empty : m.field.agreed = []) (x : LaneId)
    (img : Image) (t : Nat) : let k := m.agreementSettled x img t
    k.store = m.store ∧ k.ptn = m.ptn ∧ (m.lio.gotSet = false → k.lio.missed = m.lio.missed + 1) ∧
      k.cyc = { m.cyc with
        agreed := true
        drop := if t ≤ dAgree img.hdr then m.cyc.drop else some (m.cyc.drop.getD { cause := 1, phase := 4 }) } ∧
      ∀ p, p < img.stations.length → Mem.get none k.field.agreed p = m.agreedCopy x (m.reports x) p := by
  obtain ⟨store, lio, ptn, cyc, agreed⟩ := agree_fields empty x img
  have rest := (m.agree x img).meet_rest 4 (dAgree img.hdr) t
  have met : ((m.agree x img).meet 4 (dAgree img.hdr) t).cyc = _ := meet_cyc (by rw [cyc]; exact run) ..
  rw [cyc] at met
  have field := congrArg (·.field.agreed) rest
  unfold agreementSettled
  dsimp only
  split <;>
    refine ⟨(congrArg (·.store) rest).trans store, (congrArg (·.ptn) rest).trans ptn, fun missing => ?_, met,
      fun p hp => (congrArg (Mem.get none · p) field).trans (agreed p hp)⟩
  case isTrue got => simp [got] at missing
  case isFalse => exact congrArg (·.missed + 1) ((congrArg (·.lio) rest).trans lio)

/-- The lane at the end of P4: P5 starts where the sweep is complete (R30). -/
def agreementEnded (m : Lane) (x : LaneId) (img : Image) (t walk : Nat) : Lane :=
  let k := m.agreementSettled x img t
  if k.cyc.sweep || !k.evaluates then k.startP5 img t walk else k

theorem agreementEnded_fields {m : Lane} (run : m.cyc.running = true) (evaluates : m.evaluates = true)
    (empty : m.field.agreed = []) (x : LaneId) (img : Image) (t walk : Nat) : let k := m.agreementEnded x img t walk
    k.store.phys = m.store.phys ∧ (m.lio.gotSet = false → k.lio.missed = m.lio.missed + 1) ∧ k.cyc.agreed = true ∧
      k.cyc.p5 = (m.cyc.p5 || m.cyc.sweep) ∧
      (dAgree img.hdr < t → k.cyc.drop = some (m.cyc.drop.getD { cause := 1, phase := 4 })) ∧
      ∀ p, p < img.stations.length → Mem.get none k.field.agreed p = m.agreedCopy x (m.reports x) p := by
  obtain ⟨store, ptn, missed, cyc, agreed⟩ := agreementSettled_fields run empty x img t
  have runs : (m.agreementSettled x img t).evaluates = true := by rw [Lane.evaluates, ptn]; exact evaluates
  have drop (late : dAgree img.hdr < t) :
      (m.agreementSettled x img t).cyc.drop = some (m.cyc.drop.getD { cause := 1, phase := 4 }) := by
    rw [cyc]
    exact if_neg (by omega)
  unfold agreementEnded
  dsimp only
  rw [runs, Bool.not_true, Bool.or_false, show (m.agreementSettled x img t).cyc.sweep = m.cyc.sweep by rw [cyc]]
  split
  case isTrue swept =>
    obtain ⟨phys, p5cyc, -, stands⟩ := (m.agreementSettled x img t).startP5_fields img t walk
    obtain ⟨kept, missedKept⟩ := (m.agreementSettled x img t).startP5_agreed img t walk
    refine ⟨phys.trans (congrArg (·.phys) store), fun h => missedKept.trans (missed h), ?_, ?_, fun late => stands _ (drop late),
      fun p hp => (congrArg (Mem.get none · p) kept).trans (agreed p hp)⟩
    · rw [p5cyc, cyc]
    · rw [p5cyc, swept, Bool.or_true]
  case isFalse unswept =>
    refine ⟨congrArg (·.phys) store, missed, ?_, ?_, drop, agreed⟩
    · rw [cyc]
    · rw [cyc, Bool.eq_false_iff.mpr unswept, Bool.or_false]

end Lane

section
variable {s : State} {l : LaneId} {img : Image} (runs : RunsCycle s l img)
include runs

/-- P4 ends once every peer's round-2 frame is held or D_agree has come, and with D_agree the silence is judged (R196, R241). -/
theorem exec_agreementEnd (sent : (s.lane l).field.r2Sent = true) (unsettled : (s.lane l).cyc.agreed = false) {t : Nat}
    (due : dAgree img.hdr ≤ t ∨ ∀ y, y ≠ l → (s.lane l).serves y = true → ((s.lane l).field.r2.get y).isSome = true)
    (walk : Nat) : ∃ u, exec (.agreementEnd l t walk) s = .next u ∧ KeepsOthers s u l ∧
      Lane.Judges ((s.lane l).agreementEnded l img t walk) (u.lane l) := by
  let k := (s.lane l).agreementEnded l img t walk
  have ends : ((laneList.all fun y => y == l || !(s.lane l).serves y || ((s.lane l).field.r2.get y).isSome) ||
      decide (dAgree img.hdr ≤ t)) = true := by
    rw [Bool.or_eq_true, decide_eq_true_eq, laneList_all]
    refine due.symm.imp_left fun held y => ?_
    by_cases own : y = l
    · simp [own]
    · cases serves : (s.lane l).serves y
      · simp
      · simp [held y own serves]
  have step : exec (.agreementEnd l t walk) s = .next ((s.begin.setLane l k).passAgree l img t) := by
    simp only [exec, execAgreementEnd, State.begin_lane, runs.image]
    rw [if_neg (by simp [runs.cycle, runs.phased, sent, unsettled, ends])]
    rfl
  obtain ⟨others, judges⟩ := (s.begin.setLane l k).passAgree_lane l img t
  rw [State.setLane_lane_same] at judges
  exact ⟨_, step, fun y hy => by rw [others y hy, State.setLane_lane_other _ _ hy, State.begin_lane], judges⟩

/-- Round 2 reports what is held, and fetches still outstanding are not answered in time (R192, R196). -/
theorem exec_round2Send (done : (s.lane l).field.r1Done = true) (unsent : (s.lane l).field.r2Sent = false)
    (unsettled : (s.lane l).cyc.agreed = false) (serves : (s.lane l).serves l = true) : let m := s.lane l
    exec (.round2Send l) s = .next ((s.begin.setLane l { m with
      stats := { m.stats with b := { m.stats.b with fetchBad := m.stats.b.fetchBad + m.field.fetches.length } }
      field := { m.field with r2Sent := true, fetches := [] } }).xcast l
        (.round2 { cyc := m.cyc.num, held := m.field.hold.map (·.1) })) := by
  simp only [exec, execRound2Send, State.begin_lane]
  rw [if_neg (by simp [runs.cycle, runs.phased, done, unsent, unsettled]), if_pos serves]
  rfl

theorem exec_round2FrameRx {sender : LaneId} (serves : (s.lane l).serves sender = true) (other : sender ≠ l) {f : Round2}
    (num : f.cyc = (s.lane l).cyc.num) (unsettled : (s.lane l).cyc.agreed = false) :
    exec (.round2FrameRx l sender f) s = .next (s.begin.setLane l { s.lane l with
      field := { (s.lane l).field with r2 := (s.lane l).field.r2.put sender (some f) } }) := by
  simp only [exec, execRound2FrameRx, State.begin_lane]
  rw [if_pos (by simp [runs.cycle, serves, other, num, unsettled])]

end

/-- Round 1 waits for the freeze and for every frame (R194). -/
theorem State.tryRound1_of_not_heard {s : State} {x : LaneId}
    (h : (s.lane x).cyc.frozen = false ∨ (s.lane x).heardAll x = false) : s.tryRound1 x = s := by
  rw [State.tryRound1, if_neg]
  rcases h with h | h <;> simp [Lane.round1Open, h]

/-- The last frame that is needed settles round 1 (R194, R195). -/
theorem State.tryRound1_of_heard {s : State} {x : LaneId} (isOpen : (s.lane x).round1Open x = true)
    (heard : (s.lane x).heardAll x = true) : s.tryRound1 x = s.settleRound1 x := by
  rw [State.tryRound1, isOpen, heard]
  rfl

/-- Settles O40: each frame by the rule of its step, round 1 and the agreement by what they settle for each station. -/
theorem agreement : Obligations.Agreement := by
  unfold Obligations.Agreement
  refine ⟨?_, ?_⟩
  · intro s l sender f1 f2 pos net fr tel img m runs
    refine ⟨fun serves other num undone => ⟨fun waits => ?_, fun frozen heard => ?_⟩,
      fun frozen undone targets hold fetches => ?_, exec_telegramFetchRx runs sender,
      fun asked unsent coder nets params good found sound tag coded timely target => ?_, exec_round2Send runs,
      fun serves other num unsettled => exec_round2FrameRx runs serves other num unsettled⟩
    · rw [exec_round1FrameRx runs serves other num undone, State.tryRound1_of_not_heard]
      rw [State.setLane_lane_same]
      exact waits
    · let k : Lane := { m with field := { m.field with r1 := m.field.r1.put sender (some f1) } }
      have held : (s.begin.setLane l k).lane l = k := State.setLane_lane_same ..
      obtain ⟨others, lane, -⟩ := State.settleRound1_spec (s := s.begin.setLane l k) (by rw [held]; exact runs.image)
      rw [exec_round1FrameRx runs serves other num undone, State.tryRound1_of_heard
        (by rw [held]; exact runs.round1Open frozen undone) (by rw [held]; exact heard)]
      refine ⟨_, rfl, fun y hy => by rw [others y hy, State.setLane_lane_other _ _ hy, State.begin_lane], ?_⟩
      rw [lane]
      exact (Lane.settleTargets_rest ..).1
    · obtain ⟨others, lane, asks⟩ := State.settleRound1_spec (s := s.begin) (x := l) (by rw [State.begin_lane]; exact runs.image)
      rw [State.begin_lane] at lane asks
      obtain ⟨done, store, cyc, cands⟩ := m.settleTargets_rest l img.stations.length
      refine ⟨_, exec_round1Deadline runs frozen undone, fun y hy => by rw [others y hy, State.begin_lane], ?_⟩
      rw [lane]
      refine ⟨done, store, cyc, cands, fun p hp => ?_⟩
      obtain ⟨target, held⟩ := Lane.settleTargets_settles targets hold l hp
      refine ⟨target, fun v settled => ⟨(held v settled).1, fun lacks => ?_⟩⟩
      obtain ⟨fetch, y, reports, request⟩ := (held v settled).2 lacks
      exact ⟨fetch, y, reports, fun b route => asks (y, p) request b route⟩
    · obtain ⟨figures, fetches⟩ := (m.endFetch pos).countValid_fetches pos tel
      refine ⟨_, exec_fetchReplyRx runs asked unsent coder nets params good found sound tag coded timely target,
        keepsOthers_setLane s.begin_lane _ _, ?_⟩
      rw [State.setLane_lane_same]
      refine ⟨Lane.countValid_store .., Mem.get_set_some .., fun q => ?_, congrArg (·.fetched + 1) figures⟩
      rw [show ((m.endFetch pos).holdFetched pos tel).field.fetches = m.field.fetches.filter (· != pos) from fetches]
      simp
  · intro s l t walk img m runs sent unsettled due empty
    obtain ⟨u, step, others, judges⟩ := exec_agreementEnd runs sent unsettled due walk
    obtain ⟨phys, missed, agreed, p5, drop, stations⟩ :=
      Lane.agreementEnded_fields runs.running runs.evaluates empty l img t walk
    refine ⟨u, step, others, ?_, ?_, ?_, fun late => ?_, fun unset => ?_, fun p hp => ?_⟩
    · rw [judges.cyc]
      exact agreed
    · rw [judges.cyc]
      exact p5
    · rw [judges.store]
      exact phys
    · rw [judges.cyc]
      exact drop late
    · rw [judges.rest]
      exact missed unset
    · have copy : Mem.get none (u.lane l).field.agreed p = (m.agreedSeq l (m.reports l) p).bind (m.copyOf p) := by
        rw [judges.rest]
        exact stations p hp
      exact ⟨fun unpicked => copy.trans (congrArg (Option.bind · (m.copyOf p)) unpicked),
        fun v picked => copy.trans (congrArg (Option.bind · (m.copyOf p)) picked)⟩

end Sys2Proof.Machine
end

section
/-!
PROOFS. What the FCU's operations on one group or one channel leave of every group and every channel
(spec/10_local_vital_io.md R221 to R234).
-/
namespace Sys2Proof.Machine

/-! ## The channels of a group -/

/-- A group's channels are those of its number (R144). -/
theorem mem_channelsOf {c : Fin 32} {g : Fin 4} : c ∈ channelsOf g ↔ groupOf c = g := by revert c g; decide

/-- A channel's place in its group (R144). -/
theorem mem_positions_channelsOf {g : Fin 4} {p : Nat × Fin 32} (h : p ∈ positions (channelsOf g)) :
    p.2.val = 8 * g.val + p.1 := by
  revert p g
  decide

/-- Every place of a group holds a channel (R144). -/
theorem positions_channelsOf_mem (g : Fin 4) (k : Fin 8) :
    ∃ c : Fin 32, c.val = 8 * g.val + k.val ∧ (k.val, c) ∈ positions (channelsOf g) := by
  revert g k
  decide

namespace Fcu

/-! ## One group, one channel -/

theorem modGrp_group_same (f : Fcu) (g : Fin 4) (h : FcuGrp → FcuGrp) : (f.modGrp g h).groups[g] = h f.groups[g] := by
  simp [modGrp]

theorem modGrp_group_other (f : Fcu) {g k : Fin 4} (h : FcuGrp → FcuGrp) (hk : k ≠ g) :
    (f.modGrp g h).groups[k] = f.groups[k] := by
  simp [modGrp, Vector.getElem_set_ne _ _ (Fin.val_ne_of_ne hk.symm)]

theorem modCh_chan_same (f : Fcu) (c : Fin 32) (h : FcuCh → FcuCh) : (f.modCh c h).chans[c] = h f.chans[c] := by
  simp [modCh]

theorem modCh_chan_other (f : Fcu) {c k : Fin 32} (h : FcuCh → FcuCh) (hk : k ≠ c) :
    (f.modCh c h).chans[k] = f.chans[k] := by
  simp [modCh, Vector.getElem_set_ne _ _ (Fin.val_ne_of_ne hk.symm)]

theorem SwitchesOnly.modCh (f : Fcu) (c : Fin 32) (h : FcuCh → FcuCh) : SwitchesOnly f (f.modCh c h) := ⟨rfl⟩

/-- Changes of single channels leave the groups. -/
theorem foldl_groups {α : Type} {op : Fcu → α → Fcu} (h : ∀ f a, (op f a).groups = f.groups) (as : List α) (f : Fcu) :
    (as.foldl op f).groups = f.groups := by
  induction as generalizing f with
  | nil => rfl
  | cons a as ih => exact (ih _).trans (h f a)

/-- Where each step changes its own group alone, what a run over several groups leaves of one is what its step leaves, in an
FCU that every step before has kept to `P`. -/
theorem foldl_group_step {op : Fcu → Fin 4 → Fcu} {P : Fcu → Prop} (keeps : ∀ f g, P f → P (op f g))
    (others : ∀ f g k, k ≠ g → (op f g).groups[k] = f.groups[k]) {gs : List (Fin 4)} (once : gs.Nodup) {k : Fin 4}
    (hk : k ∈ gs) {f : Fcu} (hf : P f) :
    ∃ u, P u ∧ u.groups[k] = f.groups[k] ∧ (gs.foldl op f).groups[k] = (op u k).groups[k] := by
  have later : ∀ (gs : List (Fin 4)) (f : Fcu), k ∉ gs → (gs.foldl op f).groups[k] = f.groups[k] := by
    intro gs
    induction gs with
    | nil => intro f _; rfl
    | cons g gs ih =>
      intro f away
      rw [List.mem_cons, not_or] at away
      exact (ih _ away.2).trans (others f g k away.1)
  induction gs generalizing f with
  | nil => cases hk
  | cons g gs ih =>
    rw [List.nodup_cons] at once
    by_cases e : k = g
    · subst e
      exact ⟨f, hf, rfl, later gs _ once.1⟩
    · obtain ⟨u, hu, same, ends⟩ := ih once.2 (List.mem_of_ne_of_mem e hk) (keeps f g hf)
      exact ⟨u, hu, same.trans (others f g k e), ends⟩

theorem groupList_nodup : groupList.Nodup := by decide

theorem mem_groupList (g : Fin 4) : g ∈ groupList := by revert g; decide

/-! ## Switches that open -/

/-- Every switch of a group is open. -/
def Dark (f : Fcu) (g : Fin 4) : Prop := ∀ k : Fin 32, groupOf k = g → f.chans[k].on = false

theorem shut_groups (f : Fcu) : f.shut.groups = f.groups := by simp only [shut]

theorem shut_chan (f : Fcu) (k : Fin 32) : f.shut.chans[k] = f.chans[k].switch (f.chans[k].isOn && f.wants k) := by
  simp only [shut, Fin.getElem_fin, Vector.getElem_ofFn]

/-- A channel whose command may not close its switch is off (R221). -/
theorem shut_off {f : Fcu} {k : Fin 32} (h : f.wants k = false) : f.shut.chans[k].on = false := by
  rw [shut_chan, h]
  simp [FcuCh.switch]

/-- A group that does not follow its commands closes no switch (R221). -/
theorem wants_of_not_follows {f : Fcu} {k : Fin 32} (h : f.follows (groupOf k) = false) : f.wants k = false := by
  simp [wants, h]

/-- A group that does not follow its commands is dark (R221). -/
theorem shut_dark {f : Fcu} {g : Fin 4} (h : f.follows g = false) : f.shut.Dark g := fun _ hk =>
  shut_off (wants_of_not_follows (hk ▸ h))

theorem driveGroup_groups (f : Fcu) (low : Bool) (g : Fin 4) : (f.driveGroup low g).groups = f.groups := by
  simp only [driveGroup]

/-- The channels of a group that is driven (R222, R231, R234). -/
theorem driveGroup_chan (f : Fcu) (low : Bool) {g : Fin 4} {k : Fin 32} (hk : groupOf k = g) :
    (f.driveGroup low g).chans[k] = f.driveCh low k := by
  simp [driveGroup, hk]

/-- The switch of a channel that is driven: it is closed where its command may close it and no dip holds it back (R221, R228,
R235). -/
theorem driveCh_on (f : Fcu) (low : Bool) (k : Fin 32) :
    let x := f.chans[k]
    (f.driveCh low k).on = (f.wants k && (x.isOn || !(low || x.dip)) && !x.pulse) := by
  have held : ∀ want isOn dips pulse : Bool, (want && !(want && !isOn && dips) && !pulse) = (want && (isOn || !dips) && !pulse) := by
    decide
  exact held ..

/-- A group that does not follow its commands stays dark when it is driven (R221). -/
theorem driveGroup_dark {f : Fcu} {g : Fin 4} (low : Bool) (h : f.follows g = false) : (f.driveGroup low g).Dark g :=
  fun k hk => by
    rw [driveGroup_chan f low hk, driveCh_on, wants_of_not_follows (hk ▸ h)]
    rfl

/-- A group that is neither NORMAL nor DEGRADED does not follow its commands (R221). -/
theorem not_follows_of_st {f : Fcu} {g : Fin 4} (hn : f.groups[g].st ≠ .normal) (hd : f.groups[g].st ≠ .degraded) :
    f.follows g = false := by
  simp only [follows, beq_false_of_ne hn, beq_false_of_ne hd, Bool.or_self, Bool.false_and]

/-- A group whose VPR is de-energised does not follow its commands (R221). -/
theorem not_follows_of_vpr {f : Fcu} {g : Fin 4} (h : f.groups[g].vpr = false) : f.follows g = false := by
  simp only [follows, h, Bool.and_false, Bool.false_and]

/-! ## LATCHED -/

/-- A group that latches has its cut switch open and no limit (R226, R231). -/
theorem latch_group_same (f : Fcu) (g : Fin 4) :
    (f.latch g).groups[g] = { f.groups[g].stopLimit with st := .latched, cut := true, check := false } := by
  rw [latch, shut_groups, modGrp_group_same]

theorem latch_group_other (f : Fcu) {g k : Fin 4} (hk : k ≠ g) : (f.latch g).groups[k] = f.groups[k] := by
  rw [latch, shut_groups, modGrp_group_other f _ hk]

theorem latch_st (f : Fcu) (g : Fin 4) : (f.latch g).groups[g].st = .latched := by rw [latch_group_same]

/-- A LATCHED group does not follow its commands (R221). -/
theorem latch_follows (f : Fcu) (g : Fin 4) : (f.latch g).follows g = false :=
  not_follows_of_st (by simp [latch_st, -Fin.getElem_fin]) (by simp [latch_st, -Fin.getElem_fin])

theorem latch_dark (f : Fcu) (g : Fin 4) : (f.latch g).Dark g := by
  refine shut_dark (not_follows_of_st ?_ ?_) <;> rw [modGrp_group_same] <;> exact GrpSt.noConfusion

/-- Latching leaves the fault codes of the channels. -/
theorem latch_chan_fault (f : Fcu) (g : Fin 4) (k : Fin 32) : (f.latch g).chans[k].fault = f.chans[k].fault := by
  rw [latch, shut_chan]
  rfl

end Fcu
end Sys2Proof.Machine
end

section
/-!
PROOFS. O46: input filters, path tests, read-back tests, RESTORE and an FCU fault (spec/10_local_vital_io.md R214 to R234).
-/
namespace Sys2Proof.Machine

/-! ## Samples -/

/-- What one sample leaves of an input: its level by the thresholds, its counter by the level, its output by the ends of the
counter (R214, R215). -/
theorem FcuIn.sample_fields {i j : FcuIn} {lim : Nat} {v : Int} (hj : j = i.sample lim v) :
    (90 ≤ v → j.raw = true ∧ j.c = min (i.c + 1) lim) ∧ (v ≤ 80 → j.raw = false ∧ j.c = i.c - 1) ∧
      (80 < v → v < 90 → j.raw = i.raw ∧ j.c = if i.raw then min (i.c + 1) lim else i.c - 1) ∧
      (j.c = 0 → j.out = false) ∧ (0 < j.c → j.c = lim → j.out = true) ∧ (0 < j.c → j.c ≠ lim → j.out = i.out) ∧
      j.n = min (i.n + 1) lim := by
  have level : j.raw = readLevel i.raw v := hj ▸ rfl
  have counts : j.c = if j.raw then min (i.c + 1) lim else i.c - 1 := hj ▸ rfl
  have puts : j.out = if j.c = 0 then false else if j.c = lim then true else i.out := hj ▸ rfl
  refine ⟨fun high => ?_, fun low => ?_, fun above below => ?_, fun zero => ?_, fun pos full => ?_, fun pos short => ?_, hj ▸ rfl⟩
  · have raw : j.raw = true := level.trans (if_pos high)
    exact ⟨raw, by rw [counts, raw, if_pos rfl]⟩
  · have raw : j.raw = false := level.trans ((if_neg (by omega)).trans (if_pos low))
    exact ⟨raw, by rw [counts, raw, if_neg Bool.false_ne_true]⟩
  · have raw : j.raw = i.raw := level.trans ((if_neg (by omega)).trans (if_neg (by omega)))
    exact ⟨raw, by rw [counts, raw]⟩
  · rw [puts, if_pos zero]
  · rw [puts, if_neg (by omega), if_pos full]
  · rw [puts, if_neg (by omega), if_neg short]

namespace Fcu

/-- The inputs after a scan: one with a voltage and a limit takes the sample (R215). -/
def sampled (f : Fcu) (volts : List (Option Int)) : Vector FcuIn 33 :=
  Vector.ofFn fun n : Fin 33 =>
    match (volts[n.val]?).join, f.limit n with
    | some v, some l => f.inputs[n].sample l v
    | _, _ => f.inputs[n]

theorem sampled_taken {f : Fcu} {volts : List (Option Int)} {k : Fin 33} {v : Int} {lim : Nat}
    (hv : volts[k.val]? = some (some v)) (hl : f.limit k = some lim) : (f.sampled volts)[k] = f.inputs[k].sample lim v := by
  simp only [sampled, Fin.getElem_fin, Vector.getElem_ofFn, Fin.eta, hv, hl, Option.join_some]

theorem sampled_missed {f : Fcu} {volts : List (Option Int)} {k : Fin 33}
    (h : (∀ v, volts[k.val]? ≠ some (some v)) ∨ f.limit k = none) : (f.sampled volts)[k] = f.inputs[k] := by
  simp only [sampled, Fin.getElem_fin, Vector.getElem_ofFn, Fin.eta]
  split
  · next v lim hv hl =>
    rcases h with none | none
    · exact absurd (Option.join_eq_some_iff.mp hv) (none v)
    · rw [none] at hl
      cases hl
  · rfl

/-- The groups with the L+ of a scan (R234). -/
def measured (f : Fcu) (mv : List Nat) : Vector FcuGrp 4 :=
  Vector.ofFn fun g : Fin 4 => { f.groups[g] with mv := mv.getD g.val f.groups[g].mv }

/-- The channels with the read-back of a scan (R227). -/
def readBack (f : Fcu) (high : List Bool) : Vector FcuCh 32 :=
  Vector.ofFn fun c : Fin 32 => { f.chans[c] with rb := high.getD c.val f.chans[c].rb }

/-- The FCU as a scan finds it, before a jam of RESTORE is judged (R214, R215, R227, R234). -/
def scanned (f : Fcu) (x : InputScan) : Fcu :=
  { f with inputs := f.sampled x.volts, groups := f.measured x.mv, chans := f.readBack x.high }

/-- The rest after a jam moves the jam alone, which ends with 2,000 samples of rest (R232). -/
theorem restJam_fields (f : Fcu) :
    f.restJam = { f with jam := f.restJam.jam, jamRest := f.restJam.jamRest } ∧
      f.restJam.jam = (f.jam && (f.inputs[(32 : Fin 33)].out || decide (f.jamRest + 1 < 2000))) := by
  have free : ∀ jam out rests : Bool, (!jam || out) = true → jam = (jam && (out || rests)) := by decide
  unfold restJam
  split_ifs with idle rested
  · exact ⟨rfl, free _ _ _ idle⟩
  · rw [Bool.or_eq_true, not_or, Bool.not_eq_true, Bool.not_eq_true] at idle
    refine ⟨rfl, ?_⟩
    rw [idle.2, decide_eq_false (by omega)]
    simp
  · refine ⟨rfl, ?_⟩
    rw [decide_eq_true (by omega)]
    simp

theorem restJam_inputs (f : Fcu) : f.restJam.inputs = f.inputs := by rw [f.restJam_fields.1]
theorem restJam_groups (f : Fcu) : f.restJam.groups = f.groups := by rw [f.restJam_fields.1]
theorem restJam_chans (f : Fcu) : f.restJam.chans = f.chans := by rw [f.restJam_fields.1]

/-- What new inputs, groups and channels and then the rest after a jam leave of the FCU. -/
theorem restJam_switched (f : Fcu) (ins : Vector FcuIn 33) (grps : Vector FcuGrp 4) (chs : Vector FcuCh 32) :
    let g := ({ f with inputs := ins, groups := grps, chans := chs } : Fcu).restJam
    g = { f with inputs := g.inputs, groups := g.groups, chans := g.chans, jam := g.jam, jamRest := g.jamRest } ∧
      g.groups = grps ∧ g.chans = chs ∧ g.inputs = ins ∧
      g.jam = (f.jam && (g.inputs[(32 : Fin 33)].out || decide (f.jamRest + 1 < 2000))) := by
  obtain ⟨rest, jam⟩ := ({ f with inputs := ins, groups := grps, chans := chs } : Fcu).restJam_fields
  dsimp only at rest jam ⊢
  simp only [restJam_inputs, restJam_groups, restJam_chans]
  exact ⟨rest, trivial, trivial, trivial, jam⟩

end Fcu

/-- A scan is taken, and then a jam is judged (R214, R232). -/
theorem exec_inputSample (x : InputScan) (s : State) :
    exec (.inputSample x) s = .next { s.begin with fcu := (s.fcu.scanned x).restJam } := rfl

/-! ## Path tests -/

/-- An input after a path test (R216). -/
def FcuIn.pathTested (i : FcuIn) (zero : Bool) : FcuIn :=
  if zero then { i with failRun := 0, passRun := i.passRun + 1, pathFail := i.pathFail && i.passRun + 1 < 3 }
  else { i with passRun := 0, failRun := i.failRun + 1, pathFail := i.pathFail || 2 ≤ i.failRun + 1 }

/-- The second failure in a row makes an input bad (R216). -/
theorem FcuIn.pathTested_fails (i : FcuIn) :
    i.pathTested false = { i with
      passRun := 0
      failRun := i.failRun + 1
      pathFail := i.pathFail || decide (1 ≤ i.failRun) } := by
  simp [pathTested]

/-- A pass before the third leaves an input as bad as it was (R216). -/
theorem FcuIn.pathTested_passes {i : FcuIn} (h : i.pathFail = false ∨ i.passRun < 2) :
    i.pathTested true = { i with failRun := 0, passRun := i.passRun + 1 } := by
  have keeps : (i.pathFail && decide (i.passRun + 1 < 3)) = i.pathFail := by
    rcases h with good | early
    · rw [good, Bool.false_and]
    · rw [decide_eq_true (by omega), Bool.and_true]
  simp only [pathTested, keeps, if_true]

/-- The third pass in a row makes an input good again (R216). -/
theorem FcuIn.pathTested_clears {i : FcuIn} (third : 2 ≤ i.passRun) :
    i.pathTested true = { i with failRun := 0, passRun := i.passRun + 1, pathFail := false } := by
  have clears : (i.pathFail && decide (i.passRun + 1 < 3)) = false := by rw [decide_eq_false (by omega), Bool.and_false]
  simp only [pathTested, clears, if_true]

namespace Fcu

/-- The FCU with one input replaced. -/
def putIn (f : Fcu) (k : Fin 33) (i : FcuIn) : Fcu := { f with inputs := f.inputs.set k.val i }

theorem putIn_putIn (f : Fcu) (k : Fin 33) (i j : FcuIn) : (f.putIn k i).putIn k j = f.putIn k j := by
  simp only [putIn, Vector.set_set]

/-- An input's path alone moves with the input (R216). -/
theorem putIn_inputBad (f : Fcu) (k : Fin 33) (i : FcuIn) :
    (f.putIn k i).inputBad k = (f.fault || i.pathFail || f.domainLow k) := by
  have domain : (f.putIn k i).domainLow k = f.domainLow k := rfl
  have path : (f.putIn k i).inputs[k] = i := by simp [putIn]
  rw [inputBad, path, domain]
  rfl

end Fcu

/-- A path test moves its input, which is revalidated with the last cause of invalidity (R216). -/
theorem exec_inputPathTest (k : Fin 33) (zero : Bool) (s : State) :
    exec (.inputPathTest k zero) s =
      let i := s.fcu.inputs[k].pathTested zero
      .next { s.begin with fcu := if s.fcu.inputBad k && !(s.fcu.putIn k i).inputBad k
        then (s.fcu.putIn k i).putIn k i.restart else s.fcu.putIn k i } := rfl

/-- A path test that leaves an input as bad as it was does not revalidate it (R216). -/
theorem exec_inputPathTest_same {s : State} {k : Fin 33} {zero : Bool} {v : FcuIn} (hv : s.fcu.inputs[k].pathTested zero = v)
    (h : s.fcu.inputs[k].pathFail = true → v.pathFail = true) :
    exec (.inputPathTest k zero) s = .next { s.begin with fcu := s.fcu.putIn k v } := by
  have still : (s.fcu.inputBad k && !(s.fcu.putIn k v).inputBad k) = false := by
    rw [Fcu.putIn_inputBad, Fcu.inputBad]
    cases path : s.fcu.inputs[k].pathFail
    · cases s.fcu.fault <;> cases s.fcu.domainLow k <;> simp
    · rw [h path]
      simp
  rw [exec_inputPathTest]
  dsimp only
  rw [hv, if_neg (by rw [still]; exact Bool.false_ne_true)]

/-- A path test that ends the one cause of invalidity revalidates the input (R215, R216). -/
theorem exec_inputPathTest_clears {s : State} {k : Fin 33} {zero : Bool} {v : FcuIn} (hv : s.fcu.inputs[k].pathTested zero = v)
    (bad : s.fcu.inputs[k].pathFail = true) (good : v.pathFail = false) (runs : s.fcu.fault = false)
    (fed : s.fcu.domainLow k = false) :
    exec (.inputPathTest k zero) s = .next { s.begin with fcu := s.fcu.putIn k v.restart } := by
  have ends : (s.fcu.inputBad k && !(s.fcu.putIn k v).inputBad k) = true := by
    rw [Fcu.putIn_inputBad, Fcu.inputBad, bad, good, runs, fed]
    rfl
  rw [exec_inputPathTest]
  dsimp only
  rw [hv, if_pos ends, Fcu.putIn_putIn]

/-! ## Read-back tests -/

/-- A channel after a read-back test (R227). -/
def FcuCh.rbTested (c : FcuCh) (ok : Bool) : FcuCh :=
  if ok then
    let clear := c.rbLost && 3 ≤ c.rbPass + 1
    { c with rbFail := 0, rbPass := c.rbPass + 1, rbLost := c.rbLost && !clear, fault := if clear && c.fault == 4 then 0 else c.fault }
  else { c with rbPass := 0, rbFail := c.rbFail + 1, rbLost := c.rbLost || 2 ≤ c.rbFail + 1 }

/-- The second failure in a row loses a read-back path (R227). -/
theorem FcuCh.rbTested_fails (c : FcuCh) :
    c.rbTested false = { c with rbPass := 0, rbFail := c.rbFail + 1, rbLost := c.rbLost || decide (1 ≤ c.rbFail) } := by
  simp [rbTested]

/-- A pass before the third leaves a path as lost as it was (R227). -/
theorem FcuCh.rbTested_passes {c : FcuCh} (h : c.rbLost = false ∨ c.rbPass < 2) :
    c.rbTested true = { c with rbFail := 0, rbPass := c.rbPass + 1 } := by
  have keeps : (c.rbLost && decide (3 ≤ c.rbPass + 1)) = false := by
    rcases h with good | early
    · rw [good, Bool.false_and]
    · rw [decide_eq_false (by omega), Bool.and_false]
  simp only [rbTested, keeps, if_true, Bool.not_false, Bool.and_true, Bool.false_and, Bool.false_eq_true, if_false]

/-- The third pass in a row makes a lost path good again, and takes back its fault code (R227). -/
theorem FcuCh.rbTested_clears {c : FcuCh} (lost : c.rbLost = true) (third : 2 ≤ c.rbPass) :
    c.rbTested true = { c with
      rbFail := 0
      rbPass := c.rbPass + 1
      rbLost := false
      fault := if c.fault = 4 then 0 else c.fault } := by
  have clears : (c.rbLost && decide (3 ≤ c.rbPass + 1)) = true := by rw [lost, decide_eq_true (by omega), Bool.and_true]
  simp only [rbTested, clears, if_true, Bool.not_true, Bool.and_false, Bool.true_and, beq_iff_eq]

/-- A read-back test moves its channel, and may restore the coverage of its group (R227, R231). -/
theorem exec_readbackTest (ch : Fin 32) (ok : Bool) (s : State) :
    exec (.readbackTest ch ok) s = .next { s.begin with fcu :=
      ({ s.fcu with chans := s.fcu.chans.set ch.val (s.fcu.chans[ch].rbTested ok) } : Fcu).regain (groupOf ch) } := rfl

/-- Restored coverage moves one group (R231). -/
theorem Fcu.regain_group_other (f : Fcu) {g k : Fin 4} (hk : k ≠ g) : (f.regain g).groups[k] = f.groups[k] := by
  unfold regain
  split
  · exact modGrp_group_other f _ hk
  · rfl

/-- What a read-back test leaves: the channel as tested, and the groups, of which the channel's own may regain its coverage
(R227, R231). -/
theorem exec_readbackTest_leaves {s : State} {ch : Fin 32} {ok : Bool} {v : FcuCh} (hv : s.fcu.chans[ch].rbTested ok = v) :
    ∃ t, exec (.readbackTest ch ok) s = .next t ∧
      t = { s.begin with fcu := { s.fcu with chans := s.fcu.chans.set ch.val v, groups := t.fcu.groups } } ∧
      ∀ g : Fin 4, t.fcu.groups[g] = s.fcu.groups[g] ∨ (g = groupOf ch ∧ s.fcu.groups[g].st = .degraded ∧
        t.fcu.groups[g].st = .normal ∧ t.fcu.covered g = true) := by
  subst hv
  let u : Fcu := { s.fcu with chans := s.fcu.chans.set ch.val (s.fcu.chans[ch].rbTested ok) }
  have only : u.regain (groupOf ch) = { u with groups := (u.regain (groupOf ch)).groups } := by
    rw [(Fcu.SwitchesOnly.regain u (groupOf ch)).eq, u.regain_chans]
  refine ⟨_, exec_readbackTest .., congrArg (fun w => ({ s.begin with fcu := w } : State)) only, fun g => ?_⟩
  by_cases own : g = groupOf ch
  · subst own
    exact (u.regain_groups (groupOf ch) (groupOf ch)).imp_right fun moved => ⟨rfl, moved⟩
  · exact .inl (u.regain_group_other own)

/-! ## RESTORE -/

namespace Fcu

/-- A channel as RESTORE begins: its count of pulses starts again and stuck-on is forgotten (R231, R232). -/
def releaseCh (f : Fcu) (c : Fin 32) : Fcu :=
  f.modCh c fun x => { x with passes := 0, fault := if x.fault == 1 then 0 else x.fault }

/-- The channels of a group as RESTORE begins. -/
def releaseChans (f : Fcu) (g : Fin 4) : Fcu := (channelsOf g).foldl releaseCh f

theorem releaseChans_groups (f : Fcu) (g : Fin 4) : (f.releaseChans g).groups = f.groups :=
  foldl_groups (op := releaseCh) (fun _ _ => rfl) _ f

/-- What an accepted press does to one group (R232). -/
def restoreOne (f : Fcu) (g : Fin 4) : Fcu :=
  if f.groups[g].st != .latched then f
  else if f.causePresent g then { f with refused := f.refused + 1 } else f.restoreGroup g

theorem restore_eq (f : Fcu) : f.restore = (groupList.foldl restoreOne f).shut := rfl

/-- `g` is `f` but for its groups, channels and count of refusals, and its read-backs and read-back paths are those of `f`. -/
structure KeepsReads (f g : Fcu) : Prop where
  eq : g = { f with groups := g.groups, chans := g.chans, refused := g.refused }
  rb : ∀ c : Fin 32, g.chans[c].rb = f.chans[c].rb
  rbLost : ∀ c : Fin 32, g.chans[c].rbLost = f.chans[c].rbLost

namespace KeepsReads

theorem refl (f : Fcu) : KeepsReads f f := ⟨rfl, fun _ => rfl, fun _ => rfl⟩

theorem trans {f g h : Fcu} (a : KeepsReads f g) (b : KeepsReads g h) : KeepsReads f h :=
  ⟨by rw [b.eq, a.eq], fun c => (b.rb c).trans (a.rb c), fun c => (b.rbLost c).trans (a.rbLost c)⟩

theorem active {f g : Fcu} (h : KeepsReads f g) : g.active = f.active := by rw [h.eq]
theorem localGrp {f g : Fcu} (h : KeepsReads f g) : g.localGrp = f.localGrp := by rw [h.eq]

theorem foldl {α : Type} {op : Fcu → α → Fcu} (h : ∀ f a, KeepsReads f (op f a)) (as : List α) (f : Fcu) :
    KeepsReads f (as.foldl op f) := by
  induction as generalizing f with
  | nil => exact refl f
  | cons a as ih => exact (h f a).trans (ih _)

theorem modGrp (f : Fcu) (g : Fin 4) (h : FcuGrp → FcuGrp) : KeepsReads f (f.modGrp g h) := ⟨rfl, fun _ => rfl, fun _ => rfl⟩

/-- A change of one channel that keeps what is read there. -/
theorem modCh (f : Fcu) (c : Fin 32) {h : FcuCh → FcuCh} (rb : ∀ x, (h x).rb = x.rb) (lost : ∀ x, (h x).rbLost = x.rbLost) :
    KeepsReads f (f.modCh c h) := by
  have chan : ∀ k : Fin 32, (f.modCh c h).chans[k] = f.chans[k] ∨ (f.modCh c h).chans[k] = h f.chans[k] := fun k => by
    by_cases e : k = c
    · subst e
      exact .inr (modCh_chan_same f k h)
    · exact .inl (modCh_chan_other f h e)
  refine ⟨rfl, fun k => ?_, fun k => ?_⟩ <;> rcases chan k with e | e <;> rw [e]
  · exact rb _
  · exact lost _

theorem shut (f : Fcu) : KeepsReads f f.shut :=
  ⟨by rw [(SwitchesOnly.shut f).eq], fun c => by rw [shut_chan]; rfl, fun c => by rw [shut_chan]; rfl⟩

theorem releaseChans (f : Fcu) (g : Fin 4) : KeepsReads f (f.releaseChans g) :=
  foldl (op := releaseCh) (fun f c => modCh f c (fun _ => rfl) fun _ => rfl) _ f

theorem restoreGroup (f : Fcu) (g : Fin 4) : KeepsReads f (f.restoreGroup g) := by
  refine (releaseChans f g).trans ?_
  unfold Fcu.restoreGroup
  exact modGrp _ g _

theorem restoreOne (f : Fcu) (g : Fin 4) : KeepsReads f (f.restoreOne g) := by
  unfold Fcu.restoreOne
  split_ifs
  · exact refl f
  · exact ⟨rfl, fun _ => rfl, fun _ => rfl⟩
  · exact restoreGroup f g

theorem restore (f : Fcu) : KeepsReads f f.restore := (foldl restoreOne _ f).trans (shut _)

theorem pathsGood {f g : Fcu} (h : KeepsReads f g) (k : Fin 4) : g.pathsGood k = f.pathsGood k := by
  simp only [Fcu.pathsGood, h.rbLost]

/-- The cause of a LATCHED group rests on its supply and on what is read of its channels (R232). -/
theorem causePresent {f g : Fcu} (h : KeepsReads f g) {k : Fin 4} (group : g.groups[k] = f.groups[k]) :
    g.causePresent k = f.causePresent k := by
  simp only [Fcu.causePresent, h.rb, group, h.pathsGood, degrades, h.localGrp]

end KeepsReads

/-- A group restored has its cut switch closed and is NORMAL, or DEGRADED where a read-back path is lost, in a module that
holds the ACTIVE role, and OFF in another (R231, R232). -/
theorem restoreGroup_group_same (f : Fcu) (g : Fin 4) :
    (f.restoreGroup g).groups[g].cut = false ∧
      (f.restoreGroup g).groups[g].st = if f.active then (if f.pathsGood g then .normal else .degraded) else .off := by
  have role : (f.releaseChans g).active = f.active := (KeepsReads.releaseChans f g).active
  rw [restoreGroup, modGrp_group_same]
  refine ⟨rfl, ?_⟩
  show (if !(f.releaseChans g).active then GrpSt.off else if !f.pathsGood g then .degraded else .normal) = _
  rw [role]
  cases f.active <;> cases f.pathsGood g <;> rfl

theorem restoreGroup_group_other (f : Fcu) {g k : Fin 4} (hk : k ≠ g) : (f.restoreGroup g).groups[k] = f.groups[k] := by
  rw [restoreGroup, modGrp_group_other _ _ hk]
  exact congrArg (·[k]) (f.releaseChans_groups g)

theorem restoreOne_group_other (f : Fcu) (g k : Fin 4) (hk : k ≠ g) : (f.restoreOne g).groups[k] = f.groups[k] := by
  unfold restoreOne
  split_ifs
  · rfl
  · rfl
  · exact restoreGroup_group_other f hk

/-- What an accepted press leaves of a group: one that is not LATCHED, or whose cause is present, stands (R231, R232). -/
theorem restore_group (f : Fcu) (g : Fin 4) :
    (f.groups[g].st ≠ .latched ∨ f.causePresent g = true → f.restore.groups[g] = f.groups[g]) ∧
      (f.groups[g].st = .latched → f.causePresent g = false → f.restore.groups[g].cut = false ∧
        f.restore.groups[g].st = if f.active then (if f.pathsGood g then .normal else .degraded) else .off) := by
  obtain ⟨u, kept, same, ends⟩ := foldl_group_step (P := KeepsReads f) (fun _ _ h => h.trans (.restoreOne ..))
    restoreOne_group_other groupList_nodup (mem_groupList g) (.refl f)
  rw [restore_eq, shut_groups, ends]
  refine ⟨fun stands => ?_, fun latched gone => ?_⟩
  · rw [← same]
    rcases stands with free | cause
    · rw [restoreOne, if_pos (by rw [same]; exact bne_iff_ne.mpr free)]
    · unfold restoreOne
      split_ifs with other cause'
      · rfl
      · rfl
      · exact absurd ((kept.causePresent same).trans cause) cause'
  · have restored : u.restoreOne g = u.restoreGroup g := by
      rw [restoreOne, if_neg (by rw [same, latched]; decide), if_neg (by rw [kept.causePresent same, gone]; decide)]
    rw [restored, ← kept.active, ← kept.pathsGood]
    exact u.restoreGroup_group_same g

end Fcu

/-- A press that RESTORE's rest before it does not open is not judged (R232). -/
theorem exec_restorePress_unrested {s : State} {off on : Nat} (h : off < 100) :
    exec (.restorePress off on) s = .next s.begin := if_pos h

/-- A press too short or too long is not accepted (R232). -/
theorem exec_restorePress_refused {s : State} {off on : Nat} (rested : 100 ≤ off) (h : on < 50 ∨ 2000 ≤ on) :
    exec (.restorePress off on) s = .next { s.begin with fcu := { s.fcu with jam := s.fcu.jam && decide (2000 ≤ on) } } :=
  (if_neg (by omega)).trans (if_pos (by simpa using h))

/-- An accepted press ends a jam; it acts at once, or once the bus has its voltage (R232). -/
theorem exec_restorePress_accepted {s : State} {off on : Nat} (rested : 100 ≤ off) (long : 50 ≤ on) (short : on < 2000) :
    let f : Fcu := { s.fcu with jam := false, accepted := s.fcu.accepted + 1, accFlag := true }
    exec (.restorePress off on) s =
      .next { s.begin with fcu := if s.sup.warnNow then { f with heldPress := true } else f.restore } := by
  have unjams : (s.fcu.jam && decide (2000 ≤ on)) = false := by
    rw [decide_eq_false (by omega), Bool.and_false]
  refine (if_neg (by omega)).trans ((if_neg (by simpa using ⟨long, short⟩)).trans ?_)
  dsimp only [State.begin_fcu]
  rw [unjams]
  rfl

/-! ## A fault of the FCU -/

/-- An FCU fault darkens every group and invalidates every input (R21, R216). -/
theorem exec_fcuFault_fields (s : State) :
    ∃ t, exec .fcuFault s = .next t ∧ t = { s.begin with fcu := t.fcu } ∧ t.fcu.fault = true ∧
      (∀ g : Fin 4, t.fcu.groups[g].vpr = false ∧ t.fcu.groups[g].st = s.fcu.groups[g].st) ∧
      (∀ x : Fin 32, t.fcu.chans[x].on = false) ∧ ∀ j : Fin 33, t.fcu.inputValid j = false := by
  let f : Fcu := { s.fcu with fault := true, groups := s.fcu.groups.map fun x => { x with vpr := false } }
  have vpr : ∀ g : Fin 4, f.groups[g] = { s.fcu.groups[g] with vpr := false } := fun g => by simp [f]
  have fault : f.shut.fault = true := by rw [(Fcu.SwitchesOnly.shut f).eq]
  refine ⟨{ s.begin with fcu := f.shut }, rfl, rfl, fault, fun g => ?_, fun x => ?_, fun j => ?_⟩
  · dsimp only
    rw [Fcu.shut_groups, vpr]
    exact ⟨rfl, rfl⟩
  · exact Fcu.shut_dark (Fcu.not_follows_of_vpr (by rw [vpr])) x rfl
  · dsimp only [Fcu.inputValid]
    split
    · rfl
    · simp [Fcu.inputBad, fault]

/-- Settles O46: each command by the rule of its step; RESTORE group by group, as no group's release moves what the others rest
on. -/
theorem fcuInputs : Obligations.FcuInputs := by
  unfold Obligations.FcuInputs
  intro s volts mv high k ch off on
  dsimp only
  refine ⟨?sample, ?pathFails, ?pathPasses, ?pathClears, ?readFails, ?readPasses, ?readClears, rfl,
    exec_restorePress_unrested, exec_restorePress_refused, ?held, ?accepted, exec_fcuFault_fields s⟩
  case sample =>
    obtain ⟨rest, groups, chans, inputs, jam⟩ :=
      s.fcu.restJam_switched (s.fcu.sampled volts) (s.fcu.measured mv) (s.fcu.readBack high)
    refine ⟨_, exec_inputSample .., congrArg (fun u => ({ s.begin with fcu := u } : State)) rest, fun g => ?_, ?_, jam, ?_⟩
    · refine (congrArg (·[g]) groups).trans ?_
      simp [Fcu.measured]
    · refine (congrArg (·[ch]) chans).trans ?_
      simp [Fcu.readBack]
    · have input := congrArg (·[k]) inputs
      exact ⟨fun missed => input.trans (Fcu.sampled_missed missed), fun v lim hv hl =>
        FcuIn.sample_fields (input.trans (Fcu.sampled_taken hv hl))⟩
  case pathFails =>
    exact exec_inputPathTest_same (FcuIn.pathTested_fails _) fun bad => by simp only [bad, Bool.true_or]
  case pathPasses =>
    exact fun early => exec_inputPathTest_same (FcuIn.pathTested_passes early) id
  case pathClears =>
    exact fun bad third runs fed => exec_inputPathTest_clears (FcuIn.pathTested_clears third) bad rfl runs fed
  case readFails =>
    exact exec_readbackTest_leaves (FcuCh.rbTested_fails _)
  case readPasses =>
    exact fun early => exec_readbackTest_leaves (FcuCh.rbTested_passes early)
  case readClears =>
    exact fun lost third => exec_readbackTest_leaves (FcuCh.rbTested_clears lost third)
  case held =>
    intro rested long short low
    rw [exec_restorePress_accepted rested long short, if_pos low]
  case accepted =>
    intro rested long short full
    refine ⟨_, exec_restorePress_accepted rested long short, rfl, ?_⟩
    rw [if_neg (by rw [full]; exact Bool.false_ne_true)]
    let f : Fcu := { s.fcu with jam := false, accepted := s.fcu.accepted + 1, accFlag := true }
    have kept := Fcu.KeepsReads.restore f
    refine ⟨by rw [kept.eq], by rw [kept.eq], by rw [kept.eq], f.restore_group⟩

end Sys2Proof.Machine
end

section
/-!
PROOFS. O47: stuck-on, failed-off, thermal and pepper-pulse outcomes of a channel (spec/10_local_vital_io.md R223 to R235).
-/
namespace Sys2Proof.Machine

/-! ## What the outcomes leave -/

/-- `t` is `s` as a command begins in it, but for the FCU, whose inputs stand. -/
def State.SwitchesOnly (s t : State) : Prop := t = { s.begin with fcu := t.fcu } ∧ t.fcu.inputs = s.fcu.inputs

/-- In `t` a group is LATCHED with its cut switch open and dark, and the others stand (R226, R231). -/
def State.Latches (s t : State) (g : Fin 4) : Prop :=
  s.SwitchesOnly t ∧ t.fcu.groups[g].st = .latched ∧ t.fcu.groups[g].cut = true ∧
    (∀ k : Fin 4, k ≠ g → t.fcu.groups[k] = s.fcu.groups[k]) ∧ t.fcu.Dark g

/-- In `t` a channel is held off with a code, and the groups stand (R223). -/
def State.HoldsOff (s t : State) (ch : Fin 32) (code : BitVec 4) : Prop :=
  s.SwitchesOnly t ∧ t.fcu.groups = s.fcu.groups ∧ t.fcu.chans[ch].on = false ∧ t.fcu.chans[ch].hold = true ∧
    t.fcu.chans[ch].fault = code

/-- A pulse ends without an outcome, with a code: the group latches under MODE 0, and under MODE 1 it is DEGRADED while its
limit runs (R229, R231, R233). -/
def State.LosesCover (s : State) (i : Instr) (ch : Fin 32) (code : BitVec 4) : Prop :=
  let u := s.fcu
  let x := u.groups[groupOf ch]
  (u.degrades (groupOf ch) = false → ∃ t, exec i s = .next t ∧ s.Latches t (groupOf ch) ∧ t.fcu.chans[ch].fault = code) ∧
    (u.degrades (groupOf ch) = true → ∃ t, exec i s = .next t ∧ s.SwitchesOnly t ∧ t.fcu.chans[ch].fault = code ∧
      t.fcu.chans[ch].passes = 0 ∧ t.fcu.groups[groupOf ch] = { x with
        st := .degraded
        covLost := true
        degLeft := some (x.degLeft.getD (u.tDeg (groupOf ch))) })

theorem State.switchesOnly_of {s : State} {f : Fcu} (only : s.fcu.SwitchesOnly f) : s.SwitchesOnly { s.begin with fcu := f } :=
  ⟨rfl, only.inputs⟩

theorem State.latches_latch {s : State} {f : Fcu} {g : Fin 4} (only : s.fcu.SwitchesOnly f)
    (groups : ∀ k : Fin 4, k ≠ g → f.groups[k] = s.fcu.groups[k]) : s.Latches { s.begin with fcu := f.latch g } g :=
  ⟨switchesOnly_of (only.trans (.latch f g)), f.latch_st g, congrArg FcuGrp.cut (f.latch_group_same g),
    fun k hk => (f.latch_group_other hk).trans (groups k hk), f.latch_dark g⟩

theorem State.holdsOff_holdOff {s : State} {f : Fcu} (only : s.fcu.SwitchesOnly f) (groups : f.groups = s.fcu.groups) (ch : Fin 32)
    (code : BitVec 4) : s.HoldsOff { s.begin with fcu := f.holdOff ch code } ch code := by
  let w : Fcu := f.modCh ch fun c => { c with hold := true, fault := code }
  have chan : w.chans[ch] = { f.chans[ch] with hold := true, fault := code } := f.modCh_chan_same ch _
  have unwanted : w.wants ch = false := by
    rw [Fcu.wants, chan]
    simp only [Bool.not_true, Bool.and_false]
  have opens := w.shut_chan ch
  exact ⟨switchesOnly_of (only.trans ((Fcu.SwitchesOnly.modCh f ch _).trans (.shut w))), (Fcu.shut_groups w).trans groups,
    Fcu.shut_off unwanted, (congrArg FcuCh.hold opens).trans (congrArg FcuCh.hold chan),
    (congrArg FcuCh.fault opens).trans (congrArg FcuCh.fault chan)⟩

namespace Fcu

/-- No channel of a group pulses (R228). -/
theorem quiet_iff {f : Fcu} {g : Fin 4} : f.quiet g = true ↔ ∀ k : Fin 32, groupOf k = g → f.chans[k].pulse = false := by
  simp only [quiet, List.all_eq_true, mem_channelsOf, Bool.not_eq_true']

/-- Only a DEGRADED group regains coverage (R231). -/
theorem regain_of_not_degraded {f : Fcu} {g : Fin 4} (h : f.groups[g].st ≠ .degraded) : f.regain g = f := by
  rw [regain, beq_false_of_ne h, Bool.false_and, if_neg Bool.false_ne_true]

/-- A group with MODE 0 latches with its coverage (R231). -/
theorem loseCover_latches {f : Fcu} {g : Fin 4} (h : f.groups[g].st = .normal ∨ f.groups[g].st = .degraded)
    (mode : f.degrades g = false) : f.loseCover g = (f.modGrp g fun x => { x with covLost := true }).latch g := by
  rw [loseCover, if_pos (by simpa only [Bool.or_eq_true, beq_iff_eq] using h), mode, if_neg Bool.false_ne_true]

/-- A group with MODE 1 is DEGRADED with its coverage lost, and its limit runs (R231, R233). -/
theorem loseCover_degrades {f : Fcu} {g : Fin 4} (h : f.groups[g].st = .normal ∨ f.groups[g].st = .degraded)
    (mode : f.degrades g = true) :
    f.loseCover g = f.modGrp g fun x => { x.startLimit (f.tDeg g) with st := .degraded, covLost := true } := by
  rw [loseCover, if_pos (by simpa only [Bool.or_eq_true, beq_iff_eq] using h), mode, if_pos rfl]

/-! ## Pepper pulses -/

/-- The switch of a channel closes at the end of its pulse, unless the pulse is void (R228, R235). -/
def endPulse (f : Fcu) (ch : Fin 32) : Fcu := f.modCh ch fun c => { c with on := !c.void, pulse := false, void := false }

theorem endPulse_chan (f : Fcu) (ch : Fin 32) :
    (f.endPulse ch).chans[ch] = { f.chans[ch] with on := !f.chans[ch].void, pulse := false, void := false } :=
  f.modCh_chan_same ch _

/-- The switch of a void pulse stays open (R235). -/
theorem endPulse_void {f : Fcu} {ch : Fin 32} (h : f.chans[ch].void = true) :
    f.endPulse ch = { f with chans := f.chans.set ch.val { f.chans[ch] with on := false, pulse := false, void := false } } := by
  simp only [endPulse, modCh, h, Bool.not_true]

theorem SwitchesOnly.endPulse (f : Fcu) (ch : Fin 32) : SwitchesOnly f (f.endPulse ch) := .modCh f ch _

/-- A channel without an outcome counts no pulse, and shows its code (R229). -/
def failPulse (f : Fcu) (ch : Fin 32) (code : BitVec 4) : Fcu := f.modCh ch fun c => { c with passes := 0, fault := code }

theorem failPulse_chan (f : Fcu) (ch : Fin 32) (code : BitVec 4) :
    (f.failPulse ch code).chans[ch] = { f.chans[ch] with passes := 0, fault := code } := f.modCh_chan_same ch _

/-- A pulse whose read-back path is lost (R229). -/
theorem judgePulse_lost {f : Fcu} {ch : Fin 32} (h : f.chans[ch].rbLost = true) (fall back : Bool) :
    f.judgePulse ch fall back = (f.failPulse ch 4).loseCover (groupOf ch) := if_pos h

section
variable {f : Fcu} {ch : Fin 32} (h : f.chans[ch].rbLost = false)
include h

/-- A pulse that falls and comes back counts (R229). -/
theorem judgePulse_passes : f.judgePulse ch true true =
    (f.modCh ch fun c => { c with passes := c.passes + 1, fault := if c.fault == 3 then 0 else c.fault }).regain (groupOf ch) := by
  simp only [judgePulse, h, Bool.false_eq_true, if_false, if_true]

/-- A pulse that does not come back (R229). -/
theorem judgePulse_failedOff : f.judgePulse ch true false = f.holdOff ch 2 := by
  simp only [judgePulse, h, Bool.false_eq_true, if_false, if_true]

/-- A pulse that does not fall, with a load (R229). -/
theorem judgePulse_stuck (load : Config.openLoad ≤ f.chans[ch].cur) (back : Bool) : f.judgePulse ch false back =
    (f.modCh ch fun c => { c with rb := true, fault := 1, passes := 0 }).latch (groupOf ch) := by
  simp only [judgePulse, h, Bool.false_eq_true, if_false, load, if_true]

/-- A pulse that does not fall, without a load (R229). -/
theorem judgePulse_openLoad (load : f.chans[ch].cur < Config.openLoad) (back : Bool) :
    f.judgePulse ch false back = (f.failPulse ch 3).loseCover (groupOf ch) := by
  have light : ¬ Config.openLoad ≤ f.chans[ch].cur := Nat.not_le.mpr load
  simp only [judgePulse, h, Bool.false_eq_true, if_false, light, failPulse]

end
end Fcu

/-! ## The commands -/

/-- A channel that is not judged (R227, R235). -/
theorem exec_stuckOnDetect_unjudged {s : State} {ch : Fin 32}
    (h : s.fcu.chans[ch].isOn = true ∨ s.fcu.groups[groupOf ch].waitVpr = true ∨ s.fcu.groups[groupOf ch].st = .supplyLow) :
    exec (.stuckOnDetect ch) s = .next s.begin := by
  refine if_pos ?_
  simp only [Bool.or_eq_true, beq_iff_eq]
  exact or_assoc.mpr (h.imp_right Or.symm)

section
variable {s : State} {ch : Fin 32} (off : s.fcu.chans[ch].isOn = false) (reads : s.fcu.groups[groupOf ch].waitVpr = false)
include off reads

/-- A channel stuck on latches its group (R227, R231). -/
theorem exec_stuckOnDetect_latches (h : s.fcu.groups[groupOf ch].st = .normal ∨ s.fcu.groups[groupOf ch].st = .degraded) :
    exec (.stuckOnDetect ch) s = .next { s.begin with fcu :=
      (s.fcu.modCh ch fun c => { c with rb := true, fault := 1 }).latch (groupOf ch) } := by
  rcases h with st | st <;> simp [exec, execStuckOnDetect, -Fin.getElem_fin, off, reads, st]

/-- In a group that is OFF or LATCHED, a channel stuck on is marked (R227). -/
theorem exec_stuckOnDetect_marks (h : s.fcu.groups[groupOf ch].st = .off ∨ s.fcu.groups[groupOf ch].st = .latched) :
    exec (.stuckOnDetect ch) s = .next { s.begin with fcu := s.fcu.modCh ch fun c => { c with rb := true, fault := 1 } } := by
  rcases h with st | st <;> simp [exec, execStuckOnDetect, -Fin.getElem_fin, off, reads, st]

end

/-- A channel that is on and reads off is held off (R223, R227). -/
theorem exec_failedOffDetect_on {s : State} {ch : Fin 32} (h : s.fcu.chans[ch].on = true) :
    exec (.failedOffDetect ch) s = .next { s.begin with fcu := s.fcu.holdOff ch 2 } := if_pos h

theorem exec_failedOffDetect_off {s : State} {ch : Fin 32} (h : s.fcu.chans[ch].on = false) :
    exec (.failedOffDetect ch) s = .next s.begin := if_neg (by simpa using h)

/-- A channel after a retry that takes: no longer held off, and driven (R223). -/
theorem exec_overloadRetry_takes {s : State} {ch : Fin 32} (held : s.fcu.chans[ch].hold = true) (cmd : s.fcu.chans[ch].cmd = true) :
    let f := s.fcu.modCh ch fun c => { c with hold := false, fault := 0 }
    exec (.overloadRetry ch true) s = .next { s.begin with fcu := f.modCh ch fun _ => f.driveCh s.sup.warnNow ch } :=
  if_pos (by rw [State.begin_fcu, held, cmd]; rfl)

/-- A retry that does not take leaves the channel held off (R223). -/
theorem exec_overloadRetry_fails (s : State) (ch : Fin 32) : exec (.overloadRetry ch false) s = .next s.begin :=
  if_neg (by simp)

/-- A retry lets the channel follow its command (R221, R223). -/
theorem Fcu.retried_chan {f : Fcu} {ch : Fin 32} (cmd : f.chans[ch].cmd = true) (low : Bool) :
    let v := f.modCh ch fun c => { c with hold := false, fault := 0 }
    let y := (v.modCh ch fun _ => v.driveCh low ch).chans[ch]
    let c := f.chans[ch]
    y.hold = false ∧ y.fault = 0 ∧ y.on = (f.follows (groupOf ch) && (c.isOn || !(low || c.dip)) && !c.pulse) := by
  intro v
  have chan : v.chans[ch] = { f.chans[ch] with hold := false, fault := 0 } := f.modCh_chan_same ch _
  have wants : v.wants ch = f.follows (groupOf ch) := by
    rw [Fcu.wants, chan, cmd]
    exact Bool.and_true _
  dsimp only
  rw [modCh_chan_same, driveCh_on, wants, chan]
  exact ⟨congrArg FcuCh.hold chan, congrArg FcuCh.fault chan, rfl⟩

/-- A pulse opens the switch of a channel that is on, in a quiet group, with the bus at its voltage (R228, R342). -/
theorem exec_pepperPulseStart_opens {s : State} {ch : Fin 32} (on : s.fcu.chans[ch].on = true)
    (quiet : ∀ k : Fin 32, groupOf k = groupOf ch → s.fcu.chans[k].pulse = false) (full : s.sup.warnNow = false) (current : Nat) :
    exec (.pepperPulseStart ch current) s = .next { s.begin with
      fcu := s.fcu.modCh ch fun c => { c with on := false, pulse := true, void := false, cur := current } } := by
  refine if_pos ?_
  rw [State.begin_fcu, State.begin_sup, on, Fcu.quiet_iff.mpr quiet, full]
  rfl

theorem exec_pepperPulseStart_stands {s : State} {ch : Fin 32} (h : s.fcu.chans[ch].on = false ∨ s.sup.warnNow = true ∨
    ∃ k : Fin 32, groupOf k = groupOf ch ∧ s.fcu.chans[k].pulse = true) (current : Nat) :
    exec (.pepperPulseStart ch current) s = .next s.begin := by
  refine if_neg fun starts => ?_
  rw [Bool.and_eq_true, Bool.and_eq_true, Fcu.quiet_iff, Bool.not_eq_true'] at starts
  obtain ⟨⟨on, quiet⟩, full⟩ := starts
  rcases h with off | low | ⟨k, hk, pulse⟩
  · exact Bool.noConfusion (off.symm.trans on)
  · exact Bool.noConfusion (full.symm.trans low)
  · exact Bool.noConfusion ((quiet k hk).symm.trans pulse)

theorem exec_pepperPulseEnd_idle {s : State} {ch : Fin 32} (h : s.fcu.chans[ch].pulse = false) (fall back : Bool) :
    exec (.pepperPulseEnd ch fall back) s = .next s.begin := if_pos (by rw [State.begin_fcu, h]; rfl)

/-- A pulse that runs ends, and is judged unless it is void (R228, R229, R235). -/
theorem exec_pepperPulseEnd {s : State} {ch : Fin 32} (h : s.fcu.chans[ch].pulse = true) (fall back : Bool) :
    exec (.pepperPulseEnd ch fall back) s = .next { s.begin with
      fcu := if s.fcu.chans[ch].void then s.fcu.endPulse ch else (s.fcu.endPulse ch).judgePulse ch fall back } :=
  if_neg (by rw [State.begin_fcu, h]; decide)

/-- A pulse that is not void is judged (R229). -/
theorem exec_pepperPulseEnd_judged {s : State} {ch : Fin 32} (h : s.fcu.chans[ch].pulse = true) (valid : s.fcu.chans[ch].void = false)
    {fall back : Bool} {v : Fcu} (judged : (s.fcu.endPulse ch).judgePulse ch fall back = v) :
    exec (.pepperPulseEnd ch fall back) s = .next { s.begin with fcu := v } := by
  rw [exec_pepperPulseEnd h, valid, if_neg Bool.false_ne_true, judged]

/-- What a pulse that ends without an outcome leaves (R229, R231, R233). -/
theorem State.losesCover_of {s : State} {i : Instr} {ch : Fin 32} {f : Fcu} (only : s.fcu.SwitchesOnly f)
    (groups : f.groups = s.fcu.groups) {code : BitVec 4}
    (h : s.fcu.groups[groupOf ch].st = .normal ∨ s.fcu.groups[groupOf ch].st = .degraded)
    (step : exec i s = .next { s.begin with fcu := (f.failPulse ch code).loseCover (groupOf ch) }) : s.LosesCover i ch code := by
  have only' : s.fcu.SwitchesOnly (f.failPulse ch code) := only.trans (.modCh f ch _)
  have group : ∀ k : Fin 4, (f.failPulse ch code).groups[k] = s.fcu.groups[k] := fun k => congrArg (·[k]) groups
  have mode : (f.failPulse ch code).degrades (groupOf ch) = s.fcu.degrades (groupOf ch) := by
    rw [Fcu.degrades, Fcu.degrades, only'.eq]
  have limit : (f.failPulse ch code).tDeg (groupOf ch) = s.fcu.tDeg (groupOf ch) := by rw [Fcu.tDeg, Fcu.tDeg, only'.eq]
  have chan := f.failPulse_chan ch code
  rw [← group] at h
  refine ⟨fun latches => ?_, fun degrades => ?_⟩
  · rw [Fcu.loseCover_latches h (mode.trans latches)] at step
    refine ⟨_, step, latches_latch (only'.trans (.modGrp ..)) fun k hk => (Fcu.modGrp_group_other _ _ hk).trans (group k), ?_⟩
    exact (Fcu.latch_chan_fault _ _ ch).trans (congrArg FcuCh.fault chan)
  · rw [Fcu.loseCover_degrades h (mode.trans degrades), limit] at step
    refine ⟨_, step, switchesOnly_of (only'.trans (.modGrp ..)), congrArg FcuCh.fault chan, congrArg FcuCh.passes chan, ?_⟩
    dsimp only
    rw [Fcu.modGrp_group_same, group]
    rfl

/-- Settles O47: each command by its rule, and each outcome of a pulse by what latching, holding off or losing coverage leaves. -/
theorem outputChannels : Obligations.OutputChannels := by
  unfold Obligations.OutputChannels
  intro s ch current fall back
  dsimp only
  refine ⟨?stuck, exec_stuckOnDetect_marks, exec_stuckOnDetect_unjudged, ?failed, exec_failedOffDetect_off, ?thermal, ?retry,
    exec_overloadRetry_fails s ch, fun on quiet full => exec_pepperPulseStart_opens on quiet full current,
    fun stands => exec_pepperPulseStart_stands stands current, fun idle => exec_pepperPulseEnd_idle idle fall back, ?void, ?judged,
    ?lost⟩
  case stuck =>
    intro off reads st
    refine ⟨_, exec_stuckOnDetect_latches off reads st, State.latches_latch (.modCh s.fcu ch _) fun k _ => rfl, ?_⟩
    dsimp only
    rw [Fcu.latch_chan_fault, Fcu.modCh_chan_same]
  case failed =>
    exact fun on => ⟨_, exec_failedOffDetect_on on, State.holdsOff_holdOff (.refl s.fcu) rfl ch 2⟩
  case thermal =>
    exact ⟨_, rfl, State.holdsOff_holdOff (.refl s.fcu) rfl ch 5⟩
  case retry =>
    exact fun held cmd => ⟨_, exec_overloadRetry_takes held cmd, ⟨rfl, rfl⟩, rfl, Fcu.retried_chan cmd s.sup.warnNow⟩
  case void =>
    intro pulse void
    rw [exec_pepperPulseEnd pulse, if_pos void, Fcu.endPulse_void void]
  case judged =>
    intro pulse valid path
    have chan := s.fcu.endPulse_chan ch
    have path' := (congrArg FcuCh.rbLost chan).trans path
    have cur := congrArg FcuCh.cur chan
    refine ⟨?_, ?_, fun load => ?_, fun load st => ?_⟩
    · refine ⟨_, exec_pepperPulseEnd_judged pulse valid (Fcu.judgePulse_passes path'), ⟨rfl, ?_⟩, fun st => ?_, ?_⟩
      · exact (Fcu.SwitchesOnly.regain _ _).inputs
      · dsimp only
        rw [Fcu.regain_of_not_degraded (by exact st)]
        rfl
      · dsimp only
        rw [Fcu.regain_chans, Fcu.modCh_chan_same, chan, valid]
        simp only [beq_iff_eq, Bool.not_false]
    · exact ⟨_, exec_pepperPulseEnd_judged pulse valid (Fcu.judgePulse_failedOff path'),
        State.holdsOff_holdOff (.endPulse s.fcu ch) rfl ch 2⟩
    · refine ⟨_, exec_pepperPulseEnd_judged pulse valid (Fcu.judgePulse_stuck path' (load.trans_eq cur.symm) back),
        State.latches_latch (.trans (.endPulse s.fcu ch) (.modCh _ ch _)) fun k _ => rfl, ?_⟩
      dsimp only
      rw [Fcu.latch_chan_fault, Fcu.modCh_chan_same]
    · exact State.losesCover_of (.endPulse s.fcu ch) rfl st
        (exec_pepperPulseEnd_judged pulse valid (Fcu.judgePulse_openLoad path' (cur.trans_lt load) back))
  case lost =>
    intro pulse valid path st
    have path' := (congrArg FcuCh.rbLost (s.fcu.endPulse_chan ch)).trans path
    exact State.losesCover_of (.endPulse s.fcu ch) rfl st
      (exec_pepperPulseEnd_judged pulse valid (Fcu.judgePulse_lost path' fall back))

end Sys2Proof.Machine
end

section
/-!
PROOFS. O48: the states of a group by off-check, VPR, L+ and the degrade limit (spec/10_local_vital_io.md R222 to R234).
-/
namespace Sys2Proof.Machine
namespace Fcu

/-! ## The off-check -/

/-- What an off-check notes of one channel (R222, R227). -/
def markCh (high : BitVec 8) (f : Fcu) (p : Nat × Fin 32) : Fcu :=
  if high.getLsbD p.1 then f.modCh p.2 fun c => { c with rb := true, fault := 1 } else f.modCh p.2 fun c => { c with rb := false }

theorem markStuck_eq (f : Fcu) (g : Fin 4) (high : BitVec 8) :
    f.markStuck g high = (positions (channelsOf g)).foldl (markCh high) f := rfl

theorem SwitchesOnly.markCh (high : BitVec 8) (f : Fcu) (p : Nat × Fin 32) : SwitchesOnly f (f.markCh high p) := by
  unfold Fcu.markCh
  split
  · exact .modCh ..
  · exact .modCh ..

theorem SwitchesOnly.markStuck (f : Fcu) (g : Fin 4) (high : BitVec 8) : SwitchesOnly f (f.markStuck g high) :=
  .foldl (op := Fcu.markCh high) (.markCh high) _ f

theorem markCh_groups (high : BitVec 8) (f : Fcu) (p : Nat × Fin 32) : (f.markCh high p).groups = f.groups := by
  unfold markCh
  split <;> rfl

/-- An off-check leaves the groups. -/
theorem markStuck_groups (f : Fcu) (g : Fin 4) (high : BitVec 8) : (f.markStuck g high).groups = f.groups :=
  foldl_groups (markCh_groups high) _ f

/-- A channel that reads high in its place stays marked, or is marked with its place (R222, R227). -/
theorem foldl_markCh_fault {high : BitVec 8} {c : Fin 32} {ps : List (Nat × Fin 32)}
    (reads : ∀ p ∈ ps, p.2 = c → high.getLsbD p.1 = true) {f : Fcu} (h : f.chans[c].fault = 1 ∨ ∃ p ∈ ps, p.2 = c) :
    (ps.foldl (markCh high) f).chans[c].fault = 1 := by
  induction ps generalizing f with
  | nil => exact h.resolve_right (by simp)
  | cons p ps ih =>
    refine ih (fun q hq => reads q (List.mem_cons_of_mem p hq)) ?_
    by_cases own : p.2 = c
    · left
      rw [markCh, if_pos (reads p List.mem_cons_self own), own, modCh_chan_same]
    · rcases h with marked | ⟨q, hq, hc⟩
      · left
        have stands : ∀ v : FcuCh → FcuCh, (f.modCh p.2 v).chans[c] = f.chans[c] := fun v => modCh_chan_other f v (Ne.symm own)
        unfold markCh
        split <;> rw [stands, marked]
      · exact .inr ⟨q, (List.mem_cons.mp hq).resolve_left fun e => own (e ▸ hc), hc⟩

/-- A channel of a group that reads high at the off-check is stuck-on (R222, R227). -/
theorem markStuck_fault (f : Fcu) {g : Fin 4} {high : BitVec 8} {k : Fin 8} (hk : high.getLsbD k.val = true) {c : Fin 32}
    (hc : c.val = 8 * g.val + k.val) : (f.markStuck g high).chans[c].fault = 1 := by
  obtain ⟨d, hd, mem⟩ := positions_channelsOf_mem g k
  have same : d = c := Fin.ext (hd.trans hc.symm)
  refine foldl_markCh_fault (fun p hp own => ?_) (.inr ⟨_, mem, same⟩)
  have place := mem_positions_channelsOf hp
  rw [own] at place
  rwa [show p.1 = k.val by omega]

/-! ## The VPR -/

/-- A group whose VPR is de-energised reads 5 V at no channel (R226). -/
def unpower (f : Fcu) (g : Fin 4) : Fcu :=
  (channelsOf g).foldl (fun f c => f.modCh c fun x => { x with rb := false }) (f.modGrp g fun x => { x with vpr := false })

theorem SwitchesOnly.unpower (f : Fcu) (g : Fin 4) : SwitchesOnly f (f.unpower g) :=
  (modGrp f g _).trans (.foldl (op := fun f c => f.modCh c fun x => { x with rb := false }) (fun f c => modCh f c _) _ _)

theorem unpower_groups (f : Fcu) (g : Fin 4) : (f.unpower g).groups = (f.modGrp g fun x => { x with vpr := false }).groups :=
  foldl_groups (op := fun f c => f.modCh c fun x => { x with rb := false }) (fun _ _ => rfl) _ _

theorem unpower_group_same (f : Fcu) (g : Fin 4) : (f.unpower g).groups[g] = { f.groups[g] with vpr := false } :=
  (congrArg (·[g]) (f.unpower_groups g)).trans (f.modGrp_group_same g _)

theorem unpower_group_other (f : Fcu) {g k : Fin 4} (hk : k ≠ g) : (f.unpower g).groups[k] = f.groups[k] :=
  (congrArg (·[k]) (f.unpower_groups g)).trans (f.modGrp_group_other _ hk)

/-- A DEGRADED group without its VPR latches, and any other opens its switches (R226, R233). -/
def cutOff (f : Fcu) (g : Fin 4) : Fcu := if f.groups[g].st == .degraded then f.latch g else f.shut

theorem cutOff_fields {f : Fcu} {g : Fin 4} (h : f.groups[g].vpr = false) :
    let v := f.cutOff g
    SwitchesOnly f v ∧ v.Dark g ∧ v.groups[g].vpr = false ∧ (∀ k, k ≠ g → v.groups[k] = f.groups[k]) ∧
      (f.groups[g].st ≠ .degraded → v.groups[g].st = f.groups[g].st) ∧ (f.groups[g].st = .degraded → v.groups[g].st = .latched) := by
  by_cases degraded : f.groups[g].st = .degraded
  · have latches : f.cutOff g = f.latch g := if_pos (beq_iff_eq.mpr degraded)
    dsimp only
    rw [latches]
    exact ⟨.latch f g, f.latch_dark g, by rw [latch_group_same]; exact h, fun k hk => f.latch_group_other hk,
      fun other => absurd degraded other, fun _ => f.latch_st g⟩
  · have opens : f.cutOff g = f.shut := if_neg (by rwa [beq_iff_eq])
    dsimp only
    rw [opens, shut_groups]
    exact ⟨.shut f, shut_dark (not_follows_of_vpr h), h, fun _ _ => rfl, fun _ => rfl, fun is => absurd is degraded⟩

/-! ## The role -/

/-- The role stands while its frames are awaited, with two lanes present, and where it is not held (R222). -/
theorem settleRole_stands {f : Fcu} (h : f.b2 = none ∨ 2 ≤ f.present.count ∨ f.active = false) : f.settleRole = f := by
  unfold settleRole
  split
  · next settles =>
    rw [Bool.and_eq_true, decide_eq_true_eq] at settles
    rcases h with awaited | two | passive
    · simp [awaited] at settles
    · omega
    · exact setActive_self passive
  · rfl

/-- What leaving the role does to one group (R222, R231). -/
def leaveOne (f : Fcu) (g : Fin 4) : Fcu :=
  let x := f.groups[g]
  if x.st == .latched then f
  else if x.st == .supplyLow && !f.degrades g then f.latch g
  else f.modGrp g fun x => { x.stopLimit with st := .off, check := false, covLost := false, degExp := false }

theorem leaveActive_eq (f : Fcu) : f.leaveActive = (groupList.foldl leaveOne f).shut := rfl

theorem leaveOne_group_other (f : Fcu) (g k : Fin 4) (hk : k ≠ g) : (f.leaveOne g).groups[k] = f.groups[k] := by
  unfold leaveOne
  dsimp only
  split_ifs
  · rfl
  · exact latch_group_other f hk
  · exact modGrp_group_other f _ hk

theorem leaveOne_group_same (f : Fcu) (g : Fin 4) :
    (f.leaveOne g).groups[g].vpr = f.groups[g].vpr ∧
      (f.groups[g].st ≠ .latched → f.groups[g].st ≠ .supplyLow → (f.leaveOne g).groups[g].st = .off) := by
  unfold leaveOne
  dsimp only
  split_ifs with latched low
  · exact ⟨rfl, fun other => absurd (beq_iff_eq.mp latched) other⟩
  · rw [latch_group_same]
    rw [Bool.and_eq_true, beq_iff_eq] at low
    exact ⟨rfl, fun _ other => absurd low.1 other⟩
  · rw [modGrp_group_same]
    exact ⟨rfl, fun _ _ => rfl⟩

/-- A module that leaves the ACTIVE role has each group OFF that is neither LATCHED nor SUPPLY-LOW (R222, R231). -/
theorem leaveActive_group (f : Fcu) (g : Fin 4) :
    f.leaveActive.groups[g].vpr = f.groups[g].vpr ∧
      (f.groups[g].st ≠ .latched → f.groups[g].st ≠ .supplyLow → f.leaveActive.groups[g].st = .off) := by
  obtain ⟨u, -, same, ends⟩ := foldl_group_step (P := fun _ => True) (fun _ _ _ => trivial) leaveOne_group_other groupList_nodup
    (mem_groupList g) (f := f) trivial
  rw [leaveActive_eq, shut_groups, ends, ← same]
  exact u.leaveOne_group_same g

/-- With fewer than two lanes present the role is left (R222). -/
theorem settleRole_leaves {f : Fcu} (fixed : f.b2.isSome = true) (few : f.present.count < 2) (active : f.active = true) (g : Fin 4) :
    f.settleRole.active = false ∧ f.settleRole.groups[g].vpr = f.groups[g].vpr ∧
      (f.groups[g].st ≠ .latched → f.groups[g].st ≠ .supplyLow → f.settleRole.groups[g].st = .off) := by
  have left : f.settleRole = ({ f with active := false } : Fcu).leaveActive := by
    rw [settleRole, fixed, decide_eq_true few, Bool.and_self, if_pos rfl, setActive, active]
    rfl
  rw [left]
  exact ⟨(SwitchesOnly.leaveActive _).active, leaveActive_group _ g⟩

/-! ## The supply -/

/-- The inputs as the supply of a group returns: those of its domain are revalidated (R216, R234). -/
def revalidated (f h : Fcu) : Vector FcuIn 33 :=
  Vector.ofFn fun k : Fin 33 => if f.inputBad k && !h.inputBad k then h.inputs[k].restart else h.inputs[k]

/-- The supply of a group is back, and the inputs of its domain are revalidated (R234). -/
def supplied (f : Fcu) (g : Fin 4) (mv : Nat) : Fcu :=
  let h := f.modGrp g fun x => { x with uv := false, warn := false, mv := mv }
  { h with inputs := f.revalidated h }

theorem supplied_groups (f : Fcu) (g : Fin 4) (mv : Nat) :
    (f.supplied g mv).groups = (f.modGrp g fun x => { x with uv := false, warn := false, mv := mv }).groups := by
  simp only [supplied]

theorem supplied_chans (f : Fcu) (g : Fin 4) (mv : Nat) : (f.supplied g mv).chans = f.chans := by
  simp only [supplied, modGrp]

theorem supplied_degrades (f : Fcu) (g : Fin 4) (mv : Nat) (k : Fin 4) : (f.supplied g mv).degrades k = f.degrades k := by
  simp only [degrades, supplied, modGrp]

theorem supplied_group_same (f : Fcu) (g : Fin 4) (mv : Nat) :
    (f.supplied g mv).groups[g] = { f.groups[g] with uv := false, warn := false, mv := mv } := by
  rw [supplied_groups, modGrp_group_same]

theorem supplied_group_other (f : Fcu) {g k : Fin 4} (hk : k ≠ g) (mv : Nat) : (f.supplied g mv).groups[k] = f.groups[k] := by
  rw [supplied_groups, modGrp_group_other f _ hk]

/-- The MODE of a group does not move with what is switched. -/
theorem markStuck_degrades (f : Fcu) (g : Fin 4) (high : BitVec 8) (k : Fin 4) :
    (f.markStuck g high).degrades k = f.degrades k := by
  rw [degrades, degrades, (SwitchesOnly.markStuck f g high).eq]

/-- A recovery that finds a channel high, MODE 0 or an expired limit latches (R234). -/
theorem recover_latches {f : Fcu} {g : Fin 4} {high : BitVec 8}
    (h : high ≠ 0 ∨ f.degrades g = false ∨ f.groups[g].degExp = true) : f.recover g high = (f.markStuck g high).latch g := by
  have group : (f.markStuck g high).groups[g] = f.groups[g] := by rw [markStuck_groups]
  unfold recover
  dsimp only
  rw [group, markStuck_degrades]
  split_ifs with clean mode
  · rfl
  · rfl
  · rw [bne_iff_ne, not_not] at clean
    rw [Bool.or_eq_true, not_or, Bool.not_eq_true', Bool.not_eq_true] at mode
    rcases h with stuck | mode0 | expired
    · exact absurd clean stuck
    · exact absurd mode0 mode.1
    · exact absurd expired (by rw [mode.2]; decide)

/-- A clean recovery under MODE 1 leads to DEGRADED (R234). -/
theorem recover_degrades {f : Fcu} {g : Fin 4} (mode : f.degrades g = true) (runs : f.groups[g].degExp = false) :
    f.recover g 0 = (f.markStuck g 0).modGrp g fun x => { x with st := .degraded } := by
  have group : (f.markStuck g 0).groups[g] = f.groups[g] := by rw [markStuck_groups]
  unfold recover
  dsimp only
  rw [group, markStuck_degrades, mode, runs]
  rfl

end Fcu

/-! ## The commands -/

/-- The check of an OFF group ends in NORMAL when it is clean, else in LATCHED (R222). -/
theorem exec_groupOffCheck {s : State} {g : Fin 4} (active : s.fcu.active = true) (st : s.fcu.groups[g].st = .off)
    (check : s.fcu.groups[g].check = true) (high : BitVec 8) :
    exec (.groupOffCheck g high) s = if high = 0
      then .next { s.begin with
        fcu := ((s.fcu.markStuck g high).modGrp g fun x => { x with st := .normal, check := false }).driveGroup s.sup.warnNow g }
      else .next { s.begin with fcu := (s.fcu.markStuck g high).latch g } := by
  refine if_neg ?_
  rw [State.begin_fcu, active, st, check]
  decide

theorem exec_groupOffCheck_stands {s : State} {g : Fin 4}
    (h : s.fcu.active = false ∨ s.fcu.groups[g].st ≠ .off ∨ s.fcu.groups[g].check = false) (high : BitVec 8) :
    exec (.groupOffCheck g high) s = .next s.begin := by
  refine if_pos ?_
  rw [Bool.not_eq_true', State.begin_fcu]
  rcases h with passive | other | done
  · rw [passive, Bool.false_and, Bool.false_and]
  · rw [beq_false_of_ne other, Bool.and_false, Bool.false_and]
  · rw [done, Bool.and_false]

theorem exec_toggleStop (s : State) (l : LaneId) (g : Fin 4) :
    exec (.toggleStop l g) s = .next (s.begin.setLane l { s.lane l with
      lio := { (s.lane l).lio with toggle := (s.lane l).lio.toggle &&& ~~~(1#4 <<< g.val) } }) := by
  rw [← State.begin_lane]
  rfl

/-- Two lanes toggle a group's line, its cut switch is closed and the FCU is sound: its VPR is energised (R226). -/
def State.feeds (s : State) (g : Fin 4) : Prop := 2 ≤ s.togglers g ∧ s.fcu.groups[g].cut = false ∧ s.fcu.fault = false

theorem State.feeds_iff (s : State) (g : Fin 4) :
    (decide (2 ≤ s.begin.togglers g) && !s.begin.fcu.groups[g].cut && !s.begin.fcu.fault) = true ↔ s.feeds g := by
  have toggles : s.begin.togglers g = s.togglers g := by simp only [togglers, begin_lane]
  rw [toggles, Bool.and_eq_true, Bool.and_eq_true, decide_eq_true_eq, Bool.not_eq_true', Bool.not_eq_true', and_assoc]
  rfl

theorem exec_vprEnergise {s : State} {g : Fin 4} (h : s.feeds g) :
    exec (.vprEnergise g) s = .next { s.begin with
      fcu := (s.fcu.modGrp g fun x => { x with vpr := true, waitVpr := false }).driveGroup s.sup.warnNow g } :=
  if_pos ((s.feeds_iff g).mpr h)

theorem exec_vprEnergise_unfed {s : State} {g : Fin 4} (h : ¬ s.feeds g) : exec (.vprEnergise g) s = .next s.begin :=
  if_neg (mt (s.feeds_iff g).mp h)

theorem exec_vprDeenergise_fed {s : State} {g : Fin 4} (h : s.feeds g) : exec (.vprDeenergise g) s = .next s.begin :=
  if_pos ((s.feeds_iff g).mpr h)

/-- A VPR that is no longer fed is de-energised, the role is settled, and the group is cut off (R226, R233; log entry 96). -/
theorem exec_vprDeenergise {s : State} {g : Fin 4} (h : ¬ s.feeds g) :
    exec (.vprDeenergise g) s = .next { s.begin with fcu := (s.fcu.unpower g).settleRole.cutOff g } :=
  (if_neg (mt (s.feeds_iff g).mp h)).trans (apply_ite (fun u => Host.Outcome.next { s.begin with fcu := u }) _ _ _).symm

/-- A group whose VPR is energised has its switches follow their commands (R221, R226). -/
theorem Fcu.energised_chan {f : Fcu} {g : Fin 4} (sound : f.fault = false) (low : Bool) {k : Fin 32} (hk : groupOf k = g) :
    let x := f.groups[g]
    let y := f.chans[k]
    (((f.modGrp g fun x => { x with vpr := true, waitVpr := false }).driveGroup low g).chans[k]).on =
      (y.cmd && decide (x.st = .normal ∨ x.st = .degraded) && !y.hold && (y.on || (y.pulse && !y.void) || !(low || y.dip)) &&
        !y.pulse) := by
  have follows : (f.modGrp g fun x => { x with vpr := true, waitVpr := false }).follows g =
      decide (f.groups[g].st = .normal ∨ f.groups[g].st = .degraded) := by
    have fault : (f.modGrp g fun x => { x with vpr := true, waitVpr := false }).fault = false := sound
    rw [Fcu.follows, modGrp_group_same, fault]
    cases f.groups[g].st <;> rfl
  rw [driveGroup_chan _ low hk, driveCh_on, wants, hk, follows]
  rfl

theorem exec_lplusUndervoltage_above {s : State} {mv : Nat} (h : 16800 ≤ mv) (g : Fin 4) :
    exec (.lplusUndervoltage g mv) s = .next s.begin := if_pos h

/-- An undervoltage is noted of a group that does not follow its commands (R234). -/
theorem exec_lplusUndervoltage_noted {s : State} {g : Fin 4} {mv : Nat} (below : mv < 16800)
    (h : s.fcu.groups[g].st = .off ∨ s.fcu.groups[g].st = .supplyLow ∨ s.fcu.groups[g].st = .latched) :
    exec (.lplusUndervoltage g mv) s =
      .next { s.begin with fcu := s.fcu.modGrp g fun x => { x with uv := true, warn := true, mv := mv } } := by
  refine (if_neg (by omega)).trans (if_neg ?_)
  rw [Fcu.modGrp_group_same, State.begin_fcu]
  dsimp only
  rcases h with st | st | st <;> rw [st] <;> decide

/-- A group in undervoltage: SUPPLY-LOW, its limit running under MODE 1 (R234). -/
def FcuGrp.starved (x : FcuGrp) (mv : Nat) (mode : Bool) (t : Nat) : FcuGrp :=
  let y : FcuGrp := { x with uv := true, warn := true, mv := mv }
  { (if mode then y.startLimit t else y) with st := .supplyLow, covLost := y.covLost || mode }

/-- A group that follows its commands goes dark in undervoltage (R234). -/
theorem exec_lplusUndervoltage_starves {s : State} {g : Fin 4} {mv : Nat} (below : mv < 16800)
    (h : s.fcu.groups[g].st = .normal ∨ s.fcu.groups[g].st = .degraded) :
    exec (.lplusUndervoltage g mv) s =
      .next { s.begin with fcu := (s.fcu.modGrp g fun x => x.starved mv (s.fcu.degrades g) (s.fcu.tDeg g)).shut } := by
  have twice : ∀ a b : FcuGrp → FcuGrp, (s.fcu.modGrp g a).modGrp g b = s.fcu.modGrp g fun x => b (a x) := fun a b => by
    simp [Fcu.modGrp]
  refine ((if_neg (by omega)).trans (if_pos ?_)).trans ?_
  · rw [Fcu.modGrp_group_same, State.begin_fcu]
    dsimp only
    rcases h with st | st <;> rw [st] <;> decide
  · rw [State.begin_fcu, twice]
    rfl

theorem exec_lplusRecovery_stands {s : State} {g : Fin 4} {mv : Nat} (h : s.fcu.groups[g].uv = false ∨ mv ≤ 19200) (high : BitVec 8) :
    exec (.lplusRecovery g mv high) s = .next s.begin := by
  refine if_pos ?_
  rw [Bool.or_eq_true, Bool.not_eq_true', decide_eq_true_eq]
  exact h

section
variable {s : State} {g : Fin 4} {mv : Nat} (uv : s.fcu.groups[g].uv = true) (above : 19200 < mv)
include uv above

/-- A recovery of a group outside SUPPLY-LOW (R234). -/
theorem exec_lplusRecovery_noted (h : s.fcu.groups[g].st ≠ .supplyLow) (high : BitVec 8) :
    exec (.lplusRecovery g mv high) s = .next { s.begin with fcu := s.fcu.supplied g mv } := by
  refine (if_neg ?_).trans (if_neg ?_)
  · rw [State.begin_fcu, uv, decide_eq_false (by omega)]
    decide
  · rw [beq_iff_eq]
    exact fun low => h ((congrArg FcuGrp.st (s.fcu.supplied_group_same g mv)).symm.trans low)

/-- A recovery of a group in SUPPLY-LOW (R234). -/
theorem exec_lplusRecovery_recovers (h : s.fcu.groups[g].st = .supplyLow) (high : BitVec 8) :
    exec (.lplusRecovery g mv high) s =
      .next { s.begin with fcu := ((s.fcu.supplied g mv).recover g high).driveGroup s.sup.warnNow g } := by
  refine (if_neg ?_).trans (if_pos ?_)
  · rw [State.begin_fcu, uv, decide_eq_false (by omega)]
    decide
  · rw [beq_iff_eq]
    exact (congrArg FcuGrp.st (s.fcu.supplied_group_same g mv)).trans h

end

theorem exec_degradeLimitFcu_idle {s : State} {g : Fin 4} (h : s.fcu.groups[g].degLeft = none) :
    exec (.degradeLimitFcu g) s = .next s.begin := if_pos (by rw [State.begin_fcu, h]; rfl)

/-- A group's limit has expired (R233). -/
def Fcu.expire (f : Fcu) (g : Fin 4) : Fcu := f.modGrp g fun x => { x with degExp := true, degLeft := some 0, degUs := 0 }

/-- A limit that runs expires, and latches a DEGRADED group (R233). -/
theorem exec_degradeLimitFcu {s : State} {g : Fin 4} (h : s.fcu.groups[g].degLeft.isSome = true) :
    exec (.degradeLimitFcu g) s = .next { s.begin with
      fcu := if s.fcu.groups[g].st = .degraded then (s.fcu.expire g).latch g else s.fcu.expire g } := by
  refine (if_neg (by rw [State.begin_fcu, ← Option.not_isSome, h]; decide)).trans ?_
  dsimp only
  rw [State.begin_fcu, Fcu.modGrp_group_same]
  simp only [beq_iff_eq, Fcu.expire]

theorem exec_degradeLimitLane_counts {s : State} {l : LaneId} {g : Fin 4} (h : (s.lane l).lio.deg g.val ≠ some 0) :
    exec (.degradeLimitLane l g) s = .next s.begin := if_neg (by rwa [beq_iff_eq, State.begin_lane])

/-- A lane whose count has expired stops its toggle (R233). -/
theorem exec_degradeLimitLane_expires {s : State} {l : LaneId} {g : Fin 4} (h : (s.lane l).lio.deg g.val = some 0) :
    exec (.degradeLimitLane l g) s = .next (s.begin.setLane l { s.lane l with lio := { (s.lane l).lio with
      expired := (s.lane l).lio.expired ||| (1#4 <<< g.val)
      toggle := (s.lane l).lio.toggle &&& ~~~(1#4 <<< g.val) } }) := by
  rw [← State.begin_lane] at h ⊢
  exact if_pos (beq_iff_eq.mpr h)

/-- Settles O48: each command by its rule, and what it leaves of its own group, of the others and of the switches. -/
theorem outputGroups : Obligations.OutputGroups := by
  unfold Obligations.OutputGroups
  intro s l g high mv
  dsimp only
  refine ⟨?offCheck, fun stands => exec_groupOffCheck_stands stands high, exec_toggleStop s l g, ?fed, ?unfed, rfl,
    fun above => exec_lplusUndervoltage_above above g, exec_lplusUndervoltage_noted, ?starves,
    fun stands => exec_lplusRecovery_stands stands high, ?noted, ?recovers, exec_degradeLimitFcu_idle, ?expires,
    exec_degradeLimitLane_counts, exec_degradeLimitLane_expires⟩
  case offCheck =>
    intro active st check
    have group : ∀ h : BitVec 8, ∀ k : Fin 4, (s.fcu.markStuck g h).groups[k] = s.fcu.groups[k] := fun h k => by
      rw [Fcu.markStuck_groups]
    refine ⟨⟨_, (exec_groupOffCheck active st check 0).trans (if_pos rfl), ⟨rfl, fun k hk => ?_⟩, ?_⟩, fun stuck =>
      ⟨_, (exec_groupOffCheck active st check high).trans (if_neg stuck), ⟨rfl, fun k hk => ?_⟩, Fcu.latch_dark _ g, ?_,
        fun k hk c hc => ?_⟩⟩ <;> dsimp only
    · rw [Fcu.driveGroup_groups, Fcu.modGrp_group_other _ _ hk, group]
    · rw [Fcu.driveGroup_groups, Fcu.modGrp_group_same, group]
    · rw [Fcu.latch_group_other _ hk, group]
    · rw [Fcu.latch_group_same, group]
      rfl
    · rw [Fcu.latch_chan_fault]
      exact Fcu.markStuck_fault _ hk hc
  case fed =>
    intro feeds
    have ⟨_, _, sound⟩ := feeds
    refine ⟨⟨_, exec_vprEnergise feeds, ⟨rfl, fun k hk => ?_⟩, ?_, fun k hk => ?_⟩, exec_vprDeenergise_fed feeds⟩ <;> dsimp only
    · rw [Fcu.driveGroup_groups, Fcu.modGrp_group_other _ _ hk]
    · rw [Fcu.driveGroup_groups, Fcu.modGrp_group_same]
    · exact Fcu.energised_chan sound _ hk
  case unfed =>
    intro unfed
    have only := Fcu.SwitchesOnly.unpower s.fcu g
    have own := s.fcu.unpower_group_same g
    have st := congrArg FcuGrp.st own
    refine ⟨exec_vprEnergise_unfed unfed, fun stands => ?_, fun fixed few active => ?_⟩
    · rw [← only.b2, ← only.present, ← only.active] at stands
      have step := exec_vprDeenergise unfed
      rw [Fcu.settleRole_stands stands] at step
      obtain ⟨-, dark, vpr, others, keeps, latches⟩ := Fcu.cutOff_fields (congrArg FcuGrp.vpr own)
      exact ⟨_, step, ⟨rfl, fun k hk => (others k hk).trans (s.fcu.unpower_group_other hk)⟩, dark, vpr,
        fun h => (keeps (fun e => h (st.symm.trans e))).trans st, fun h => latches (st.trans h)⟩
    · rw [← only.b2] at fixed
      rw [← only.present] at few
      rw [← only.active] at active
      obtain ⟨passive, vprKept, leaves⟩ := Fcu.settleRole_leaves fixed few active g
      obtain ⟨cut, dark, vpr, -, keeps, -⟩ := Fcu.cutOff_fields (vprKept.trans (congrArg FcuGrp.vpr own))
      refine ⟨_, exec_vprDeenergise unfed, rfl, dark, cut.active.trans passive, vpr, fun latched low => ?_⟩
      have off := leaves (fun e => latched (st.symm.trans e)) (fun e => low (st.symm.trans e))
      exact (keeps (by rw [off]; exact GrpSt.noConfusion)).trans off
  case starves =>
    intro below st
    refine ⟨_, exec_lplusUndervoltage_starves below st, ⟨rfl, fun k hk => ?_⟩, ?_, ?_⟩ <;> dsimp only
    · rw [Fcu.shut_groups, Fcu.modGrp_group_other _ _ hk]
    · refine Fcu.shut_dark (Fcu.not_follows_of_st ?_ ?_) <;> rw [Fcu.modGrp_group_same] <;> exact GrpSt.noConfusion
    · rw [Fcu.shut_groups, Fcu.modGrp_group_same]
      cases s.fcu.degrades g
      · exact ⟨rfl, rfl, rfl, rfl, Bool.noConfusion⟩
      · exact ⟨rfl, rfl, rfl, rfl, fun _ => rfl⟩
  case noted =>
    intro uv above st
    exact ⟨_, exec_lplusRecovery_noted uv above st high, ⟨rfl, fun k hk => s.fcu.supplied_group_other hk mv⟩,
      s.fcu.supplied_chans g mv, s.fcu.supplied_group_same g mv⟩
  case recovers =>
    intro uv above st
    have own := s.fcu.supplied_group_same g mv
    have expired := congrArg FcuGrp.degExp own
    have group : ∀ h : BitVec 8, ∀ k : Fin 4, ((s.fcu.supplied g mv).markStuck g h).groups[k] = (s.fcu.supplied g mv).groups[k] :=
      fun h k => by rw [Fcu.markStuck_groups]
    rw [← s.fcu.supplied_degrades g mv]
    refine ⟨fun ends => ?_, fun mode runs => ?_⟩
    · have step := exec_lplusRecovery_recovers uv above st high
      rw [Fcu.recover_latches (ends.imp_right (Or.imp_right expired.trans))] at step
      refine ⟨_, step, ⟨rfl, fun k hk => ?_⟩, Fcu.driveGroup_dark _ (Fcu.latch_follows _ g), ?_⟩ <;> dsimp only
      · rw [Fcu.driveGroup_groups, Fcu.latch_group_other _ hk, group, Fcu.supplied_group_other _ hk]
      · rw [Fcu.driveGroup_groups, Fcu.latch_group_same, group, own]
        exact ⟨rfl, rfl⟩
    · have step := exec_lplusRecovery_recovers uv above st 0
      rw [Fcu.recover_degrades mode (expired.trans runs)] at step
      refine ⟨_, step, ⟨rfl, fun k hk => ?_⟩, ?_⟩ <;> dsimp only
      · rw [Fcu.driveGroup_groups, Fcu.modGrp_group_other _ _ hk, group, Fcu.supplied_group_other _ hk]
      · rw [Fcu.driveGroup_groups, Fcu.modGrp_group_same, group, own]
        exact ⟨rfl, rfl, rfl⟩
  case expires =>
    intro running
    have step := exec_degradeLimitFcu running
    refine ⟨fun degraded => ?_, fun other => ?_⟩
    · rw [if_pos degraded] at step
      refine ⟨_, step, ⟨rfl, fun k hk => ?_⟩, Fcu.latch_dark _ g, Fcu.latch_st _ g, ?_⟩ <;> dsimp only
      · rw [Fcu.latch_group_other _ hk, Fcu.expire, Fcu.modGrp_group_other _ _ hk]
      · rw [Fcu.latch_group_same, Fcu.expire, Fcu.modGrp_group_same]
        rfl
    · rw [if_neg other] at step
      exact step

end Sys2Proof.Machine
end

section
/-!
PROOFS. O49: heartbeats of the partner on its link and on the ring (spec/11_partner_and_failover.md R238 to R256;
spec/12_cluster_and_host.md R265, R266).
-/
namespace Sys2Proof.Machine

/-! ## A ring frame that one lane takes -/

/-- The last of a list is among its 256 last. -/
theorem mem_drop_concat (ws : List Word) (q : Word) : q ∈ (ws ++ [q]).drop ((ws ++ [q]).length - 256) := by
  rw [List.drop_append_of_le_length]
  · exact List.mem_append_right _ List.mem_cons_self
  · simp only [List.length_append, List.length_singleton]
    omega

/-- A number that enters a window is in it (R265). -/
theorem Ring.mem_window_note (r : Ring) (src : Byte) (q : Word) : q ∈ (r.note src q).window src := by
  have last := mem_drop_concat (r.window src) q
  unfold Ring.note Ring.window at *
  dsimp only
  rw [Mem.set, if_neg (List.ne_nil_of_mem last), Mem.get_put_same]
  exact last

/-- The lane after a ring frame that it takes, with the counts in `b` (R265, R286). -/
def Lane.tookFrame (l : Lane) (r : RingRx) (b : StatB) : Lane :=
  { l with ring := l.ring.note r.hdr.src r.hdr.seq, stats := { l.stats with b := b } }

/-- A lane takes a frame for its module that is not a later copy, whether it counts a forwarded one or not (R265). -/
theorem Lane.ringIn_takes {l : Lane} {r : RingRx} (takes : l.ringTakes r = true) (first : r.hdr.seq ∉ l.ring.window r.hdr.src)
    (out : Bool) : ∃ b, l.ringIn r out = (l.tookFrame r b, true) := by
  unfold Lane.ringIn
  dsimp only
  split
  · rw [show (l.statB _).ringTakes r = true from takes, show (l.statB _).ring = l.ring from rfl]
    simp only [List.contains_eq_mem, first]
    exact ⟨_, rfl⟩
  · rw [takes]
    simp only [List.contains_eq_mem, first]
    exact ⟨_, rfl⟩

/-- Forwarding a frame leaves the lanes (R264). -/
@[simp] theorem State.ringOut_lane (s : State) (r : RingRx) (b : RingBody) (y : LaneId) : (s.ringOut r b).lane y = s.lane y := by
  unfold State.ringOut
  split
  · rfl
  · split
    · exact State.emit_lane ..
    · rfl

/-- A frame that came to one lane alone, and that it takes, is handled in that lane, where it has entered the window (R265). -/
theorem State.ringFrame_takes {s : State} {r : RingRx} {x : LaneId} (alone : r.lanes = noLanes.put x true)
    (taken : TakesFrame s r x) (b : RingBody) (f : State → LaneId → State) :
    ∃ k, s.ringFrame r r.hdr.cls b f = f ((s.ringOut r b).setLane x ((s.lane x).tookFrame r k)) x := by
  have one : s.ringLanes r = [x] := by
    have receives (y : LaneId) : (r.lanes.has y && (s.lane y).onRing) = decide (y = x) := by
      have none : noLanes.has y = false := by cases y <;> rfl
      rw [alone, LaneSet.put_has, none]
      by_cases e : y = x
      · simp [e, taken.port]
      · simp [e]
    simp only [State.ringLanes, receives]
    cases x <;> rfl
  obtain ⟨k, step⟩ := Lane.ringIn_takes taken.takes taken.first (s.txLane (ringPortOf (ringOther r.port))).isSome
  exact ⟨k, by simp [State.ringFrame, State.ringTake, one, step, State.modLane]⟩

/-! ## What a heartbeat moves in a lane -/

namespace Lane

/-- `m` is `l` but for its slew, the result of its tracking and the drops it was told of (R238, R240, R243). -/
structure Tracks (l m : Lane) : Prop where
  rest : m = { l with
    align := m.align
    re := m.re
    ptn := { l.ptn with track := m.ptn.track, trackRun := m.ptn.trackRun, trackOff := m.ptn.trackOff } }

theorem Tracks.trans {l m k : Lane} (h : Tracks l m) (i : Tracks m k) : Tracks l k := ⟨by rw [i.rest, h.rest]⟩

theorem Tracks.ite {c : Prop} [Decidable c] {l m k : Lane} (h : Tracks l m) (i : Tracks l k) : Tracks l (if c then m else k) := by
  split <;> assumption

/-- The lane after the slew target, the tracking and the drop notice of a heartbeat. -/
def tracked (l : Lane) (img : Image) (p : HbPath) (arrival : Int) (h : Heartbeat) (first : Bool) : Lane :=
  ((l.hearTarget img p arrival h first).hearTrack h).hearDrop h

theorem tracked_tracks (l : Lane) (img : Image) (p : HbPath) (arrival : Int) (h : Heartbeat) (first : Bool) :
    Tracks l (l.tracked img p arrival h first) :=
  have target : Tracks l (l.hearTarget img p arrival h first) := .ite ⟨rfl⟩ ⟨rfl⟩
  have track (m : Lane) : Tracks m (m.hearTrack h) := .ite ⟨rfl⟩ (.ite ⟨rfl⟩ ⟨rfl⟩)
  have drop (m : Lane) : Tracks m (m.hearDrop h) := .ite ⟨rfl⟩ ⟨rfl⟩
  (target.trans (track _)).trans (drop _)

/-- The lane after a heartbeat's part in a handover and the stand-down that it asks for (R248, R256). -/
def handedOver (l : Lane) (img : Image) (arrival : Int) (h : Heartbeat) : Lane :=
  let m := l.hearHandover img arrival h
  if m.yields img h then { m with fail := { m.fail with standDown := true } } else m

/-- Handover and stand-down are all that it moves. -/
theorem handedOver_rest (l : Lane) (img : Image) (arrival : Int) (h : Heartbeat) : l.handedOver img arrival h =
    { l with fail := { l.fail with
      ho := (l.handedOver img arrival h).fail.ho, standDown := (l.handedOver img arrival h).fail.standDown } } := by
  have handover : l.hearHandover img arrival h = { l with fail := { l.fail with
      ho := (l.hearHandover img arrival h).fail.ho, standDown := (l.hearHandover img arrival h).fail.standDown } } := by
    unfold Lane.hearHandover
    repeat' split
    all_goals rfl
  unfold handedOver
  dsimp only
  split <;> rw [handover]

/-- An ACTIVE lane, in no handover, that hears an ACTIVE partner of a higher epoch stands down (R248). -/
theorem handedOver_standDown {l : Lane} {h : Heartbeat} (active : l.active = true) (idle : l.fail.ho = .idle)
    (role : h.role = 0) (higher : l.ptn.epoch.toNat < h.epoch.toNat) (img : Image) (arrival : Int) :
    (l.handedOver img arrival h).fail.standDown = true := by
  have stays : l.hearHandover img arrival h = l := by simp only [Lane.hearHandover, idle]
  have yields : l.yields img h = true := by simp [Lane.yields, Lane.epochHere, active, idle, role, higher]
  simp only [handedOver, stays, yields, if_true]

/-- A heartbeat names the role, the epochs and the frame of the partner, and perhaps its commander (R177, R252, R253, R260;
log entry 33). -/
theorem hearPartner_eq (l : Lane) (h : Heartbeat) : l.hearPartner h = { l with
    fail := (l.hearPartner h).fail
    ptn := { l.ptn with
      prole := h.role.setWidth 4
      pse := h.sepoch
      last := some h
      pEpoch := if h.role = 5 then l.ptn.pEpoch else h.epoch } } := by
  unfold Lane.hearPartner
  dsimp only
  split <;> rfl

/-- Naming the partner moves neither a stand-down nor an acknowledgement. -/
theorem hearPartner_fail (l : Lane) (h : Heartbeat) : (l.hearPartner h).fail.standDown = l.fail.standDown ∧
    (l.hearPartner h).fail.candAck = l.fail.candAck := by
  have commander (f : Fail) (c : Byte × Word) :
      (f.hearCommander c).standDown = f.standDown ∧ (f.hearCommander c).candAck = f.candAck := by
    unfold Fail.hearCommander
    split <;> exact ⟨rfl, rfl⟩
  unfold Lane.hearPartner
  dsimp only
  split
  · exact commander ..
  · exact ⟨rfl, rfl⟩

/-- A dormant lane takes the number of the cycle that a heartbeat names (R241). -/
def numbered (l : Lane) (h : Heartbeat) : Lane :=
  if l.ptn.role == 3 && h.cyc != 0 then { l with cyc := { l.cyc with num := h.cyc } } else l

/-- The number of its cycle is all that it moves. -/
theorem numbered_rest (l : Lane) (h : Heartbeat) : l.numbered h = { l with cyc := (l.numbered h).cyc } := by
  unfold numbered
  split <;> rfl

/-- A lane that is not dormant keeps its number. -/
theorem numbered_of_awake {l : Lane} (awake : l.ptn.role ≠ 3) (h : Heartbeat) : l.numbered h = l :=
  if_neg fun e => awake (eq_of_beq (Bool.and_eq_true_iff.mp e).1)

/-- A lane that is no candidate acknowledges nothing (R256). -/
theorem hearAnnounce_of_role {l : Lane} (role : l.ptn.role ≠ 4) (h : Heartbeat) : l.hearAnnounce h = l := by
  refine if_neg fun e => ?_
  simp only [Bool.and_eq_true, beq_iff_eq] at e
  obtain ⟨⟨⟨⟨-, four⟩, -⟩, -⟩, -⟩ := e
  exact role four

/-- A heartbeat of the running cycle in a lane that is no candidate, part by part. -/
theorem hearNow_eq {l : Lane} (role : l.ptn.role ≠ 4) (img : Image) (p : HbPath) (arrival : Int) (h : Heartbeat) (first : Bool) :
    l.hearNow img p arrival h first =
      (((l.tracked img p arrival h first).handedOver img arrival h).hearPartner h).numbered h := by
  let m := ((l.tracked img p arrival h first).handedOver img arrival h).hearPartner h
  have kept : m.ptn.role = l.ptn.role := by
    show (Lane.hearPartner _ _).ptn.role = _
    rw [hearPartner_eq, handedOver_rest, (tracked_tracks ..).rest]
  show (m.hearAnnounce h).numbered h = m.numbered h
  rw [hearAnnounce_of_role (kept ▸ role)]

/-- `m` is `l` after a heartbeat heard in its cycle: what tracking, failover and the naming of the partner move, with the
number of the cycle in a dormant lane. -/
structure Hearing (l m : Lane) (h : Heartbeat) : Prop where
  rest : m = { l with
    align := m.align
    re := m.re
    fail := m.fail
    cyc := m.cyc
    ptn := { l.ptn with
      track := m.ptn.track
      trackRun := m.ptn.trackRun
      trackOff := m.ptn.trackOff
      prole := h.role.setWidth 4
      pse := h.sepoch
      last := some h
      pEpoch := if h.role = 5 then l.ptn.pEpoch else h.epoch } }
  cyc : l.ptn.role ≠ 3 → m.cyc = l.cyc
  candAck : m.fail.candAck = l.fail.candAck
  standDown : l.active = true → l.fail.ho = .idle → h.role = 0 → l.ptn.epoch.toNat < h.epoch.toNat → m.fail.standDown = true

theorem hearNow_hearing {l : Lane} (role : l.ptn.role ≠ 4) (img : Image) (p : HbPath) (arrival : Int) (h : Heartbeat)
    (first : Bool) : Hearing l (l.hearNow img p arrival h first) h := by
  let a := l.tracked img p arrival h first
  let b := a.handedOver img arrival h
  let c := b.hearPartner h
  have tracks : a = _ := (tracked_tracks l img p arrival h first).rest
  have hands : b = _ := handedOver_rest a img arrival h
  have names : c = _ := hearPartner_eq b h
  obtain ⟨stands, acks⟩ := hearPartner_fail b h
  have num := numbered_rest c h
  have kept : c.ptn.role = l.ptn.role ∧ c.cyc = l.cyc := by
    rw [names, hands, tracks]
    exact ⟨rfl, rfl⟩
  have failed : (c.numbered h).fail = c.fail := congrArg (·.fail) num
  have acked : b.fail.candAck = l.fail.candAck := by rw [hands, tracks]
  rw [hearNow_eq role]
  refine ⟨?_, fun awake => ?_, ?_, fun active idle zero higher => ?_⟩
  · show c.numbered h = _
    rw [num, names, hands, tracks]
  · show (c.numbered h).cyc = _
    rw [numbered_of_awake (kept.1 ▸ awake), kept.2]
  · exact (congrArg Fail.candAck failed).trans (acks.trans acked)
  · refine (congrArg Fail.standDown failed).trans (stands.trans (handedOver_standDown ?_ ?_ zero ?_ img arrival)) <;>
      (rw [tracks]; assumption)

/-! ### The path of a heartbeat -/

/-- The lane with its heartbeat paths replaced. -/
theorem hearPath_rest (l : Lane) (img : Image) (p : HbPath) (arrival : Int) (h : Heartbeat) :
    let m := l.hearPath img p arrival h
    m = { l with ptn := { l.ptn with
      path1 := m.ptn.path1, got1 := m.ptn.got1, rx1 := m.ptn.rx1, path2 := m.ptn.path2, got2 := m.ptn.got2, rx2 := m.ptn.rx2 } } := by
  unfold Lane.hearPath
  cases p <;> dsimp only <;> split <;> rfl

theorem hearPath_link (l : Lane) (img : Image) (arrival : Int) (h : Heartbeat) : (l.hearPath img .link arrival h).ptn.path1 = true := by
  unfold Lane.hearPath
  dsimp only
  split <;> rfl

theorem hearPath_ring (l : Lane) (img : Image) (arrival : Int) (h : Heartbeat) : (l.hearPath img .ring arrival h).ptn.path2 = true := by
  unfold Lane.hearPath
  dsimp only
  split <;> rfl

/-- A heartbeat of the running cycle by D_agree ends the silence of its path (R241). -/
theorem hearPath_inTime {l : Lane} {img : Image} {arrival : Int} {h : Heartbeat} (same : l.cyc.num = h.cyc)
    (inTime : l.byAgree img arrival = true) (cycle : h.cyc ≠ 0) : (l.hearPath img .link arrival h).ptn.got1 = true := by
  have this : l.ofThisCycle h = true := by simp [Lane.ofThisCycle, same]
  rw [Lane.hearPath, if_neg cycle, this, inTime]
  simp

/-- One after D_agree does not, in an armed lane that is not dormant (R241). -/
theorem hearPath_late {l : Lane} {img : Image} {arrival : Int} (armed : l.mode.armed = true) (awake : l.ptn.role ≠ 3)
    (late : l.byAgree img arrival = false) (h : Heartbeat) : (l.hearPath img .link arrival h).ptn.got1 = l.ptn.got1 := by
  unfold Lane.hearPath
  dsimp only
  split <;> simp only [armed, beq_eq_false_iff_ne.mpr awake, late, Bool.not_true, Bool.or_false, Bool.and_false]

/-- What a heartbeat heard in its cycle leaves in a lane: its names of the partner, and what stands. -/
def Heard (m k : Lane) (h : Heartbeat) : Prop :=
  k.store = m.store ∧ k.ptn.silent1 = m.ptn.silent1 ∧ k.ptn.silent2 = m.ptn.silent2 ∧ k.ptn.role = m.ptn.role ∧
    k.ptn.prole = h.role.setWidth 4 ∧ k.ptn.pse = h.sepoch ∧ k.ptn.last = some h ∧
    k.ptn.pEpoch = (if h.role = 5 then m.ptn.pEpoch else h.epoch) ∧ (m.ptn.role ≠ 3 → k.cyc = m.cyc) ∧
    (m.mode.armed = true → m.ptn.role = 0 → m.fail.ho = .idle → h.role = 0 → m.ptn.epoch.toNat < h.epoch.toNat →
      k.fail.standDown = true)

section
variable {l : Lane} {h : Heartbeat} (role : l.ptn.role ≠ 4) (img : Image) (p : HbPath) (arrival : Int)
include role

theorem hear_now (now : ¬ l.tooEarly h = true) :
    Hearing (l.hearPath img p arrival h) (l.hear img p arrival h) h := by
  have same : (l.hearPath img p arrival h).ptn.role ≠ 4 := by rwa [hearPath_rest]
  unfold Lane.hear
  dsimp only
  rw [if_neg now]
  exact hearNow_hearing same ..

theorem hear_heard (now : ¬ l.tooEarly h = true) : Heard l (l.hear img p arrival h) h := by
  have path := hearPath_rest l img p arrival h
  have hearing := hear_now role img p arrival now
  have cyc := hearing.cyc
  have stands := hearing.standDown
  rw [path] at cyc stands
  have active (armed : l.mode.armed = true) (zero : l.ptn.role = 0) : l.active = true := by simp [Lane.active, armed, zero]
  refine ⟨?_, ?_, ?_, ?_, ?_, ?_, ?_, ?_, cyc, fun armed zero => stands (active armed zero)⟩ <;> rw [hearing.rest, path]

/-- The bookkeeping of the paths is that of the path alone. -/
theorem hear_paths (now : ¬ l.tooEarly h = true) : let k := (l.hear img p arrival h).ptn
    let m := (l.hearPath img p arrival h).ptn
    k.path1 = m.path1 ∧ k.path2 = m.path2 ∧ k.got1 = m.got1 := by
  rw [(hear_now role img p arrival now).rest]
  exact ⟨rfl, rfl, rfl⟩

end

/-- One of the next cycle waits for the lane's boundary (log entry 115). -/
theorem hear_early {l : Lane} {h : Heartbeat} (early : l.tooEarly h = true) (img : Image) (p : HbPath) (arrival : Int) :
    l.hear img p arrival h = { l.hearPath img p arrival h with ptn := { (l.hearPath img p arrival h).ptn with
      early := l.ptn.early ++ [(p, arrival, h)] } } := by
  unfold Lane.hear
  dsimp only
  rw [if_pos early, hearPath_rest]

/-- A lane that is no candidate acknowledges nothing (R256). -/
theorem hear_candAck {l : Lane} (role : l.ptn.role ≠ 4) (img : Image) (p : HbPath) (arrival : Int) (h : Heartbeat) :
    (l.hear img p arrival h).fail.candAck = l.fail.candAck := by
  by_cases early : l.tooEarly h = true
  · rw [hear_early early, hearPath_rest]
  · rw [(hear_now role img p arrival early).candAck, hearPath_rest]

end Lane

/-! ## A heartbeat received -/

section
variable {s : State} {l : LaneId} {bytes : List Byte} {img : Image} {h : Heartbeat}

/-- One that fails either tag is treated as not received (R241). -/
theorem State.hearHeartbeat_false (image : (s.lane l).boot.img = some img) (read : parseHeartbeat bytes = some h)
    (wrong : (s.lane l).heartbeatTrue img h bytes = false) (p : HbPath) (arrival : Int) :
    s.hearHeartbeat l p arrival bytes = s := by
  simp only [State.hearHeartbeat, image, read, wrong]
  simp

/-- A true one is heard in its lane, which sends nothing unless it is a candidate (R241, R256). -/
theorem State.hearHeartbeat_true (live : (s.lane l).live = true) (image : (s.lane l).boot.img = some img)
    (partner : (s.lane l).hasPartner = true) (read : parseHeartbeat bytes = some h) (role : (s.lane l).ptn.role ≠ 4)
    (tagged : (s.lane l).heartbeatTrue img h bytes = true) (p : HbPath) (arrival : Int) :
    s.hearHeartbeat l p arrival bytes = s.setLane l ((s.lane l).hear img p arrival h) := by
  simp only [State.hearHeartbeat, image, read, live, partner, tagged, Lane.hear_candAck role]
  cases (s.lane l).fail.candAck <;> rfl

/-- On the partner link, a frame with a bad CRC and one that comes while the link is down are discarded (R239, R333). -/
theorem exec_heartbeatRx_link (s : State) (l : LaneId) (crcOk : Bool) (arrival : Int) (bytes : List Byte) :
    exec (.heartbeatRx l none crcOk arrival bytes) s =
      .next (if crcOk && !(s.lane l).meter.portDown.getLsbD 8 then s.begin.hearHeartbeat l .link arrival bytes else s.begin) := by
  rw [← State.begin_lane]
  rfl

/-- On the ring, a true one is heard in its lane, which took its frame, by its arrival less its ring delay (R238, R265, R266). -/
theorem exec_heartbeatRx_ring (live : (s.lane l).live = true) (image : (s.lane l).boot.img = some img)
    (partner : (s.lane l).hasPartner = true) (read : parseHeartbeat bytes = some h) (role : (s.lane l).ptn.role ≠ 4)
    (tagged : (s.lane l).heartbeatTrue img h bytes = true) {r : RingRx} (cls : r.hdr.cls = 0x10)
    (taken : TakesFrame s { r with lanes := noLanes.put l true } l) (arrival : Int) :
    ∃ (u : State) (k : StatB), let n := (s.lane l).tookFrame r k
      exec (.heartbeatRx l (some r) true arrival bytes) s =
          .next (u.setLane l (n.hear img .ring (arrival - (n.ringDelay r / 10 : Nat)) h)) ∧
        ∀ y, u.lane y = s.lane y := by
  let q : RingRx := { r with lanes := noLanes.put l true }
  have here : TakesFrame s.begin q l := by
    obtain ⟨lanes, port, takes, first⟩ := taken
    exact ⟨lanes, by rwa [State.begin_lane], by rwa [State.begin_lane], by rwa [State.begin_lane]⟩
  obtain ⟨k, frame⟩ := State.ringFrame_takes rfl here (.raw bytes) fun t x =>
    t.hearHeartbeat x .ring (arrival - ((t.lane x).ringDelay q / 10 : Nat)) bytes
  let u := s.begin.ringOut q (.raw bytes)
  let n := (s.lane l).tookFrame r k
  have lane : (u.setLane l n).lane l = n := State.setLane_lane_same ..
  have heard := State.hearHeartbeat_true (s := u.setLane l n) (l := l) (by rwa [lane]) (by rwa [lane]) (by rwa [lane]) read
    (by rwa [lane]) (by rwa [lane]) .ring (arrival - (n.ringDelay q / 10 : Nat))
  rw [lane, State.setLane_setLane] at heard
  have sound : ({ q with fcsOk := r.fcsOk && true } : RingRx) = q := by rw [Bool.and_true]
  rw [State.begin_lane, show q.hdr.cls = 0x10 from cls] at frame
  refine ⟨u, k, ?_, fun y => by rw [State.ringOut_lane, State.begin_lane]⟩
  rw [show n.ringDelay r = n.ringDelay q from rfl, ← heard]
  show (.next (s.begin.ringFrame { q with fcsOk := r.fcsOk && true } 0x10 (.raw bytes) _) : Answer) = _
  rw [sound, frame, show (s.lane l).tookFrame q k = n from rfl, lane]

end

/-- Settles O49: a true heartbeat is `Lane.hear` in its lane, and `Lane.hear` by the path, the tracking, the failover and the
naming of the partner. -/
theorem heartbeatsHeard : Obligations.HeartbeatsHeard := by
  unfold Obligations.HeartbeatsHeard
  intro s l r arrival bytes img h m q live image partner read role early heard
  have link (up : m.meter.portDown.getLsbD 8 = false) (tagged : m.heartbeatTrue img h bytes = true) :
      exec (.heartbeatRx l none true arrival bytes) s = .next (s.begin.setLane l (m.hear img .link arrival h)) := by
    have step := State.hearHeartbeat_true (s := s.begin) (l := l) (by simpa using live) (by simpa using image)
      (by simpa using partner) read (by simpa using role) (by simpa using tagged) .link arrival
    rw [exec_heartbeatRx_link, up, step, State.begin_lane]
    rfl
  refine ⟨?now, ?early, ?wrong, exec_heartbeatRx_link .., ?ring⟩
  case now =>
    intro up tagged now
    obtain ⟨path, -, got⟩ := Lane.hear_paths role img .link arrival now
    refine ⟨_, link up tagged, ⟨keepsOthers_setLane s.begin_lane _ _, ?_⟩, ?_⟩ <;> rw [State.setLane_lane_same]
    · exact Lane.hear_heard role img .link arrival now
    · rw [State.setLane_out, got]
      refine ⟨rfl, path.trans (Lane.hearPath_link ..), fun same judged inTime cycle => ?_, fun armed awake late => ?_⟩
      · exact Lane.hearPath_inTime same (by simp [Lane.byAgree, judged, inTime]) cycle
      · refine Lane.hearPath_late armed awake ?_ h
        rcases late with judged | after
        · simp [Lane.byAgree, judged]
        · simp [Lane.byAgree, after]
  case early =>
    intro up tagged early
    refine ⟨_, link up tagged, keepsOthers_setLane s.begin_lane _ _, State.setLane_out .., ?_⟩
    rw [State.setLane_lane_same, Lane.hear_early early]
    refine ⟨rfl, Lane.hearPath_link .., ?_⟩
    rw [Lane.hearPath_rest]
    exact ⟨rfl, rfl, rfl, rfl⟩
  case wrong =>
    intro wrong
    have same := State.hearHeartbeat_false (s := s.begin) (l := l) (by simpa using image) read (by simpa using wrong) .link arrival
    rw [exec_heartbeatRx_link, same, ite_self]
  case ring =>
    intro _ cls taken tagged now
    obtain ⟨u, k, step, same⟩ := exec_heartbeatRx_ring live image partner read role tagged cls taken arrival
    let n := m.tookFrame r k
    obtain ⟨-, path, -⟩ := Lane.hear_paths (l := n) role img .ring (arrival - (n.ringDelay r / 10 : Nat)) now
    refine ⟨_, step, ⟨keepsOthers_setLane same _ _, ?_⟩, ?_⟩ <;> rw [State.setLane_lane_same]
    · exact Lane.hear_heard (l := n) role img .ring _ now
    · refine ⟨path.trans (Lane.hearPath_ring ..), ?_⟩
      rw [(Lane.hear_now (l := n) role img .ring _ now).rest, Lane.hearPath_rest]
      exact Ring.mem_window_note ..

end Sys2Proof.Machine
end

section
/-!
PROOFS. O59: the limits on sessions (spec/12_cluster_and_host.md R274), where several sessions go by one number.
-/
namespace Sys2Proof.Machine

/-- Three sessions under one number, the first of which alone has maintainer rights, and a key update of that number. -/
def sharedNumber : State :=
  { State.reset with
    sessions := [{ portSession with maint := true }, portSession, portSession]
    pending := [.keyupdate 1 noLanes] }

/-- Three sessions are open, of which one has maintainer rights. -/
theorem sharedNumber_limits : sessionLimits sharedNumber := by
  unfold sessionLimits
  decide

/-- Refutes O59: a session is written back under its number (R309), so a key update gives the rights of the first session to
every other of the same number, and three sessions of one number then have maintainer rights. -/
theorem not_sessionLimitsKept : ¬ Obligations.SessionLimitsKept := by
  unfold Obligations.SessionLimitsKept
  rintro ⟨kept, -⟩
  have after := kept sharedNumber _ sharedNumber_limits rfl
  exact absurd after.2 (by decide)

end Sys2Proof.Machine
end

section
/-!
PROOFS. O19: reads of the register space (spec/19_register_space.md R383), at a lane that a session's frames do not reach.
-/
namespace Sys2Proof.Machine

/-- A read at a lane that cannot answer its session latches nothing (R333, R383). -/
theorem exec_loReadLatch_unheard {s : State} {sess : Nat} {k : Session} {l : LaneId} (hk : s.session sess = some k)
    (hl : s.hears k l = false) (a : Word) : exec (.loReadLatch sess l a) s = .next s.begin := by
  have hl' : s.begin.hears k l = false := by simpa [State.hears] using hl
  simp [exec, execLoReadLatch, State.serve, show s.begin.session sess = some k from hk, hl']

/-- The module of `portState` with Lane B in cycle 2^32, where the high register of CYC_NUM is 1. -/
def lateState : State :=
  { portState with lb := { portLane 0x80 with cyc := { CycState.init with num := 0x100000000, running := true } } }

/-- Refutes O19: a lane whose host ports are down does not hear the session (R333), so its read of a low register latches
nothing there, where the statement asks only that the lane hold the session's keys and be out of reset. -/
theorem not_registerReads : ¬ Obligations.RegisterReads := by
  unfold Obligations.RegisterReads
  rintro ⟨-, latch⟩
  obtain ⟨cycle, -⟩ := latch lateState 1 .b portSession (by decide) (by decide) (by decide)
  rw [exec_loReadLatch_unheard (k := portSession) (by decide) (by decide)] at cycle
  have sessions := congrArg State.sessions (Host.Outcome.next.inj cycle)
  exact absurd sessions (by decide)

end Sys2Proof.Machine
end

section
/-!
PROOFS. What the commands of a session have in common (spec/12_cluster_and_host.md R276 to R280; spec/19_register_space.md
R381): the session, the lanes that act, the window of a cycle and the answer of the response lane.
-/
namespace Sys2Proof.Machine

/-- A command of a session that is open. -/
theorem State.serve_session {s : State} {sess : Nat} {k : Session} (h : s.session sess = some k) (f : Session → State) :
    s.serve sess f = f k := by
  rw [State.serve, h]

/-- A command for one lane is settled there where the lane acts on it. -/
theorem State.inLanes_put (s : State) (k : Session) (x : LaneId) (f : State → LaneId → State) :
    s.inLanes k (noLanes.put x true) f = if s.obeys k x then f s x else s := by
  cases x <;> simp [State.inLanes, laneList, LaneSet.put_has] <;> rfl

/-- The answer of the response lane is sent (R279, R381). -/
theorem State.answerWith_mem {s : State} {x : LaneId} {k : Session} (resp : s.respLane k = some x) (req : Word) (obj status : Byte)
    (body : List Byte) : .shp k.id req obj status body ∈ (s.answerWith x k req obj status body).out := by
  simpa [State.answerWith, resp] using State.reply_mem ..

/-- The posting window: the cycle is 1 to 256 ahead of a lane whose freeze has not closed it (R279, R280). -/
theorem Lane.applyRefusal_eq_none {l : Lane} {c : Cycle} (after : l.cyc.num.toNat < c.toNat)
    (within : c.toNat ≤ l.cyc.num.toNat + 256) (isOpen : l.cyc.frozen = true → c.toNat ≠ l.cyc.num.toNat + 1) :
    l.applyRefusal c = none := by
  have closed : ¬(c.toNat = l.cyc.num.toNat + 1 ∧ l.cyc.frozen = true) := fun h => isOpen h.2 h.1
  simp [Lane.applyRefusal, Nat.not_le.mpr after, Nat.not_lt.mpr within, closed]

/-- A cycle that the lane's freeze has closed comes too late (R280). -/
def Lane.tooLate (l : Lane) (c : Cycle) : Prop :=
  c.toNat ≤ l.cyc.num.toNat ∨ (c.toNat = l.cyc.num.toNat + 1 ∧ l.cyc.frozen = true)

theorem Lane.applyRefusal_tooLate {l : Lane} {c : Cycle} (h : l.tooLate c) : l.applyRefusal c = some 5 := by
  rcases h with before | ⟨next, frozen⟩
  · simp [Lane.applyRefusal, before]
  · simp [Lane.applyRefusal, next, frozen]

theorem Lane.applyRefusal_tooEarly {l : Lane} {c : Cycle} (h : l.cyc.num.toNat + 256 < c.toNat) : l.applyRefusal c = some 6 := by
  have after : ¬c.toNat ≤ l.cyc.num.toNat := by omega
  have next : ¬c.toNat = l.cyc.num.toNat + 1 := by omega
  simp [Lane.applyRefusal, h, after, next]

end Sys2Proof.Machine
end

section
/-!
PROOFS. O21: posts, and the ends of locks and challenges (spec/12_cluster_and_host.md R279, R280, R282, R283).
-/
namespace Sys2Proof.Machine

/-- CMD_POST is settled in the lanes that act, in a session without other rights (R277, R279). -/
theorem exec_cmdPost {s : State} {sess : Nat} {k : Session} (session : s.session sess = some k) (host : k.maint = false)
    (general : k.comm = false) (req : Word) (lanes : LaneSet) (slot value : Half) (c : Cycle) :
    exec (.cmdPost sess req lanes slot value c) s = .next (s.begin.inLanes k lanes fun t x => t.postIn k
      { sess := sess, req := req, cyc := c, op := 0, wsId := 0, kind := .pulse slot value } slot x) := by
  show Host.Outcome.next (s.begin.serve sess _) = _
  rw [State.serve_session (show s.begin.session sess = some k from session)]
  simp [host, general]

/-- A post in an ordinary slot that the window takes waits for its freeze (R279). -/
theorem State.postIn_takes {t : State} {x : LaneId} {p : Post} {slot : Half} (k : Session) (ordinary : slot.toNat ≤ 3071)
    (runs : (t.lane x).runsLogic = true) (takes : (t.lane x).applyRefusal p.cyc = none) :
    t.postIn k p slot x = t.modLane x fun l => l.addPost p := by
  simp [State.postIn, Nat.not_lt.mpr ordinary, runs, takes, State.modLane]

/-- A post in an ordinary slot that the window refuses is counted and answered with the status (R280, R286). -/
theorem State.postIn_refuses {t : State} {x : LaneId} {p : Post} {slot : Half} {c : Byte} (k : Session)
    (ordinary : slot.toNat ≤ 3071) (runs : (t.lane x).runsLogic = true) (refuses : (t.lane x).applyRefusal p.cyc = some c) :
    t.postIn k p slot x =
      (t.modLane x fun l => { l with host := l.host.notePost (Verdict.no c) }).answerWith x k p.req 3 c [] := by
  simp [State.postIn, Nat.not_lt.mpr ordinary, runs, refuses, State.modLane]

/-- Too late and too early count alike (R286). -/
theorem HostSt.notePost_late (h : HostSt) {c : Byte} (late : c = 5 ∨ c = 6) :
    h.notePost (Verdict.no c) = { h with late := h.late + 1 } := by
  rcases late with rfl | rfl <;> rfl

/-- A refusal for the cycle is counted, and the response lane answers with it (R280, R286). -/
theorem State.postIn_late {t : State} {x : LaneId} {p : Post} {slot : Half} {k : Session} {c : Byte} (ordinary : slot.toNat ≤ 3071)
    (runs : (t.lane x).runsLogic = true) (refuses : (t.lane x).applyRefusal p.cyc = some c) (late : c = 5 ∨ c = 6)
    (resp : t.respLane k = some x) : .shp k.id p.req 3 c [] ∈ (t.postIn k p slot x).out ∧
      OnlySends (t.modLane x fun u => { u with host := { u.host with late := u.host.late + 1 } }) (t.postIn k p slot x) := by
  rw [State.postIn_refuses k ordinary runs refuses]
  simp only [HostSt.notePost_late _ late]
  have same : t.SameRoutes (t.modLane x fun u => { u with host := { u.host with late := u.host.late + 1 } }) := .modLane t x rfl
  exact ⟨State.answerWith_mem ((same.respLane k).trans resp) p.req 3 c [], .answerWith ..⟩

/-- A command kept, or marked, or gone: what the end of a challenge leaves of the prepared commands (R282). -/
theorem HostSt.mem_expire {h : HostSt} {ch : BitVec 128} {p : Prepared} :
    p ∈ (h.expire ch).prepared ↔ (p ∈ h.prepared ∧ p.challenge ≠ ch) ∨
      ∃ q ∈ h.prepared, q.challenge = ch ∧ q.expired = false ∧ q.confirmed = false ∧ p = { q with expired := true } := by
  simp only [HostSt.expire, List.mem_filterMap]
  constructor
  · rintro ⟨q, hq, kept⟩
    by_cases named : q.challenge = ch
    · subst named
      by_cases waits : q.waits = true
      · simp only [beq_self_eq_true, Bool.not_true, Bool.false_eq_true, if_false, waits, if_true, Option.some.injEq] at kept
        simp only [Prepared.waits, Bool.and_eq_true, Bool.not_eq_true'] at waits
        exact .inr ⟨q, hq, rfl, waits.1, waits.2, kept.symm⟩
      · simp [waits] at kept
    · simp [named] at kept
      exact .inl ⟨kept ▸ hq, kept ▸ named⟩
  · rintro (⟨hp, other⟩ | ⟨q, hq, named, fresh, unconfirmed, rfl⟩)
    · exact ⟨p, hp, by simp [other]⟩
    · exact ⟨q, hq, by simp [named, Prepared.waits, fresh, unconfirmed]⟩

/-- Commands that waited count as expired with their challenge (R286). -/
theorem HostSt.expire_expired (h : HostSt) (ch : BitVec 128) :
    (h.expire ch).expired = h.expired + h.prepared.countP fun q => q.challenge == ch && !q.expired && !q.confirmed := by
  simp [HostSt.expire, List.countP_eq_length_filter, Prepared.waits, Bool.and_assoc]

/-- Settles O21: a post by what the window of each lane says of its cycle, the end of a lock, and that of a challenge. -/
theorem posts : Obligations.Posts := by
  unfold Obligations.Posts
  refine ⟨fun s sess req lanes slot value c k l ws ch session host general => ⟨?taken, ?unlock, ?expiry⟩,
    fun s sess req slot value c k l session host general acts ordinary runs resp => ?refused⟩
  case taken =>
    intro ordinary window
    rw [exec_cmdPost session host general, State.inLanes_modLanes (g := fun _ u => u.addPost
      { sess := sess, req := req, cyc := c, op := 0, wsId := 0, kind := .pulse slot value }), obeying_begin]
    · rfl
    · intro t x hx same
      rw [obeying_begin] at hx
      rw [State.begin_lane] at same
      obtain ⟨runs, after, within, isOpen⟩ := window x hx
      rw [← same] at runs after within isOpen
      exact State.postIn_takes k ordinary runs (Lane.applyRefusal_eq_none after within isOpen)
  case unlock => rfl
  case expiry =>
    refine ⟨_, rfl, ?_, ?_, ?_⟩
    · simp only [State.modLane, State.setLane_lane_same]
      rfl
    · intro p
      simp only [State.modLane_lane_same, State.begin_lane]
      exact HostSt.mem_expire
    · simp only [State.modLane_lane_same, State.begin_lane]
      exact HostSt.expire_expired ..
  case refused =>
    rw [exec_cmdPost session host general, State.inLanes_put, if_pos (by simpa using acts)]
    obtain rfl := State.session_id session
    have refused (b : Byte) (late : b = 5 ∨ b = 6) (refuses : (s.lane l).applyRefusal c = some b) :=
      State.postIn_late (t := s.begin) (p := { sess := k.id, req := req, cyc := c, op := 0, wsId := 0, kind := .pulse slot value })
        ordinary (by simpa using runs) (by simpa using refuses) late (((State.SameRoutes.of_begin s).respLane k).symm.trans resp)
    have tooLate (h : (s.lane l).tooLate c) := refused 5 (.inl rfl) (Lane.applyRefusal_tooLate h)
    have tooEarly (h : (s.lane l).cyc.num.toNat + 256 < c.toNat) := refused 6 (.inr rfl) (Lane.applyRefusal_tooEarly h)
    refine ⟨_, rfl, ⟨fun h => (tooLate h).1, fun h => (tooEarly h).1⟩, ?_⟩
    rintro (h | h | h)
    · exact (tooLate (.inl h)).2
    · exact (tooLate (.inr h)).2
    · exact (tooEarly h).2

end Sys2Proof.Machine
end

section
/-!
PROOFS. O24: a confirmed command of area scope (spec/12_cluster_and_host.md R281, R282, R291, R293).
-/
namespace Sys2Proof.Machine

section
variable {s : State} {m : ConfirmMsg} {k : Session} {p : Prepared}

/-- No lane verifies an arming where each that acts passes another command (R155, R282). -/
theorem State.armsIn_of_other (op : p.op ≠ 4)
    (passes : ∀ x, (obeying s k m.lanes).has x = true → ConfirmPasses (s.lane x) m p) : s.armsIn k m = noLanes := by
  refine LaneSet.eq_of_has fun x => ?_
  rw [State.armsIn, LaneSet.those_has]
  cases acts : m.lanes.has x && s.obeys k x with
  | false => cases x <;> rfl
  | true =>
    rw [← obeying_has] at acts
    simp only [(passes x acts).checkConfirm, beq_eq_false_iff_ne.mpr op, Bool.true_and]
    cases x <;> rfl

/-- A confirm that passes in every lane that acts settles there, and no arming check follows (R282). -/
theorem State.confirm_of_passes (session : s.session m.sess = some k) (general : k.comm = false)
    (named : s.confirmed m = some p) (op : p.op ≠ 4)
    (passes : ∀ x, (obeying s k m.lanes).has x = true → ConfirmPasses (s.lane x) m p) :
    s.confirm m = s.inLanes k m.lanes fun t x => t.confirmLane k m x := by
  rw [State.confirm, State.serve_session session]
  simp [Session.general, general, named, State.armsIn_of_other op passes, show noLanes.count = 0 from rfl]

/-- A row of one OP is CRIT_CONFIRM for a command of that OP (log entry 12). -/
theorem State.confirmOf_named (named : s.confirmed m = some p) : s.confirmOf p.op m = s.confirm m := by
  simp [State.confirmOf, named]

/-- A row of one ACTION is CRIT_CONFIRM for a force command of that ACTION (R291; log entry 12). -/
theorem State.confirmForce_named (named : s.confirmed m = some p) (op : p.op = 3) :
    s.confirmForce (byteAt p.params 0) m = s.confirm m := by
  simp [State.confirmForce, named, op]

/-- A lane that runs the logic is armed, and so not at stage 5 (R154). -/
theorem Lane.atStage5_of_runsLogic {l : Lane} (h : l.runsLogic = true) : l.atStage5 = false := by
  simp only [Lane.runsLogic, Bool.and_eq_true] at h
  obtain ⟨⟨-, armed⟩, -⟩ := h
  simp [Lane.atStage5, armed]

/-- A command of area scope is confirmed and posted where the lane's window takes its cycle (R279, R282). -/
theorem State.confirmLane_area {t : State} {x : LaneId} (passes : ConfirmPasses (t.lane x) m p) (area : areaScope p.op = true)
    (runs : (t.lane x).runsLogic = true) (takes : (t.lane x).applyRefusal m.applyCyc = none) :
    t.confirmLane k m x = t.modLane x fun l => (l.confirms p).addPost (p.post m) := by
  have runs' : ((t.lane x).confirms p).runsLogic = true := runs
  have takes' : ((t.lane x).confirms p).applyRefusal m.applyCyc = none := takes
  simp [State.confirmLane, passes.checkConfirm, area, State.confirmArea, Lane.atStage5_of_runsLogic runs', runs', takes',
    State.modLane]

end

/-- Settles O24: each lane that acts confirms the challenge and takes the post, and the rows of the commands are
CRIT_CONFIRM. -/
theorem areaConfirmsPost : Obligations.AreaConfirmsPost := by
  unfold Obligations.AreaConfirmsPost
  intro s m k p session general named op lanes kind post t
  have area : areaScope p.op = true := by simpa [areaScope, or_assoc] using op
  have other : p.op ≠ 4 := by rcases op with h | h | h <;> rw [h] <;> decide
  have named' : s.begin.confirmed m = some p := by simpa [State.confirmed] using named
  have passes : ∀ x, (obeying s.begin k m.lanes).has x = true → ConfirmPasses (s.begin.lane x) m p := by
    simp only [obeying_begin, State.begin_lane]
    exact fun x acts => (lanes x acts).1
  have confirm : s.begin.confirm m = t := by
    rw [State.confirm_of_passes (show s.begin.session m.sess = some k from session) general named' other passes,
      State.inLanes_modLanes (g := fun _ l => (l.confirms p).addPost (p.post m)), obeying_begin]
    · rfl
    · intro u x acts same
      rw [obeying_begin] at acts
      rw [State.begin_lane] at same
      obtain ⟨pass, runs, after, within, isOpen⟩ := lanes x acts
      rw [← same] at pass runs after within isOpen
      exact State.confirmLane_area pass area runs (Lane.applyRefusal_eq_none after within isOpen)
  have ofOp (o : Byte) (h : p.op = o) : s.begin.confirmOf o m = t := by rw [← h, State.confirmOf_named named', confirm]
  have ofForce (o : Byte) (h : p.op = 3) (action : byteAt p.params 0 = o) : s.begin.confirmForce o m = t := by
    rw [← action, State.confirmForce_named named' h, confirm]
  exact ⟨congrArg _ confirm, fun h => congrArg _ (ofOp 1 h), fun h => congrArg _ (ofOp 2 h),
    fun h a => congrArg _ (ofForce 1 h a), fun h a => congrArg _ (ofForce 2 h a), fun h a => congrArg _ (ofForce 3 h a)⟩

end Sys2Proof.Machine
end

section
/-!
PROOFS. O25: a confirmed change to START (spec/12_cluster_and_host.md R282; spec/13_modes_and_forcing.md R288, R289) in an armed
lane whose lane-alive line is low (R326).
-/
namespace Sys2Proof.Machine

/-- A confirmed mode change in a lane outside a cycle settles there (R282, R288). -/
theorem exec_modeChange_alone {s : State} {m : ConfirmMsg} {k : Session} {p : Prepared} {x : LaneId} {img : Image}
    (session : s.session m.sess = some k) (general : k.comm = false) (named : s.confirmed m = some p) (op : p.op = 7)
    (alone : m.lanes = noLanes.put x true) (acts : s.obeys k x = true) (passes : ConfirmPasses (s.lane x) m p)
    (now : m.applyCyc = 0) (image : (s.lane x).boot.img = some img) (outside : (s.lane x).inCycle = false) :
    exec (.modeChange m) s = .next ((s.begin.modLane x fun l => l.confirms p).settleModule x img
      { sess := m.sess, req := m.req, op := p.op, wsId := p.wsId, params := p.params }) := by
  have named' : s.begin.confirmed m = some p := by simpa [State.confirmed] using named
  have only : ∀ y, (obeying s.begin k m.lanes).has y = true → ConfirmPasses (s.begin.lane y) m p := by
    intro y hy
    rw [obeying_begin, obeying_has, alone, LaneSet.put_has] at hy
    obtain rfl : y = x := by
      by_contra h
      cases y <;> simp [h, noLanes, LaneSet.has] at hy
    simpa using passes
  have image' : ((s.lane x).confirms p).boot.img = some img := image
  have outside' : ((s.lane x).confirms p).inCycle = false := outside
  show Host.Outcome.next (s.begin.confirmOf 7 m) = _
  rw [← op, State.confirmOf_named named', State.confirm_of_passes (show s.begin.session m.sess = some k from session) general
    named' (by rw [op]; decide) only, alone, State.inLanes_put]
  simp [acts, State.confirmLane, passes.checkConfirm, op, areaScope, State.confirmModule, now, Lane.notHere, image', outside',
    State.modLane]

/-- The prepared change to START. -/
def startPrep : Prepared :=
  { challenge := 0, op := 7, wsId := 0, prepCyc := 0, params := [0], sessions := [1], expired := false, confirmed := false }

/-- A lane in SAFE-HALT that has prepared the change and knows the key of its workstation. It is armed, its lane-alive line is
low, and it knows no transmit lane. -/
def dimLane : Lane :=
  { Lane.init with
    boot := { Boot.init with inReset := false, img := some wideImg }
    mode := { ModeState.init with armed := true, mode := 5 }
    host := { HostSt.init with prepared := [startPrep] }
    nv := { Nv.init with ws := [{ wsId := 0, key := 0 }] } }

/-- Lane A alone is out of reset. -/
def dimState : State := { State.reset with la := dimLane, sessions := [portSession] }

/-- The confirm of the change in Lane A. -/
def startMsg : ConfirmMsg :=
  { sess := 1, req := 7, lanes := noLanes.put .a true, challenge := 0, applyCyc := 0,
    cmac := cmac 0 (bytesOf (0 : BitVec 128) ++ bytesOf (0 : Cycle) ++ [7]) }

/-- The lane passes the confirm. -/
theorem dimLane_passes : ConfirmPasses dimLane startMsg startPrep := ⟨rfl, ⟨rfl, rfl⟩, rfl, _, rfl, rfl⟩

/-- The module once the change has settled there. -/
def dimStart : State := (dimState.begin.modLane .a fun l => l.confirms startPrep).settleModule .a wideImg
  { sess := 1, req := 7, op := 7, wsId := 0, params := [0] }

theorem dimState_restarts : exec (.modeChange startMsg) dimState = .next dimStart :=
  exec_modeChange_alone (s := dimState) (k := portSession) (x := .a) rfl rfl rfl rfl rfl (by decide) dimLane_passes rfl rfl rfl

/-- Refutes O25: a lane armed in SAFE-HALT with its lane-alive line low is live by its arming alone (R326). The change to
START disarms it, no lane then transmits on J9 (R18), and the confirm that it settled is left without an answer. -/
theorem not_moduleConfirms : ¬ Obligations.ModuleConfirms := by
  unfold Obligations.ModuleConfirms
  rintro ⟨-, outside⟩
  obtain ⟨restart, -⟩ := outside dimState startMsg portSession startPrep .a { cur := 0, pend := none } wideImg rfl rfl rfl rfl rfl
    (by decide) dimLane_passes rfl rfl
  obtain ⟨t, step, -, -, -, -, -, -, -, -, answered⟩ := restart rfl rfl (by decide)
  obtain rfl : dimStart = t := Host.Outcome.next.inj (dimState_restarts.symm.trans step)
  exact absurd (answered (by decide)) (by decide)

end Sys2Proof.Machine
end

section
/-!
PROOFS. What the lanes of a session send in answer to a command (spec/12_cluster_and_host.md R279; spec/19_register_space.md R381).
-/
namespace Sys2Proof.Machine

/-- A lane that has sent ring frames and is otherwise as before (R264). -/
def Lane.Sent (l m : Lane) : Prop := m = { l with ring := { l.ring with seq := m.ring.seq } }

theorem Lane.Sent.trans {l m n : Lane} (h : Lane.Sent l m) (i : Lane.Sent m n) : Lane.Sent l n := by
  unfold Lane.Sent at h i ⊢
  rw [i, h]

theorem Lane.Sent.standing {l m : Lane} (h : Lane.Sent l m) : m.standing = l.standing := by rw [h]; rfl

section
variable {s : State} {k : Session} {lanes : LaneSet} {f : State → LaneId → State} {g : LaneId → Lane → Lane}

/-- A command that each lane which acts on it settles by a change of its own, which leaves the routes, and by what it sends. -/
structure Answers (s : State) (k : Session) (lanes : LaneSet) (f : State → LaneId → State) (g : LaneId → Lane → Lane) : Prop where
  sends : ∀ t x, (obeying s k lanes).has x = true → Lane.Sent (s.lane x) (t.lane x) → OnlySends (t.modLane x (g x)) (f t x)
  stands : ∀ x m, (g x m).standing = m.standing
  ring : ∀ x (m : Lane) q, g x { m with ring := { m.ring with seq := q } } =
    { g x m with ring := { (g x m).ring with seq := (g x { m with ring := { m.ring with seq := q } }).ring.seq } }

/-- The changes of the lanes stand beside what is sent. -/
theorem Answers.onlySends (h : Answers s k lanes f g) : OnlySends (s.modLanes (obeying s k lanes) g) (s.inLanes k lanes f) :=
  .inLanes h.ring h.sends

/-- The step of one lane keeps what the others are and what was sent. -/
theorem Answers.step (h : Answers s k lanes f g) {t : State} {y : LaneId}
    (lane : Lane.Sent (s.lane y) (t.lane y)) : let u := if lanes.has y && t.obeys k y then f t y else t
    t.SameRoutes u ∧ ∀ z, z ≠ y → Lane.Sent (t.lane z) (u.lane z) := by
  have acts : t.obeys k y = s.obeys k y := by
    simp only [State.obeys]
    rw [lane]
    rfl
  intro u
  by_cases c : (lanes.has y && s.obeys k y) = true
  · have taken : OnlySends (t.modLane y (g y)) u := by
      simp only [u, acts, c, if_true]
      exact h.sends t y (by rw [obeying_has]; exact c) lane
    refine ⟨(State.SameRoutes.modLane t y (h.stands y _)).trans (.of_sends taken), fun z hz => ?_⟩
    rw [← State.modLane_lane_other (s := t) (g y) hz]
    exact taken.lanes z
  · simp only [u, acts, if_neg c]
    exact ⟨.refl t, fun z _ => rfl⟩

/-- What a lane that acts sends, whatever the others have sent before it, has left at the end. -/
theorem Answers.mem (h : Answers s k lanes f g) {x : LaneId} {o : Out} (acts : (obeying s k lanes).has x = true)
    (sends : ∀ t, s.SameRoutes t → Lane.Sent (s.lane x) (t.lane x) → o ∈ (f t x).out) : o ∈ (s.inLanes k lanes f).out := by
  have run (ys : List LaneId) (distinct : ys.Nodup) (t : State) (same : s.SameRoutes t)
      (fresh : ∀ y ∈ ys, Lane.Sent (s.lane y) (t.lane y)) :
      let u := ys.foldl (fun t x => if lanes.has x && t.obeys k x then f t x else t) t
      (∀ p ∈ t.out, p ∈ u.out) ∧ (x ∈ ys → o ∈ u.out) := by
    induction ys generalizing t with
    | nil => exact ⟨fun _ => id, fun hx => absurd hx (List.not_mem_nil)⟩
    | cons y ys ih =>
      obtain ⟨new, distinct⟩ := List.nodup_cons.mp distinct
      obtain ⟨routes, others⟩ := h.step (fresh y List.mem_cons_self)
      obtain ⟨keeps, later⟩ := ih distinct _ (same.trans routes) fun z hz =>
        (fresh z (List.mem_cons_of_mem _ hz)).trans (others z fun e => new (e ▸ hz))
      refine ⟨fun p hp => keeps p (routes.sent p hp), fun hx => ?_⟩
      rcases List.mem_cons.mp hx with rfl | hx
      · have lane := fresh x List.mem_cons_self
        have acts' : (lanes.has x && t.obeys k x) = true := by
          rw [obeying_has] at acts
          simp only [State.obeys] at acts ⊢
          rw [lane]
          exact acts
        exact keeps o (by rw [if_pos acts']; exact sends t same lane)
      · exact later hx
  exact (run laneList (by decide) s (.refl s) fun y _ => rfl).2 (mem_laneList x)

end

end Sys2Proof.Machine
end

section
/-!
PROOFS. O22: the preparation of a critical command (spec/12_cluster_and_host.md R281, R282).
-/
namespace Sys2Proof.Machine

theorem areaScope_eq_true {op : Byte} : areaScope op = true ↔ op = 1 ∨ op = 2 ∨ op = 3 := by simp [areaScope, or_assoc]

/-- The command that a prepare asks a lane to keep (R282). -/
def Lane.asked (l : Lane) (sess : Nat) (op : Byte) (ws : Word) (c : Cycle) (params : List Byte) : Prepared :=
  { challenge := l.challengeOf op ws c params, op := op, wsId := ws, prepCyc := c, params := params, sessions := [sess],
    expired := false, confirmed := false }

/-- The lane that keeps a command in place of those of the same challenge (R282). -/
def Lane.keeps (l : Lane) (p : Prepared) : Lane :=
  { l with host := { l.host with prepared := (l.host.prepared.filter fun q => q.challenge != p.challenge) ++ [p] } }

/-- A prepare in one lane (R282). -/
def State.prepareIn (t : State) (k : Session) (req : Word) (sess : Nat) (op : Byte) (ws : Word) (c : Cycle) (params : List Byte)
    (x : LaneId) : State :=
  match (t.lane x).prepareRefusal op c params with
  | some b => t.answerWith x k req 4 b []
  | none =>
    let p := (t.lane x).asked sess op ws c params
    let r := (t.lane x).prepare sess p
    (t.setLane x r.2).answerWith x k req 4 r.1 (if r.1 = 0 then bytesOf p.challenge else [])

/-- CRIT_PREPARE is settled in the lanes that act, in a session that is not a commissioning one (R277, R282). -/
theorem exec_critPrepare {s : State} {sess : Nat} {k : Session} (session : s.session sess = some k) (general : k.comm = false)
    (req : Word) (lanes : LaneSet) (op : Byte) (ws : Word) (c : Cycle) (params : List Byte) :
    exec (.critPrepare sess req lanes op ws c params) s =
      .next (s.begin.inLanes k lanes fun t x => t.prepareIn k req sess op ws c params x) := by
  show Host.Outcome.next (s.begin.serve sess _) = _
  rw [State.serve_session (show s.begin.session sess = some k from session)]
  simp only [Session.general, general, Bool.not_false, Bool.not_true, Bool.false_eq_true, if_false]
  rfl

/-- The fields of a prepare pass in a lane: length, slot and cycle (R281, R282). -/
structure Lane.Admits (l : Lane) (op : Byte) (c : Cycle) (params : List Byte) : Prop where
  length : plenOk op params.length = true
  slot : op = 1 ∨ op = 2 → 3072 ≤ beAt params 0 2 ∧ beAt params 0 2 ≤ 4095
  start : l.mode.armed = false ∧ l.mode.mode = 0 → c = 0
  cycle : l.mode.armed = true ∨ l.mode.mode ≠ 0 →
    l.cyc.num.toNat ≤ c.toNat + 256 ∧ c.toNat ≤ l.cyc.num.toNat + 256

theorem Lane.Admits.prepareRefusal {l : Lane} {op : Byte} {c : Cycle} {params : List Byte} (h : l.Admits op c params) :
    l.prepareRefusal op c params = none := by
  have slot : ((op = 1 || op = 2) && !(3072 ≤ beAt params 0 2 && beAt params 0 2 ≤ 4095)) = false := by simpa using h.slot
  simp only [Lane.prepareRefusal, h.length, slot, Bool.not_true, Bool.false_eq_true, if_false]
  by_cases start : l.mode.armed = false ∧ l.mode.mode = 0
  · simp [start, h.start start]
  · have runs : l.mode.armed = true ∨ l.mode.mode ≠ 0 := by
      rw [Decidable.not_and_iff_or_not] at start
      simpa using start
    obtain ⟨after, within⟩ := h.cycle runs
    have run : ¬((!l.mode.armed && decide (l.mode.mode = 0)) = true) := by simpa using start
    rw [if_neg run, if_neg (by omega), if_neg (by omega)]

/-- The lane has room for the command: its challenge is not held, the session has none that waits, and fewer than 8 wait
(R282). -/
structure HostSt.HasRoom (h : HostSt) (sess : Nat) (ch : BitVec 128) : Prop where
  unheld : ∀ q ∈ h.prepared, q.challenge = ch → q.expired = true
  first : ∀ q ∈ h.prepared, q.waits = true → sess ∉ q.sessions
  few : (h.prepared.countP fun q => q.waits) < 8

/-- A command for which there is room is kept, with status 0 (R282). -/
theorem Lane.prepare_of_room {l : Lane} {sess : Nat} {p : Prepared} (room : l.host.HasRoom sess p.challenge) :
    l.prepare sess p = (0, l.keeps p) := by
  have unheld : (l.host.prepared.find? fun q => q.challenge == p.challenge && !q.expired) = none := by
    refine List.find?_eq_none.mpr fun q hq => ?_
    by_cases same : q.challenge = p.challenge
    · simp [room.unheld q hq same]
    · simp [same]
  have pends : l.host.pends sess = false := by
    refine List.any_eq_false.mpr fun q hq => ?_
    by_cases waits : q.waits = true
    · simp [room.first q hq waits]
    · simp [waits]
  have few : ¬8 ≤ (l.host.prepared.filter (·.waits)).length := by
    rw [← List.countP_eq_length_filter]
    exact Nat.not_le.mpr room.few
  simp [Lane.prepare, unheld, pends, few, Lane.keeps]

/-- A prepare that a lane admits and has room for is kept there and answered with its challenge (R282). -/
theorem State.prepareIn_keeps {t : State} {x : LaneId} {op : Byte} {c : Cycle} {params : List Byte} {sess : Nat} {ws : Word}
    (admits : (t.lane x).Admits op c params) (room : (t.lane x).host.HasRoom sess ((t.lane x).challengeOf op ws c params))
    (k : Session) (req : Word) : t.prepareIn k req sess op ws c params x =
      (t.modLane x fun l => l.keeps (l.asked sess op ws c params)).answerWith x k req 4 0
        (bytesOf ((t.lane x).challengeOf op ws c params)) := by
  simp only [State.prepareIn, admits.prepareRefusal]
  rw [Lane.prepare_of_room (p := (t.lane x).asked sess op ws c params) room]
  rfl

/-- Settles O22: each lane that acts keeps the command, and the response lane answers with its challenge. -/
theorem prepareGivesChallenge : Obligations.PrepareGivesChallenge := by
  unfold Obligations.PrepareGivesChallenge
  intro s sess req lanes op ws c params k session general length slot scope challenge ready
  have challenge_eq (l : Lane) : challenge l = l.challengeOf op ws c params := by
    simp only [challenge, scope, Lane.challengeOf, areaScope_eq_true]
  simp only [challenge_eq] at ready ⊢
  rw [exec_critPrepare session general]
  have kept (t : State) (x : LaneId) (acts : (obeying s k lanes).has x = true) (lane : Lane.Sent (s.lane x) (t.lane x)) :
      t.prepareIn k req sess op ws c params x =
        (t.modLane x fun l => l.keeps (l.asked sess op ws c params)).answerWith x k req 4 0
          (bytesOf ((s.lane x).challengeOf op ws c params)) := by
    obtain ⟨start, cycle, unheld, first, few⟩ := ready x acts
    have same : (t.lane x).challengeOf op ws c params = (s.lane x).challengeOf op ws c params := by
      rw [lane]
      rfl
    rw [State.prepareIn_keeps (by rw [lane]; exact ⟨length, slot, start, cycle⟩) (by rw [lane]; exact ⟨unheld, first, few⟩), same]
  have answers : Answers s.begin k lanes (fun t x => t.prepareIn k req sess op ws c params x)
      fun _ l => l.keeps (l.asked sess op ws c params) := by
    refine ⟨fun t x acts lane => ?_, fun _ _ => rfl, fun _ _ _ => rfl⟩
    rw [kept t x (by simpa using acts) (by simpa using lane)]
    exact .answerWith ..
  have sends := answers.onlySends
  rw [obeying_begin] at sends
  refine ⟨_, rfl, sends, fun y resp acts => answers.mem (x := y) (by simpa using acts) fun t same lane => ?_⟩
  rw [kept t y acts (by simpa using lane)]
  obtain rfl := State.session_id session
  have changed : t.SameRoutes (t.modLane y fun l => l.keeps (l.asked k.id op ws c params)) := .modLane t y rfl
  have resp' : s.begin.respLane k = some y := ((State.SameRoutes.of_begin s).respLane k).symm.trans resp
  exact State.answerWith_mem (((same.trans changed).respLane k).trans resp') req 4 0 _

end Sys2Proof.Machine
end

section
/-!
PROOFS. O23: KEEPALIVE, EVT_SUB, REC_READ and IMG_READ (spec/12_cluster_and_host.md R275, R277; spec/18_event_recorder.md R373
to R375).
-/
namespace Sys2Proof.Machine

/-- A response leaves where the session has a response lane (R274, R381). -/
theorem State.respond_eq {s : State} {k : Session} {y : LaneId} (resp : s.respLane k = some y) (req : Word) (obj status : Byte)
    (body : List Byte) : s.respond k req obj status body = s.reply k.id req obj status body := by
  simp [State.respond, resp]

/-- The one lane of a selection (R373). -/
theorem selOne_put {sel : LaneSel} {x : LaneId} (z : sel.z = 0) (lane : sel.voted = false) (one : sel.lanes = noLanes.put x true) :
    selOne sel = some x := by
  cases x <;> simp only [selOne, z, lane, one] <;> rfl

/-- An entry of a REC_READ: the status by the number that the slot holds, whether the slot was changing, and the check value of
the record, and its bytes (R374, R375). -/
theorem Lane.recEntry_eq (l : Lane) (want : Word) (i : Nat) (changing : List Nat) :
    l.recEntry want (changing.contains i) =
      (let r := recBytes l.nv.recs (256 * (want.toNat % 65536)) 256
       let st : Byte := match slotSeq l.nv.recs (want.toNat % 65536) with
         | none => 1
         | some q => if q % 2 ^ 32 ≠ want.toNat then 1 else if i ∈ changing then 3
           else if crc32c (slice r 0 8 ++ slice r 12 240) = BitVec.ofNat 32 (beAt r 252 4) then 0 else 2
       st :: r) := by
  simp only [Lane.recEntry]
  cases slotSeq l.nv.recs (want.toNat % 65536) with
  | none => rfl
  | some q => simp

/-- The bytes of a section that a lane's image has (R277). -/
theorem Lane.imgBytes_of_within {l : Lane} {img : Image} {sect : Byte} {b : List Byte} {off : Word} {len : Nat}
    (image : l.boot.img = some img) (section_ : img.sections[sect.toNat]? = some b) (size : len ≤ 4096)
    (within : off.toNat + len ≤ b.length) : l.imgBytes sect off len = (0, (b.drop off.toNat).take len) := by
  simp [Lane.imgBytes, image, section_, Nat.not_lt.mpr size, Nat.not_lt.mpr within, slice]

/-- Settles O23: each object is one response of the session's response lane. -/
theorem objectReads : Obligations.ObjectReads := by
  unfold Obligations.ObjectReads
  intro s sess req k y x mask first off sel count len changing sect img b session general resp
  obtain rfl := State.session_id session
  have session' : s.begin.session k.id = some k := session
  have resp' : s.begin.respLane k = some y := ((State.SameRoutes.of_begin s).respLane k).symm.trans resp
  have permits : k.general = true := by simp [Session.general, general]
  refine ⟨?keepalive, ?evtSub, ?recRead, ?imgRead⟩
  case keepalive =>
    show Host.Outcome.next (s.begin.serve k.id _) = _
    rw [State.serve_session session', if_pos permits, State.respond_eq resp']
  case evtSub =>
    have subscribed : (s.begin.setSession { k with mask := mask &&& 0x3FF }).respLane { k with mask := mask &&& 0x3FF } = some y :=
      resp'
    show Host.Outcome.next (s.begin.serve k.id _) = _
    simp only [State.serve_session session', permits, Bool.not_true, Bool.false_eq_true, if_false, State.respond_eq subscribed]
  case recRead =>
    intro z lane one some16 few holds acts
    have heeds : s.begin.heeds k x = true := by simp [State.heeds, holds, acts]
    have number : ¬(count = 0 || 16 < count) = true := by simp; omega
    show Host.Outcome.next (s.begin.serve k.id _) = _
    simp only [State.serve_session session', permits, selOne_put z lane one, number, heeds, Lane.recEntry_eq, State.begin_lane,
      State.respond_eq resp', Bool.not_true, Bool.false_eq_true, if_false] <;> rfl
  case imgRead =>
    intro image section_ size within
    have bytes := Lane.imgBytes_of_within image section_ size within
    show Host.Outcome.next (s.begin.serve k.id _) = _
    simp only [State.serve_session session', permits, resp', State.begin_lane, bytes, State.respond_eq resp', Bool.not_true,
      Bool.false_eq_true, if_false]

end Sys2Proof.Machine
end

section
/-!
PROOFS. O29: registration and revocation of workstation keys (spec/14_keys_and_trust.md R314; spec/12_cluster_and_host.md R286).
-/
namespace Sys2Proof.Machine

/-- A sub-object of the provisioning object is settled in the lanes that act, in a session with maintainer rights (R277, R312). -/
theorem State.prov_maint {s : State} {sess : Nat} {k : Session} (session : s.session sess = some k) (maint : k.maint = true)
    (general : k.comm = false) (req : Word) (sub : Byte) (f : Session → Lane → LaneId → ProvRes) :
    s.prov sess req sub f = s.inLanes k allLanes fun t x => t.provLane k req sub (f k) x := by
  rw [State.prov, State.serve_session session]
  simp [maint, general]

/-- What a lane takes is answered with status 0, and settles at once where no boundary runs (R312, R314). -/
theorem State.provLane_ok {t : State} {x : LaneId} {f : Lane → LaneId → ProvRes} {g : Lane → Lane}
    (ok : f (t.lane x) x = .ok (g (t.lane x), [])) (k : Session) (req : Word) (sub : Byte) :
    t.provLane k req sub f x = ((t.modLane x g).answerWith x k req 0x0A 0 []).provSettle x := by
  rw [State.provLane, ok]
  rfl

/-! ## The record in a lane -/

/-- The lane that has seen the number of a record (R314). -/
def Lane.seesWs (l : Lane) (r : WsReg) : Lane :=
  { l with nv := { l.nv with wsSeq := (l.nv.wsSeq.filter fun p => p.1 != r.wsId) ++ [(r.wsId, r.seq)] } }

/-- The lane that has taken a record and keeps it for the boundary (R314). -/
def Lane.takesWs (l : Lane) (r : WsReg) : Lane :=
  { l.seesWs r with sec := { l.sec with pendWs := l.sec.pendWs ++ [r] } }

/-- The lane in which a workstation has a key of its own (R314). -/
def Lane.registersWs (l : Lane) (ws : Word) (key : BitVec 256) : Lane :=
  { l with nv := { l.nv with ws := (l.nv.ws.filter fun w => w.wsId != ws) ++ [{ wsId := ws, key := key }] } }

/-- The lane in which a workstation has no key, and no prepared command that is not confirmed (R286, R314). -/
def Lane.revokesWs (l : Lane) (ws : Word) : Lane :=
  { l with
    nv := { l.nv with ws := l.nv.ws.filter fun w => w.wsId != ws }
    host := { l.host with
      prepared := l.host.prepared.filter fun p => p.wsId != ws || p.confirmed
      expired := l.host.expired + l.host.prepared.countP fun p => p.wsId == ws && !p.expired && !p.confirmed } }

/-- The lane for whose boundary nothing of the security rules is left (R312, R314, R318). -/
def Lane.waitsForNothing (l : Lane) : Lane :=
  { l with sec := { l.sec with pendWs := [], pendUse := [], closeAll := false, recheck := false } }

/-- A record of a lane: its form, its signature and its number pass, and a registration has room and a key (R314, R319). -/
structure Lane.AcceptsWs (l : Lane) (r : WsReg) : Prop where
  action : r.action = 1 ∨ r.action = 2
  eph : r.eph.length = 97
  wrap : r.wrap.length = 40
  signed : l.signedBy (wsRegBody r) r.sig
  above : ∀ q, (l.nv.wsSeq.find? fun p => p.1 == r.wsId) = some q → q.2.toNat < r.seq.toNat
  keyed : r.action = 1 → l.otherWs r.wsId < 64 ∧ (l.nv.wsKeyOf r).isSome = true

/-- Such a record is taken (R314). -/
theorem Lane.AcceptsWs.wsRegIn {l : Lane} {r : WsReg} (h : l.AcceptsWs r) : l.wsRegIn r = .ok (l.takesWs r, []) := by
  have form : ((r.action != 1 && r.action != 2) || r.eph.length != 97 || r.wrap.length != 40) = false := by
    rcases h.action with a | a <;> simp [a, h.eph, h.wrap]
  have signed : l.signed (wsRegBody r) r.sig = true := by
    obtain ⟨claimed, verified⟩ := h.signed
    simp [Lane.signed, Nv.claimSigned, claimed, verified]
  have above : aboveHeld ((l.nv.wsSeq.find? fun p => p.1 == r.wsId).map (·.2)) r.seq = true := by
    cases held : l.nv.wsSeq.find? fun p => p.1 == r.wsId with
    | none => rfl
    | some q => simpa [aboveHeld] using h.above q held
  have room : ¬(r.action = 1 && 64 ≤ l.otherWs r.wsId) = true := by
    simp only [Bool.and_eq_true, decide_eq_true_eq, not_and, not_le]
    exact fun a => (h.keyed a).1
  have key : ¬(r.action = 1 && (l.nv.wsKeyOf r).isNone) = true := by
    simp only [Bool.and_eq_true, decide_eq_true_eq, not_and]
    intro a
    simp [Option.isNone_iff_eq_none, Option.ne_none_iff_isSome.mpr (h.keyed a).2]
  simp only [Lane.wsRegIn, form, signed, above, room, key, Bool.not_true, Bool.false_eq_true, if_false]
  rfl

/-- A registration replaces the key by the unwrapped one (R314). -/
theorem Lane.applyWs_registers {l : Lane} {r : WsReg} {key : BitVec 256} (action : r.action = 1)
    (unwraps : l.nv.wsKeyOf r = some key) : l.applyWs r = l.registersWs r.wsId key := by
  simp only [Lane.applyWs, action, unwraps, if_true]
  rfl

/-- A revocation removes the key and the commands that the workstation prepared (R286, R314). -/
theorem Lane.applyWs_revokes {l : Lane} {r : WsReg} (action : r.action = 2) : l.applyWs r = l.revokesWs r.wsId := by
  have other : ¬r.action = 1 := by rw [action]; decide
  simp only [Lane.applyWs, other, if_false]
  rfl

/-- A record that alone waits takes effect with the security rules (R314). -/
theorem Lane.settleTrust_ws {l : Lane} {r : WsReg} (alone : l.sec.pendWs = [r]) (none : l.sec.pendUse = []) :
    l.settleTrust = (l.applyWs r).waitsForNothing := by
  simp only [Lane.settleTrust, alone, none, List.foldl_cons, List.foldl_nil]
  rfl

/-- Where nothing waits, nothing is left to wait for. -/
theorem Lane.waitsForNothing_of_nothingWaits {l : Lane} (h : l.nothingWaits) : l.waitsForNothing = l := by
  obtain ⟨closeAll, recheck, pendWs, pendUse⟩ := h
  have sec : ({ l.sec with pendWs := [], pendUse := [], closeAll := false, recheck := false } : Sec) = l.sec := by
    generalize l.sec = c at *
    cases c
    simp_all
  rw [Lane.waitsForNothing, sec]

/-- Without a change that closes sessions, the rules settle in the lane alone (R312, R313). -/
theorem State.settleSecurity_quiet {t : State} {x : LaneId} (close : (t.lane x).sec.closeAll = false)
    (recheck : (t.lane x).sec.recheck = false) : t.settleSecurity x = t.modLane x Lane.settleTrust := by
  simp [State.settleSecurity, State.closeDue, close, recheck]

section
variable {t : State} {x : LaneId} {r : WsReg} {k : Session}

/-- A record taken where boundaries run waits for one and is answered (R314). -/
theorem State.provLane_waits (accepts : (t.lane x).AcceptsWs r) (runs : (t.lane x).hasBoundaries = true) (req : Word) :
    t.provLane k req 6 (fun l _ => l.wsRegIn r) x = (t.modLane x (·.takesWs r)).answerWith x k req 0x0A 0 [] := by
  rw [State.provLane_ok (g := (·.takesWs r)) accepts.wsRegIn]
  have sent := (OnlySends.answerWith (t.modLane x (·.takesWs r)) x k req 0x0A 0 []).lanes x
  rw [State.modLane_lane_same] at sent
  have runs' : (((t.modLane x (·.takesWs r)).answerWith x k req 0x0A 0 []).lane x).hasBoundaries = true := by
    rw [sent]
    exact runs
  rw [State.provSettle, if_pos runs']

/-- A record taken where no boundary runs takes effect as it is answered (R314; log entry 31). -/
theorem State.provLane_settles (accepts : (t.lane x).AcceptsWs r) (stands : (t.lane x).hasBoundaries = false)
    (quiet : (t.lane x).nothingWaits) {g : Lane → Lane}
    (ring : ∀ (m : Lane) q, g { m with ring := { m.ring with seq := q } } =
      { g m with ring := { (g m).ring with seq := (g { m with ring := { m.ring with seq := q } }).ring.seq } })
    (applies : ∀ m, Lane.Sent ((t.lane x).takesWs r) m → m.applyWs r = g m)
    (settled : (g ((t.lane x).takesWs r)).waitsForNothing = g ((t.lane x).seesWs r)) (req : Word) :
    OnlySends (t.modLane x fun l => g (l.seesWs r)) (t.provLane k req 6 (fun l _ => l.wsRegIn r) x) := by
  obtain ⟨closeAll, recheck, pendWs, pendUse⟩ := quiet
  rw [State.provLane_ok (g := (·.takesWs r)) accepts.wsRegIn]
  have answer : OnlySends (t.modLane x (·.takesWs r)) ((t.modLane x (·.takesWs r)).answerWith x k req 0x0A 0 []) := .answerWith ..
  have sent : Lane.Sent ((t.lane x).takesWs r) (((t.modLane x (·.takesWs r)).answerWith x k req 0x0A 0 []).lane x) := by
    have lane := answer.lanes x
    rwa [State.modLane_lane_same] at lane
  generalize (t.modLane x (·.takesWs r)).answerWith x k req 0x0A 0 [] = u at *
  have stands' : ¬(u.lane x).hasBoundaries = true := by
    rw [sent]
    exact Bool.eq_false_iff.mp stands
  have trust : (u.lane x).settleTrust = (g (u.lane x)).waitsForNothing := by
    rw [Lane.settleTrust_ws (r := r), applies _ sent]
    · rw [sent]
      simp [Lane.takesWs, pendWs]
    · rw [sent]
      exact pendUse
  have applied := answer.modLane x (f := fun l => (g l).waitsForNothing) fun m q => congrArg Lane.waitsForNothing (ring m q)
  rw [State.provSettle, if_neg stands', State.settleSecurity_quiet (by rw [sent]; exact closeAll) (by rw [sent]; exact recheck)]
  simp only [State.modLane, State.setLane_lane_same, State.setLane_setLane, settled] at applied ⊢
  rwa [trust]

end

/-- Settles O29: each lane that acts takes the record, and where no boundary runs applies it at once. -/
theorem workstationKeys : Obligations.WorkstationKeys := by
  unfold Obligations.WorkstationKeys
  intro s sess req k r key session maint general eph wrap v seen ready
  have exec_eq : exec (.wsReg sess req r) s =
      .next (s.begin.inLanes k allLanes fun t x => t.provLane k req 6 (fun l _ => l.wsRegIn r) x) :=
    congrArg _ (State.prov_maint (show s.begin.session sess = some k from session) maint general ..)
  have accepts (action : r.action = 1 ∨ r.action = 2) {t : State} {x : LaneId} (acts : v.has x = true)
      (lane : Lane.Sent (s.lane x) (t.lane x)) : (t.lane x).AcceptsWs r := by
    obtain ⟨signed, above, keyed⟩ := ready x acts
    rw [lane]
    exact ⟨action, eph, wrap, signed, above, fun a => ⟨(keyed a).1, by simp [(keyed a).2]⟩⟩
  have answers {g : LaneId → Lane → Lane} (stands : ∀ x m, (g x m).standing = m.standing)
      (ring : ∀ x (m : Lane) q, g x { m with ring := { m.ring with seq := q } } =
        { g x m with ring := { (g x m).ring with seq := (g x { m with ring := { m.ring with seq := q } }).ring.seq } })
      (sends : ∀ t x, v.has x = true → Lane.Sent (s.lane x) (t.lane x) →
        OnlySends (t.modLane x (g x)) (t.provLane k req 6 (fun l _ => l.wsRegIn r) x)) :
      Answers s.begin k allLanes (fun t x => t.provLane k req 6 (fun l _ => l.wsRegIn r) x) g :=
    ⟨fun t x acts lane => sends t x (by simpa [v] using acts) (by simpa using lane), stands, ring⟩
  rw [exec_eq]
  refine ⟨fun action runs => ?waits, fun action quiet => ?registers, fun action quiet => ?revokes⟩
  case waits =>
    have waits {t : State} {x : LaneId} (acts : v.has x = true) (lane : Lane.Sent (s.lane x) (t.lane x)) :=
      State.provLane_waits (k := k) (accepts action acts lane) (by rw [lane]; exact runs x acts) req
    have taken := answers (g := fun _ l => l.takesWs r) (fun _ _ => rfl) (fun _ _ _ => rfl) fun t x acts lane => by
      rw [waits acts lane]
      exact .answerWith ..
    have sends := taken.onlySends
    rw [obeying_begin] at sends
    refine ⟨_, rfl, sends, fun y resp acts => taken.mem (x := y) (by simpa using acts) fun t same lane => ?_⟩
    rw [waits acts (by simpa using lane)]
    obtain rfl := State.session_id session
    have changed : t.SameRoutes (t.modLane y fun l => l.takesWs r) := .modLane t y rfl
    have resp' : s.begin.respLane k = some y := ((State.SameRoutes.of_begin s).respLane k).symm.trans resp
    exact State.answerWith_mem (((same.trans changed).respLane k).trans resp') req 0x0A 0 []
  case registers =>
    have taken := answers (g := fun x l => (l.seesWs r).registersWs r.wsId (key x)) (fun _ _ => rfl) (fun _ _ _ => rfl)
      fun t x acts lane => by
        obtain ⟨stands, nothing⟩ : (t.lane x).hasBoundaries = false ∧ (t.lane x).nothingWaits := by
          rw [lane]
          exact quiet x acts
        refine State.provLane_settles (g := (·.registersWs r.wsId (key x))) (accepts (.inl action) acts lane) stands nothing
          (fun _ _ => rfl) (fun m sent => Lane.applyWs_registers action ?_)
          (Lane.waitsForNothing_of_nothingWaits (l := ((t.lane x).seesWs r).registersWs r.wsId (key x)) nothing) req
        obtain ⟨-, -, keyed⟩ := ready x acts
        rw [sent, lane]
        exact (keyed action).2
    have sends := taken.onlySends
    rw [obeying_begin] at sends
    exact ⟨_, rfl, sends⟩
  case revokes =>
    have taken := answers (g := fun _ l => (l.seesWs r).revokesWs r.wsId) (fun _ _ => rfl) (fun _ _ _ => rfl)
      fun t x acts lane => by
        obtain ⟨stands, nothing⟩ : (t.lane x).hasBoundaries = false ∧ (t.lane x).nothingWaits := by
          rw [lane]
          exact quiet x acts
        exact State.provLane_settles (g := (·.revokesWs r.wsId)) (accepts (.inr action) acts lane) stands nothing
          (fun _ _ => rfl) (fun m _ => Lane.applyWs_revokes action)
          (Lane.waitsForNothing_of_nothingWaits (l := ((t.lane x).seesWs r).revokesWs r.wsId) nothing) req
    have sends := taken.onlySends
    rw [obeying_begin] at sends
    exact ⟨_, rfl, sends⟩

end Sys2Proof.Machine
end

section
/-!
PROOFS. O54: sessions that end, key updates and ARP (spec/12_cluster_and_host.md R275, R286; spec/14_keys_and_trust.md R309;
spec/08_field_telegrams.md R164).
-/
namespace Sys2Proof.Machine

/-! ## Sessions that end -/

/-- The lane in which no prepared command names a session: one that no other session posted is gone (R275, R286). -/
def Lane.dropsSession (l : Lane) (id : Nat) : Lane := { l with host := l.host.dropSession id }

/-- The module without a session: its reads and packages are gone, and its prepared commands in every lane (R275, R389). -/
def State.withoutSession (s : State) (id : Nat) : State :=
  { s.mapLanes fun _ m => m.dropsSession id with
    sessions := s.sessions.filter fun k => k.id != id
    reads := s.reads.filter fun r => r.sess != id
    pkgs := s.pkgs.filter fun w => w.sess != id }

/-- Beside that a session that closes is named, and the tunnel that carried it closes (R275, R278). -/
theorem State.closeSession_sends (s : State) (id : Nat) :
    OnlySends ((s.withoutSession id).emit (.closed id)) (s.closeSession id) := by
  unfold State.closeSession
  dsimp only
  split
  · exact .refl _
  · exact .tunnelClose ..

/-- A prepared command that the session alone posted (R275). -/
theorem Prepared.onlyOf_eq_decide (p : Prepared) (id : Nat) :
    p.onlyOf id = decide (id ∈ p.sessions ∧ ∀ j ∈ p.sessions, j = id) := by
  rw [Bool.eq_iff_iff]
  simp [Prepared.onlyOf, List.filter_eq_nil_iff]

/-- The commands that the session alone posted, and that were neither expired nor confirmed, count as discarded (R286). -/
theorem HostSt.dropSession_expired (h : HostSt) (id : Nat) : (h.dropSession id).expired = h.expired + h.prepared.countP fun p =>
    decide (id ∈ p.sessions ∧ ∀ j ∈ p.sessions, j = id) && !p.expired && !p.confirmed := by
  simp only [HostSt.dropSession, HostSt.discarded, Prepared.onlyOf_eq_decide]

/-- No command names the session any more (R275). -/
theorem HostSt.not_mem_of_mem_dropSession {h : HostSt} {id : Nat} {p : Prepared} (hp : p ∈ (h.dropSession id).prepared) :
    id ∉ p.sessions := by
  obtain ⟨q, -, kept⟩ := List.mem_filterMap.mp hp
  split at kept
  · obtain rfl := Option.some.inj kept
    simp
  · cases kept

/-! ## ARP -/

/-- A station's record that has an address is not the record of a station never heard of, so it is kept as written (R164). -/
theorem Lane.modStn_stn {l : Lane} {p : Nat} {f : StnRec → StnRec} (heard : f (l.stn p) ≠ StnRec.init) :
    (l.modStn p f).stn p = f (l.stn p) := by
  rw [Lane.stn, Lane.modStn]
  simp only [Mem.set, if_neg heard]
  exact Mem.get_put_same ..

section
variable {s : State} {net : NetId} {x : LaneId} {img : Image} (port : s.txLane (if net = .a then .j4 else .j5) = some x)
  (image : (s.lane x).boot.img = some img)
include port image

/-- Where the transmit lane reads the network record, an ACTIVE module answers ARP for its own address (R164). -/
theorem exec_arpRx (sound : img.tableSound netTable 0 = true) (target : Word) :
    exec (.arpRx net target) s = .next
      (if (s.lane x).active = true ∧ target = (if net = .a then img.netA.modIp else img.netB.modIp) then
        s.begin.emit (.arpReply net target) else s.begin) := by
  have port' : s.begin.txLane (if net = .a then .j4 else .j5) = some x := port
  cases net
  all_goals
    simp only [if_true, reduceCtorEq, if_false] at port' ⊢
    simp only [exec, execArpRx, port', State.begin_lane, image, Lane.useTables_of_sound _ sound, Image.netOf, Bool.not_true,
      Bool.false_eq_true, if_false, Bool.and_eq_true, beq_iff_eq]
    split <;> rfl

/-- A module that is not ACTIVE asks no station (R164). -/
theorem exec_arpRefresh_idle (idle : (s.lane x).active = false) (pos : Nat) (mac : BitVec 48) :
    exec (.arpRefresh net pos mac) s = .next s.begin := by
  have port' : s.begin.txLane (if net = .a then .j4 else .j5) = some x := port
  cases net
  all_goals
    simp only [if_true, reduceCtorEq, if_false] at port'
    simp only [exec, execArpRefresh, port', State.begin_lane, image, idle, Bool.not_false, if_true]
    split <;> rfl

/-- An ACTIVE module asks a station whose record it reads, and each ACTIVE lane keeps the address (R164). -/
theorem exec_arpRefresh_asks {pos : Nat} {r : StationRec} (active : (s.lane x).active = true) (record : img.stations[pos]? = some r)
    (sound : stationSound img pos = true) (mac : BitVec 48) :
    exec (.arpRefresh net pos mac) s = .next ((s.begin.mapLanes fun _ m =>
      if m.active then m.modStn pos fun q => if net = .a then { q with macA := some mac } else { q with macB := some mac }
      else m).emit (.arpRequest net (r.ipOn net))) := by
  have port' : s.begin.txLane (if net = .a then .j4 else .j5) = some x := port
  have found : ((s.lane x).useStation img pos).2 = true := by rw [Lane.useStation, Lane.useTables_of_sound _ sound]
  cases net
  all_goals
    simp only [if_true, reduceCtorEq, if_false] at port' ⊢
    simp [exec, execArpRefresh, port', image, active, record, found]

end

/-- Settles O54: the closing of a session, its key update, and the two ARP commands by the role of the module. -/
theorem sessionsEnd : Obligations.SessionsEnd := by
  unfold Obligations.SessionsEnd
  intro s id k lanes net target pos mac x img r
  refine ⟨fun session => ⟨?close, ?keyupdate⟩, fun port image => ⟨?answers, ?ignores, ?idle, ?asks⟩⟩
  case close =>
    obtain rfl := State.session_id session
    have session' : s.begin.session k.id = some k := session
    intro i hi
    have step : exec i s = .next (s.begin.closeSession k.id) := by
      rcases hi with rfl | rfl <;> exact congrArg _ (State.serve_session session' _)
    have sends := s.begin.closeSession_sends k.id
    refine ⟨_, step, sends.sessions_eq, sends.mem (by simp), by rw [sends.rest]; rfl, by rw [sends.rest]; rfl, fun y => ?_⟩
    have lane : ((s.begin.withoutSession k.id).emit (.closed k.id)).lane y = (s.lane y).dropsSession k.id := by cases y <;> rfl
    rw [sends.lanes y, lane]
    exact ⟨rfl, rfl, rfl, rfl, HostSt.dropSession_expired .., fun p => HostSt.not_mem_of_mem_dropSession⟩
  case keyupdate =>
    have session' : s.begin.session id = some k := session
    show Host.Outcome.next (s.begin.serve id _) = _
    have step (n : Nat) (b : Bool) : n + b.toNat = if b then n + 1 else n := by cases b <;> rfl
    simp only [State.serve_session session', step]
  case answers =>
    intro active sound own
    rw [exec_arpRx port image sound, if_pos ⟨active, own⟩]
  case ignores =>
    intro sound other
    rw [exec_arpRx port image sound, if_neg fun h => ?_]
    rcases other with idle | other
    · exact Bool.eq_false_iff.mp idle h.1
    · exact other h.2
  case idle => exact fun idle => exec_arpRefresh_idle port image idle pos mac
  case asks =>
    intro active record sound
    refine ⟨_, exec_arpRefresh_asks port image active record sound mac, rfl, fun y => ?_⟩
    rw [State.emit_lane, State.mapLanes_lane, State.begin_lane]
    refine ⟨fun idle => if_neg (Bool.eq_false_iff.mp idle), fun active => ?_⟩
    rw [if_pos active, Lane.modStn_stn]
    · cases net <;> exact ⟨rfl, rfl, rfl, rfl⟩
    · cases net
      · exact fun h => Option.some_ne_none mac (congrArg StnRec.macA h)
      · exact fun h => Option.some_ne_none mac (congrArg StnRec.macB h)

end Sys2Proof.Machine
end

section
/-!
PROOFS. Ring frames as several lanes take them (spec/12_cluster_and_host.md R262 to R266).
-/
namespace Sys2Proof.Machine

/-! ## Routes -/

namespace State.SameRoutes

variable {s t : State}

/-- The transmit lane of a port is the same (R18). -/
theorem txLane (h : SameRoutes s t) (p : Port) : t.txLane p = s.txLane p := by
  have standing {α : Type} (f : Lane.Standing → α) (x : LaneId) : f (t.lane x).standing = f (s.lane x).standing :=
    congrArg f (h.lanes x)
  have tx (x : LaneId) : (t.lane x).txOf p = (s.lane x).txOf p :=
    standing (fun l => (l.tx.find? fun (q : Port × LaneId) => q.1 == p).map Prod.snd) x
  have live (x : LaneId) : (t.lane x).live = (s.lane x).live := standing (fun l => (l.alive || l.armed) && !l.inReset) x
  have bounded : t.hasBoundaries = s.hasBoundaries :=
    congrArg laneList.any (funext (standing fun l => l.armed && l.mode != 5))
  simp only [State.txLane, tx, live, h.img, bounded]

/-- So is the slot by which the module goes on the ring (R262). -/
theorem ringOwn (h : SameRoutes s t) : t.ringOwn = s.ringOwn := by
  have ports : [Port.j6, .j7].filterMap t.txLane = [Port.j6, .j7].filterMap s.txLane :=
    congrArg ([Port.j6, .j7].filterMap ·) (funext h.txLane)
  simp only [State.ringOwn, ports, h.img]

end State.SameRoutes

/-! ## Lanes that change one after the other -/

/-- Each of the lanes named changes once, the others not at all. -/
theorem State.foldl_modLane_lane {ys : List LaneId} (distinct : ys.Nodup) (g : Lane → Lane) (s : State) (x : LaneId) :
    (ys.foldl (fun t y => t.modLane y g) s).lane x = if x ∈ ys then g (s.lane x) else s.lane x := by
  induction ys generalizing s with
  | nil => rfl
  | cons y ys ih =>
    obtain ⟨new, distinct⟩ := List.nodup_cons.mp distinct
    rw [List.foldl_cons, ih distinct]
    by_cases e : x = y
    · subst e
      simp [new]
    · simp [e, State.modLane_lane_other]

/-- Nothing but lanes changes. -/
theorem State.foldl_modLane_rest (ys : List LaneId) (g : Lane → Lane) (s : State) :
    ∃ a b c, ys.foldl (fun t y => t.modLane y g) s = { s with la := a, lb := b, lc := c } := by
  induction ys generalizing s with
  | nil => exact ⟨_, _, _, rfl⟩
  | cons y ys ih =>
    obtain ⟨a, b, c, rest⟩ := ih (s.modLane y g)
    exact ⟨a, b, c, rest.trans (by cases y <;> rfl)⟩

/-! ## A frame in the lanes that take it -/

/-- `m` is `l` once the frame has been taken, but for what it moves elsewhere (R265, R286). -/
structure Lane.Notes (l : Lane) (r : RingRx) (m : Lane) : Prop where
  store : m.store = l.store
  vote : m.vote = l.vote
  seen : r.hdr.seq ∈ m.ring.window r.hdr.src
  taken : m.stats.b.taken = l.stats.b.taken + 1

/-- A lane takes and counts a frame for its module that is not a later copy (R265, R286). -/
theorem Lane.ringIn_counts {l : Lane} {r : RingRx} (takes : l.ringTakes r = true) (first : r.hdr.seq ∉ l.ring.window r.hdr.src)
    (out : Bool) : ∃ b, b.taken = l.stats.b.taken + 1 ∧ l.ringIn r out = (l.tookFrame r b, true) := by
  have counted (m : Lane) (same : m.ringTakes r = true) (window : m.ring = l.ring) (rest : ∀ b, m.tookFrame r b = l.tookFrame r b)
      (count : m.stats.b.taken = l.stats.b.taken) :
      ∃ b, b.taken = l.stats.b.taken + 1 ∧ (if !m.ringTakes r then (m, false)
        else if (m.ring.window r.hdr.src).contains r.hdr.seq then
          ({ m with ring := { m.ring with dDupl := m.ring.dDupl + 1 } }, false)
        else (m.tookFrame r { m.stats.b with taken := m.stats.b.taken + 1 }, true)) = (l.tookFrame r b, true) := by
    refine ⟨{ m.stats.b with taken := m.stats.b.taken + 1 }, by simp [count], ?_⟩
    simp [same, window, first, rest]
  unfold Lane.ringIn
  dsimp only
  split
  · exact counted (l.statB fun b => { b with fwd := b.fwd + 1 }) takes rfl (fun _ => rfl) rfl
  · exact counted l takes rfl (fun _ => rfl) rfl

/-- A noted number leaves a noted duplicate slot (R265, R267). -/
theorem Ring.note_dup (g : Ring) (src : Byte) (q : Word) : (g.note src q).dup = g.dup := by unfold Ring.note; rfl

/-- A frame moves counts and the numbers that its lane has seen, and never notes a duplicate slot (R265, R286). -/
theorem Lane.ringIn_rest (l : Lane) (r : RingRx) (out : Bool) :
    ∃ k g, (l.ringIn r out).1 = { l with stats := k, ring := g } ∧ g.dup = l.ring.dup := by
  have kept (n : Stats) : let m := { l with stats := n }
      ∃ k g, (if !m.ringTakes r then (m, false) else if (m.ring.window r.hdr.src).contains r.hdr.seq then
        ({ m with ring := { m.ring with dDupl := m.ring.dDupl + 1 } }, false)
      else (m.tookFrame r { m.stats.b with taken := m.stats.b.taken + 1 }, true)).1 = { l with stats := k, ring := g } ∧
        g.dup = l.ring.dup := by
    intro m
    split
    · exact ⟨n, l.ring, rfl, rfl⟩
    · split
      · exact ⟨n, { l.ring with dDupl := l.ring.dDupl + 1 }, rfl, rfl⟩
      · exact ⟨{ n with b := { n.b with taken := n.b.taken + 1 } }, l.ring.note r.hdr.src r.hdr.seq, rfl,
          Ring.note_dup ..⟩
  unfold Lane.ringIn
  dsimp only
  split
  · exact kept { l.stats with b := { l.stats.b with fwd := l.stats.b.fwd + 1 } }
  · exact kept l.stats

section
variable (s : State) (r : RingRx) (b : RingBody)

/-- Forwarding sends at most. -/
theorem OnlySends.ringOut : OnlySends s (s.ringOut r b) := by
  unfold State.ringOut
  split
  · exact .refl s
  · split
    · exact .emit ..
    · exact .refl s

/-- The lanes that receive a frame are each named once. -/
theorem State.ringLanes_nodup : (s.ringLanes r).Nodup := List.Nodup.filter _ (by decide)

/-- A lane that receives a frame does its part; another stays as it is (R265). -/
theorem State.ringTake_lane (x : LaneId) : (s.ringTake r b).1.lane x = if x ∈ s.ringLanes r then
    ((s.lane x).ringIn r (s.txLane (ringPortOf (ringOther r.port))).isSome).1 else s.lane x := by
  rw [State.ringTake, State.foldl_modLane_lane (s.ringLanes_nodup r), State.ringOut_lane]

/-- Lanes change and a frame leaves, and nothing else. -/
theorem State.ringTake_rest : ∃ o a c d, (s.ringTake r b).1 = { s with out := o, la := a, lb := c, lc := d } ∧ ∀ e ∈ s.out, e ∈ o := by
  obtain ⟨o, forwarded⟩ : ∃ o, s.ringOut r b = { s with out := o } := by
    unfold State.ringOut
    split
    · exact ⟨_, rfl⟩
    · split
      · exact ⟨_, rfl⟩
      · exact ⟨_, rfl⟩
  obtain ⟨a, c, d, lanes⟩ := State.foldl_modLane_rest (s.ringLanes r)
    (fun m => (m.ringIn r (s.txLane (ringPortOf (ringOther r.port))).isSome).1) (s.ringOut r b)
  refine ⟨o, a, c, d, lanes.trans (by rw [forwarded]), fun e he => ?_⟩
  have sent := (OnlySends.ringOut s r b).mem he
  rwa [forwarded] at sent

theorem State.SameRoutes.ringTake : SameRoutes s (s.ringTake r b).1 := by
  obtain ⟨o, a, c, d, rest, sent⟩ := s.ringTake_rest r b
  refine ⟨by rw [rest], by rw [rest], fun x => ?_, by rw [rest]; exact sent⟩
  rw [State.ringTake_lane]
  split
  · obtain ⟨k, g, step, -⟩ := (s.lane x).ringIn_rest r (s.txLane (ringPortOf (ringOther r.port))).isSome
    rw [step]
    rfl
  · rfl

end

section
variable {s : State} {r : RingRx} {x : LaneId}

theorem TakesFrame.received (h : TakesFrame s r x) : x ∈ s.ringLanes r := by
  simp [State.ringLanes, mem_laneList, h.lanes, h.port]

/-- A lane that takes a frame is among those that took it (R265). -/
theorem TakesFrame.ringTake (h : TakesFrame s r x) (b : RingBody) : ∃ c, c.taken = (s.lane x).stats.b.taken + 1 ∧
    (s.ringTake r b).1.lane x = (s.lane x).tookFrame r c ∧ x ∈ (s.ringTake r b).2 := by
  obtain ⟨c, count, step⟩ := Lane.ringIn_counts h.takes h.first (s.txLane (ringPortOf (ringOther r.port))).isSome
  refine ⟨c, count, ?_, List.mem_filter.mpr ⟨h.received, by simp [step]⟩⟩
  rw [State.ringTake_lane, if_pos h.received, step]

/-- The lanes that took a frame are each named once. -/
theorem State.ringTake_nodup (s : State) (r : RingRx) (b : RingBody) : (s.ringTake r b).2.Nodup :=
  (s.ringLanes_nodup r).filter _

/-- A lane that took a frame has noted it, whatever its frame moves beside (R265, R286). -/
theorem Lane.Notes.tookFrame {l : Lane} {c : StatB} (count : c.taken = l.stats.b.taken + 1) : l.Notes r (l.tookFrame r c) :=
  ⟨rfl, rfl, Ring.mem_window_note .., count⟩

end

end Sys2Proof.Machine
end

section
/-!
PROOFS. O52: CENSUS, delay measurement and BORDER frames (spec/12_cluster_and_host.md R263 to R272).
-/
namespace Sys2Proof.Machine

/-! ## Frames that the module sends -/

section
variable (s : State)

/-- Sending to the adjacent module moves the number of the ring frames and the output (R264). -/
theorem OnlySends.ringNear (p : RingPort) (own cls : Byte) (len : Nat) (b : RingBody) :
    OnlySends s (s.ringNear p own cls len b) := (putRingSeq s _).trans (emit ..)

/-- The frame to the adjacent module leaves on its port (R264). -/
theorem State.ringNear_mem (p : RingPort) (own cls : Byte) (len : Nat) (b : RingBody) :
    .ring p (ringHdr own cls 0xFD (ringDir p) len (s.ringSeq + 1)) b ∈ (s.ringNear p own cls len b).out := by
  simp [State.ringNear]

@[simp] theorem State.putRingSeq_txLane (q : Word) (p : Port) : (s.putRingSeq q).txLane p = s.txLane p :=
  (State.SameRoutes.of_sends (.putRingSeq s q)).txLane p

@[simp] theorem State.emit_txLane (o : Out) (p : Port) : (s.emit o).txLane p = s.txLane p :=
  (State.SameRoutes.of_sends (.emit s o)).txLane p

@[simp] theorem State.begin_txLane (p : Port) : s.begin.txLane p = s.txLane p := ((State.SameRoutes.of_begin s).txLane p).symm

variable {s} (own cls dst : Byte) (len : Nat) (b : RingBody)

/-- A frame to all leaves east where a lane sends there (R264). -/
theorem State.ringCast_east (sends : (s.txLane .j6).isSome = true) :
    .ring .east (ringHdr own cls dst 0 len (s.ringSeq + 1)) b ∈ (s.ringCast own cls dst len b).out := by
  simp only [State.ringCast, State.putRingSeq_txLane, State.emit_txLane, sends, if_true]
  split <;> simp

/-- A frame to all leaves west where a lane sends there (R264). -/
theorem State.ringCast_west (sends : (s.txLane .j7).isSome = true) :
    .ring .west (ringHdr own cls dst 1 len (s.ringSeq + 1)) b ∈ (s.ringCast own cls dst len b).out := by
  unfold State.ringCast
  dsimp only
  split <;> simp [sends]

end

/-! ## Frames that lanes handle -/

section
variable {s : State} {r : RingRx} {x : LaneId}

theorem TakesFrame.begin (h : TakesFrame s r x) : TakesFrame s.begin r x :=
  ⟨h.lanes, by simp [h.port], by simp [h.takes], by simp [h.first]⟩

/-- Each lane that took a frame handles it by itself. -/
theorem TakesFrame.handled (h : TakesFrame s r x) (b : RingBody) (g : Lane → Lane) :
    ∃ c, c.taken = (s.lane x).stats.b.taken + 1 ∧
      (s.begin.ringFrame r r.hdr.cls b fun t y => t.modLane y g).lane x = g ((s.lane x).tookFrame r c) := by
  obtain ⟨c, count, step, mem⟩ := h.begin.ringTake b
  rw [State.begin_lane] at count step
  refine ⟨c, count, ?_⟩
  simp only [State.ringFrame, bne_self_eq_false, Bool.false_eq_true, if_false]
  rw [State.foldl_modLane_lane (s.begin.ringTake_nodup r b), if_pos mem, step]

/-- What sending moves in a lane is nothing that a frame notes. -/
theorem Lane.Notes.sends {l m n : Lane} (h : l.Notes r m) (seq : n = { m with ring := { m.ring with seq := n.ring.seq } }) :
    l.Notes r n := by
  rw [seq]
  exact ⟨h.store, h.vote, h.seen, h.taken⟩

end

/-! ## CENSUS -/

section
variable {s : State} {r : RingRx} {x : LaneId} {img : Image}

/-- CENSUS leaves on both sides (R263, R267). -/
theorem exec_censusSend (tx : ([Port.j6, .j7].filterMap s.txLane).head? = some x) (loaded : (s.lane x).boot.img = some img) :
    exec .censusSend s = .next (s.begin.ringCast img.own 1 0xFE 27 (.census ((s.lane x).census img))) := by
  obtain ⟨xs, lanes⟩ := List.head?_eq_some_iff.mp tx
  show execCensusSend s = _
  simp [execCensusSend, lanes, loaded]

/-- A lane that takes a CENSUS is not of its source: no duplicate (R265, R267). -/
theorem Lane.slotTwice_of_takes {l : Lane} (takes : l.ringTakes r = true) (c : Census) : l.slotTwice r c = false := by
  simp only [Lane.ringTakes, Lane.ringRemoves, Bool.and_eq_true, Bool.not_eq_true', Bool.or_eq_false_iff] at takes
  obtain ⟨⟨⟨-, -, other⟩, -⟩, -⟩ := takes
  simp [Lane.slotTwice, other]

/-- The lane after a CENSUS that may carry its slot (R267). -/
def Lane.hearCensus (l : Lane) (r : RingRx) (c : Census) : Lane :=
  if l.slotTwice r c then { l with ring := { l.ring with dup := true } } else l

/-- A CENSUS in a lane that receives it (R265, R267). -/
theorem exec_censusRx (cls : r.hdr.cls = 1) (lanes : r.lanes.has x = true) (port : (s.lane x).onRing = true) (c : Census) :
    ∃ t, exec (.censusRx r c) s = .next t ∧
      t.lane x = ((s.begin.ringTake r (.census c)).1.lane x).hearCensus r c := by
  refine ⟨_, rfl, ?_⟩
  simp only [State.ringFrame, cls, bne_self_eq_false, Bool.false_eq_true, if_false, List.foldl_fixed]
  rw [State.foldl_modLane_lane (State.ringLanes_nodup _ r), if_pos]
  · rfl
  · obtain ⟨k, g, step, -⟩ := (s.lane x).ringIn_rest r (s.txLane (ringPortOf (ringOther r.port))).isSome
    have received : x ∈ s.begin.ringLanes r := by simp [State.ringLanes, mem_laneList, lanes, port]
    have standing : ((s.begin.ringTake r (.census c)).1.lane x).onRing = true := by
      rw [State.ringTake_lane, if_pos received, State.begin_lane, State.begin_txLane, step]
      exact port
    simp [State.ringLanes, mem_laneList, lanes, standing]

/-- A CENSUS of another module with another slot is noted as any frame (R265, R267). -/
theorem censusRx_noted (cls : r.hdr.cls = 1) (h : TakesFrame s r x) (c : Census) : ∃ t, exec (.censusRx r c) s = .next t ∧
    (s.lane x).Notes r (t.lane x) ∧ (t.lane x).ring.dup = (s.lane x).ring.dup := by
  obtain ⟨t, step, lane⟩ := exec_censusRx cls h.lanes h.port c
  obtain ⟨k, count, took, -⟩ := h.begin.ringTake (.census c)
  rw [State.begin_lane] at count took
  have other : ((s.lane x).tookFrame r k).slotTwice r c = false := Lane.slotTwice_of_takes h.takes c
  rw [took, Lane.hearCensus, other, if_neg Bool.false_ne_true] at lane
  exact ⟨t, step, lane ▸ .tookFrame count, by rw [lane]; exact Ring.note_dup ..⟩

/-- A CENSUS of another module with the own slot notes a duplicate (R267). -/
theorem censusRx_dup (cls : r.hdr.cls = 1) (lanes : r.lanes.has x = true) (port : (s.lane x).onRing = true)
    (admits : (s.lane x).ringAdmits r = true) (loaded : (s.lane x).boot.img = some img) (src : r.hdr.src = img.own)
    {c : Census} (other : c.mid ≠ mid) : ∃ t, exec (.censusRx r c) s = .next t ∧ (t.lane x).ring.dup = true := by
  obtain ⟨t, step, lane⟩ := exec_censusRx cls lanes port c
  refine ⟨t, step, ?_⟩
  have same := State.SameRoutes.ringTake s.begin r (.census c)
  have img' : ((s.begin.ringTake r (.census c)).1.lane x).boot.img = some img := by rw [same.img, State.begin_lane, loaded]
  have twice : ((s.begin.ringTake r (.census c)).1.lane x).slotTwice r c = true := by
    simp only [Lane.ringAdmits, loaded] at admits
    simpa [Lane.slotTwice, Lane.ringAdmits, Lane.ringSlot, img', src, other] using admits
  rw [lane, Lane.hearCensus, if_pos twice]

end

/-! ## Delay measurement -/

section
variable (g : Ring) (p : RingPort)

@[simp] theorem Ring.note_probe (src : Byte) (q : Word) : (g.note src q).probe p = g.probe p := by
  cases p <;> simp only [Ring.note, Ring.probe]

@[simp] theorem Ring.putProbe_probe (v : Option Word) : (g.putProbe p v).probe p = v := by cases p <;> rfl

@[simp] theorem Ring.putDelay_probe (d : Nat) : (g.putDelay p d).probe p = g.probe p := by cases p <;> rfl

@[simp] theorem Ring.putDelay_delay (d : Nat) : (g.putDelay p d).delay p = d := by cases p <;> rfl

@[simp] theorem Ring.putProbe_windows (v : Option Word) : (g.putProbe p v).windows = g.windows := by cases p <;> rfl

@[simp] theorem Ring.putDelay_windows (d : Nat) : (g.putDelay p d).windows = g.windows := by cases p <;> rfl

end

section
variable {s : State} {r : RingRx} {x : LaneId} {img : Image} {p : RingPort} {probe : Word} {turn trip : Nat}

/-- A delay request leaves with its probe, which the lanes on the ring hold (R266). -/
theorem delayReqSend_probe (tx : s.txLane (ringPortOf p) = some x) (loaded : (s.lane x).boot.img = some img) :
    ∃ t, exec (.delayReqSend p probe) s = .next t ∧
      (∀ y, (s.lane y).onRing = true → (t.lane y).ring.probe p = some probe) ∧
      ∃ h : RingHdr, h.cls = 2 ∧ h.dst = 0xFD ∧ h.src = img.own ∧ h.len = 4 ∧ .ring p h (.probe probe) ∈ t.out := by
  have own : (s.begin.txLane (ringPortOf p)).bind (fun y => (s.begin.lane y).ringSlot) = some img.own := by
    simp [tx, Lane.ringSlot, loaded]
  let u := s.begin.mapLanes fun _ m => if m.onRing then { m with ring := m.ring.putProbe p (some probe) } else m
  have sends : exec (.delayReqSend p probe) s = .next (u.ringNear p img.own 2 4 (.probe probe)) := by
    show execDelayReqSend p probe s = _
    rw [execDelayReqSend, own]
  refine ⟨_, sends, fun y port => ?_, _, rfl, rfl, rfl, rfl, State.ringNear_mem ..⟩
  have lane := (OnlySends.ringNear u p img.own 2 4 (.probe probe)).lanes y
  have asked : (u.lane y).ring.probe p = some probe := by simp [u, port]
  rw [lane]
  exact (by cases p <;> rfl : _ = (u.lane y).ring.probe p).trans asked

/-- What a lane that took a delay request does (R266). -/
def State.answerProbe (t : State) (r : RingRx) (probe : Word) (turn : Nat) (y : LaneId) : State :=
  if t.txLane (ringPortOf r.port) == some y then
    match (t.lane y).ringSlot with
    | none => t
    | some own => t.ringNear r.port own 3 8 (.probeBack probe turn)
  else t

theorem OnlySends.answerProbe (t : State) (r : RingRx) (probe : Word) (turn : Nat) (y : LaneId) :
    OnlySends t (t.answerProbe r probe turn y) := by
  unfold State.answerProbe
  split
  · split
    · exact .refl t
    · exact .ringNear ..
  · exact .refl t

/-- Of the lanes that took a delay request, the transmit lane of its port answers (R266). -/
theorem State.foldl_answerProbe_mem {t : State} {ys : List LaneId} (mem : x ∈ ys) (tx : t.txLane (ringPortOf r.port) = some x)
    (loaded : (t.lane x).boot.img = some img) : ∃ q : Word, .ring r.port (ringHdr img.own 3 0xFD (ringDir r.port) 8 q)
      (.probeBack probe turn) ∈ (ys.foldl (fun t y => t.answerProbe r probe turn y) t).out := by
  obtain ⟨before, after, rfl⟩ := List.append_of_mem mem
  rw [List.foldl_append, List.foldl_cons]
  have run (ys : List LaneId) (t : State) : OnlySends t (ys.foldl (fun t y => t.answerProbe r probe turn y) t) :=
    .foldl (fun t y => .answerProbe t r probe turn y) ys t
  have same := State.SameRoutes.of_sends (run before t)
  generalize before.foldl (fun t y => t.answerProbe r probe turn y) t = u at same
  have answers : u.answerProbe r probe turn x = u.ringNear r.port img.own 3 8 (.probeBack probe turn) := by
    simp [State.answerProbe, same.txLane, tx, Lane.ringSlot, same.img, loaded]
  exact ⟨_, (run after _).mem (answers ▸ State.ringNear_mem ..)⟩

/-- A delay request is answered by the transmit lane of its port (R266). -/
theorem delayReqRx_answers (cls : r.hdr.cls = 2) (h : TakesFrame s r x) (tx : s.txLane (ringPortOf r.port) = some x)
    (loaded : (s.lane x).boot.img = some img) : ∃ t, exec (.delayReqRx r probe turn) s = .next t ∧
      (s.lane x).Notes r (t.lane x) ∧ ∃ h : RingHdr, h.cls = 3 ∧ h.dst = 0xFD ∧ h.src = img.own ∧ h.len = 8 ∧
        .ring r.port h (.probeBack probe turn) ∈ t.out := by
  obtain ⟨c, count, took, mem⟩ := h.begin.ringTake (.probe probe)
  rw [State.begin_lane] at count took
  have step : exec (.delayReqRx r probe turn) s = .next ((s.begin.ringTake r (.probe probe)).2.foldl
      (fun t y => t.answerProbe r probe turn y) (s.begin.ringTake r (.probe probe)).1) := by
    show execDelayReqRx r probe turn s = _
    simp only [execDelayReqRx, State.ringFrame, cls, bne_self_eq_false, Bool.false_eq_true, if_false]
    rfl
  refine ⟨_, step, ?_, ?_⟩
  · have lane := (OnlySends.foldl (fun t y => .answerProbe t r probe turn y) (s.begin.ringTake r (.probe probe)).2
      (s.begin.ringTake r (.probe probe)).1).lanes x
    rw [took] at lane
    exact (Lane.Notes.tookFrame count).sends lane
  · have same := State.SameRoutes.ringTake s.begin r (.probe probe)
    obtain ⟨q, sent⟩ := State.foldl_answerProbe_mem (probe := probe) (turn := turn) mem
      (by rw [same.txLane, State.begin_txLane, tx]) (by rw [same.img, State.begin_lane, loaded])
    exact ⟨_, rfl, rfl, rfl, rfl, sent⟩

/-- The lane after an answer to its probe (R266). -/
def Lane.hearProbe (l : Lane) (p : RingPort) (probe : Word) (d : Nat) : Lane :=
  if l.ring.probe p == some probe then { l with ring := (l.ring.putProbe p none).putDelay p d } else l

/-- A lane that takes the answer to its probe hears it (R266). -/
theorem exec_delayRespRx (cls : r.hdr.cls = 3) (h : TakesFrame s r x) (asked : (s.lane x).ring.probe r.port = some probe) :
    ∃ t c, exec (.delayRespRx r probe turn trip) s = .next t ∧ (s.lane x).Notes r ((s.lane x).tookFrame r c) ∧
      t.lane x = { (s.lane x).tookFrame r c with
        ring := (((s.lane x).tookFrame r c).ring.putProbe r.port none).putDelay r.port ((trip - turn) / 2) } := by
  obtain ⟨c, count, lane⟩ := h.handled (.probeBack probe turn) (·.hearProbe r.port probe ((trip - turn) / 2))
  have held : ((s.lane x).tookFrame r c).ring.probe r.port = some probe := (Ring.note_probe ..).trans asked
  rw [cls, Lane.hearProbe, held, beq_self_eq_true, if_pos rfl] at lane
  exact ⟨_, c, rfl, .tookFrame count, lane⟩

/-- The answer to a probe gives the delay of the link: half of the round trip less the turnaround (R266). -/
theorem delayRespRx_delay (cls : r.hdr.cls = 3) (h : TakesFrame s r x) (asked : (s.lane x).ring.probe r.port = some probe) :
    ∃ t, exec (.delayRespRx r probe turn trip) s = .next t ∧ (s.lane x).Notes r (t.lane x) ∧
      (t.lane x).ring.delay r.port = (trip - turn) / 2 ∧ (t.lane x).ring.probe r.port = none := by
  obtain ⟨t, c, step, notes, lane⟩ := exec_delayRespRx (turn := turn) (trip := trip) cls h asked
  refine ⟨t, step, ?_⟩
  rw [lane]
  refine ⟨⟨notes.store, notes.vote, ?_, notes.taken⟩, by simp, by simp⟩
  simpa [Ring.window] using notes.seen

end

/-! ## BORDER -/

section
variable {l : Lane} {img : Image} {src : Byte} {body : List Byte} {q : Fin 8} {g : BorderSeg} {e : BorderFail}

/-- A BORDER frame that passes the checks joins the set of its neighbour (R270, R271). -/
theorem Lane.borderIn_ok (long : 0x2C ≤ body.length)
    (sound : ∀ k w, borderNb img body = some (k, w) → nbSound img k.val = true) (ok : l.borderCheck img src body = .ok (q, g)) :
    l.borderIn img src body =
      { l with ring := { l.ring with nbs := l.ring.nbs.set q.val (l.ring.nbs[q].takeSeg g l.cyc.frozen) } } := by
  cases found : borderNb img body with
  | none => simp [Lane.borderCheck, found] at ok
  | some n => simp [Lane.borderIn, Nat.not_lt.mpr long, found, sound n.1 n.2 found, ok]

/-- One that fails them is counted (R270, R286). -/
theorem Lane.borderIn_error (long : 0x2C ≤ body.length)
    (sound : ∀ k w, borderNb img body = some (k, w) → nbSound img k.val = true) (bad : l.borderCheck img src body = .error e) :
    l.borderIn img src body = { l with ring := l.ring.discard e } := by
  cases found : borderNb img body with
  | none =>
    obtain rfl : BorderFail.format = e := by simpa [Lane.borderCheck, found] using bad
    simp [Lane.borderIn, Nat.not_lt.mpr long, found]
  | some n => simp [Lane.borderIn, Nat.not_lt.mpr long, found, sound n.1 n.2 found, bad]

/-- A discard counts in its own class alone (R286). -/
theorem Ring.discard_counts (g : Ring) (e : BorderFail) : (g.discard e).nbs = g.nbs ∧ (g.discard e).windows = g.windows ∧
    (g.discard e).dFormat = g.dFormat + (if e = .format then 1 else 0) ∧
    (g.discard e).dTag = g.dTag + (if e = .tag then 1 else 0) ∧
    (g.discard e).dOld = g.dOld + (if e = .old then 1 else 0) := by
  cases e <;> simp [Ring.discard]

/-- A taken frame leaves the sets of the neighbours (R265). -/
theorem Lane.tookFrame_nbs (l : Lane) (r : RingRx) (b : StatB) : (l.tookFrame r b).ring.nbs = l.ring.nbs := by
  simp only [Lane.tookFrame, Ring.note]

/-- A taken frame leaves the discards (R265, R286). -/
theorem Lane.tookFrame_discards (l : Lane) (r : RingRx) (b : StatB) : (l.tookFrame r b).ring.dFormat = l.ring.dFormat ∧
    (l.tookFrame r b).ring.dTag = l.ring.dTag ∧ (l.tookFrame r b).ring.dOld = l.ring.dOld := by
  simp only [Lane.tookFrame, Ring.note, and_self]

/-- The checks of a BORDER frame do not look at what was noted of the frame (R270). -/
theorem Lane.tookFrame_borderCheck (l : Lane) (r : RingRx) (b : StatB) (img : Image) (src : Byte) (body : List Byte) :
    (l.tookFrame r b).borderCheck img src body = l.borderCheck img src body := by
  simp only [Lane.borderCheck, Lane.tookFrame_nbs]
  rfl

end

section
variable {s : State} {r : RingRx} {x : LaneId} {img : Image} {body : List Byte} {q : Fin 8} {g : BorderSeg} {e : BorderFail}

/-- The lane after a BORDER frame that it took (R270). -/
def Lane.hearBorder (l : Lane) (src : Byte) (body : List Byte) : Lane :=
  match l.boot.img with
  | none => l
  | some img => if l.takesBorder then l.borderIn img src body else l

/-- A BORDER frame in a lane that takes it in is judged there (R265, R270). -/
theorem exec_borderRx (cls : r.hdr.cls = 0x20) (h : TakesFrame s r x) (loaded : (s.lane x).boot.img = some img)
    (takes : (s.lane x).takesBorder = true) : ∃ t c, exec (.borderRx r body) s = .next t ∧
      (s.lane x).Notes r ((s.lane x).tookFrame r c) ∧ t.lane x = ((s.lane x).tookFrame r c).borderIn img r.hdr.src body := by
  obtain ⟨c, count, lane⟩ := h.handled (.raw body) (·.hearBorder r.hdr.src body)
  have here : ((s.lane x).tookFrame r c).hearBorder r.hdr.src body =
      ((s.lane x).tookFrame r c).borderIn img r.hdr.src body := by
    rw [Lane.hearBorder, show ((s.lane x).tookFrame r c).boot.img = some img from loaded]
    exact if_pos takes
  rw [here, cls] at lane
  exact ⟨_, c, rfl, .tookFrame count, lane⟩

/-- One that passes the checks joins the set of its neighbour (R270, R271). -/
theorem borderRx_joins (cls : r.hdr.cls = 0x20) (h : TakesFrame s r x) (loaded : (s.lane x).boot.img = some img)
    (takes : (s.lane x).takesBorder = true) (long : 0x2C ≤ body.length)
    (sound : ∀ k w, borderNb img body = some (k, w) → nbSound img k.val = true)
    (ok : (s.lane x).borderCheck img r.hdr.src body = .ok (q, g)) : ∃ t, exec (.borderRx r body) s = .next t ∧
      (s.lane x).Notes r (t.lane x) ∧
      (t.lane x).ring.nbs = (s.lane x).ring.nbs.set q.val ((s.lane x).ring.nbs[q].takeSeg g (s.lane x).cyc.frozen) ∧
      (t.lane x).ring.dTag = (s.lane x).ring.dTag := by
  obtain ⟨t, c, step, notes, lane⟩ := exec_borderRx (body := body) cls h loaded takes
  rw [Lane.borderIn_ok long sound ((Lane.tookFrame_borderCheck ..).trans ok)] at lane
  refine ⟨t, step, ?_⟩
  rw [lane]
  refine ⟨⟨notes.store, notes.vote, ?_, notes.taken⟩, ?_, ?_⟩
  · simpa [Ring.window] using notes.seen
  · simp only [Lane.tookFrame_nbs]
    rfl
  · simp only [Lane.tookFrame, Ring.note]

/-- One that fails them is counted by the reason (R270, R286). -/
theorem borderRx_counts (cls : r.hdr.cls = 0x20) (h : TakesFrame s r x) (loaded : (s.lane x).boot.img = some img)
    (takes : (s.lane x).takesBorder = true) (long : 0x2C ≤ body.length)
    (sound : ∀ k w, borderNb img body = some (k, w) → nbSound img k.val = true)
    (bad : (s.lane x).borderCheck img r.hdr.src body = .error e) : ∃ t, exec (.borderRx r body) s = .next t ∧
      (s.lane x).Notes r (t.lane x) ∧ (t.lane x).ring.nbs = (s.lane x).ring.nbs ∧
      (t.lane x).ring.dFormat = (s.lane x).ring.dFormat + (if e = .format then 1 else 0) ∧
      (t.lane x).ring.dTag = (s.lane x).ring.dTag + (if e = .tag then 1 else 0) ∧
      (t.lane x).ring.dOld = (s.lane x).ring.dOld + (if e = .old then 1 else 0) := by
  obtain ⟨t, c, step, notes, lane⟩ := exec_borderRx (body := body) cls h loaded takes
  rw [Lane.borderIn_error long sound ((Lane.tookFrame_borderCheck ..).trans bad)] at lane
  obtain ⟨nbs, windows, format, tag, old⟩ := ((s.lane x).tookFrame r c).ring.discard_counts e
  refine ⟨t, step, ?_⟩
  rw [lane]
  refine ⟨⟨notes.store, notes.vote, ?_, notes.taken⟩, ?_, ?_⟩
  · simpa [Ring.window, windows] using notes.seen
  · simp only [nbs, Lane.tookFrame_nbs]
  · obtain ⟨format', tag', old'⟩ := (s.lane x).tookFrame_discards r c
    exact ⟨by rw [format, format'], by rw [tag, tag'], by rw [old, old']⟩

end

/-- Settles O52: each frame is followed in one lane that takes it, whichever other lanes take it too. -/
theorem ringFrames : Obligations.RingFrames := by
  unfold Obligations.RingFrames
  intro s r c p probe turn trip body x img q g e m noted
  have asNoted {t : State} (h : m.Notes r (t.lane x)) : noted t := ⟨h.store, h.vote, h.seen, h.taken⟩
  refine ⟨fun tx loaded => ?_, fun cls h => ?_, fun cls lanes port admits loaded src other => ?_, rfl, fun tx loaded => ?_,
    fun cls h tx loaded => ?_, fun cls h asked => ?_, fun cls h loaded takes long sound => ⟨fun ok => ?_, fun bad => ?_⟩⟩
  · have seq : s.begin.ringSeq = s.ringSeq := rfl
    refine ⟨_, exec_censusSend tx loaded, .ringCast .., fun east => ?_, fun west => ?_⟩
    · exact seq ▸ State.ringCast_east _ _ _ _ _ (by rwa [State.begin_txLane])
    · exact seq ▸ State.ringCast_west _ _ _ _ _ (by rwa [State.begin_txLane])
  · obtain ⟨t, step, notes, dup⟩ := censusRx_noted cls h c
    exact ⟨t, step, asNoted notes, dup⟩
  · exact censusRx_dup cls lanes port admits loaded src other
  · exact delayReqSend_probe tx loaded
  · obtain ⟨t, step, notes, sent⟩ := delayReqRx_answers (probe := probe) (turn := turn) cls h tx loaded
    exact ⟨t, step, asNoted notes, sent⟩
  · obtain ⟨t, step, notes, delay⟩ := delayRespRx_delay (turn := turn) (trip := trip) cls h asked
    exact ⟨t, step, asNoted notes, delay⟩
  · obtain ⟨t, step, notes, joined⟩ := borderRx_joins cls h loaded takes long sound ok
    exact ⟨t, step, asNoted notes, joined⟩
  · obtain ⟨t, step, notes, counted⟩ := borderRx_counts cls h loaded takes long sound bad
    exact ⟨t, step, asNoted notes, counted⟩

end Sys2Proof.Machine
end

section
/-!
PROOFS. O53: tunnels, host connections and the TLS handshake (spec/12_cluster_and_host.md R273, R274, R278;
spec/14_keys_and_trust.md R309 to R312).
-/
namespace Sys2Proof.Machine

/-! ## Tunnels while the module sends -/

section
variable (s : State) (t : Tunnel)

theorem OnlySends.conns_eq {u t : State} (h : OnlySends u t) : t.conns = u.conns := by rw [h.rest]

@[simp] theorem State.ringCast_tunnels (own cls dst : Byte) (len : Nat) (b : RingBody) :
    (s.ringCast own cls dst len b).tunnels = s.tunnels := by
  unfold State.ringCast
  dsimp only
  split <;> split <;> rfl

@[simp] theorem State.tunnelFrame_tunnels (opn cls : Bool) (off : Word) (data : List Byte) :
    (s.tunnelFrame t opn cls off data).tunnels = s.tunnels := by
  unfold State.tunnelFrame
  split
  · rfl
  · exact State.ringCast_tunnels ..

/-- Stream bytes that leave change no tunnel (R278). -/
@[simp] theorem State.tunnelRun_tunnels (opn : Bool) (off : Word) (data : List Byte) :
    (s.tunnelRun t opn off data).tunnels = s.tunnels := by
  unfold State.tunnelRun
  generalize positions (pieces data) = ps
  induction ps generalizing s with
  | nil => rfl
  | cons p ps ih => exact (ih _).trans (State.tunnelFrame_tunnels ..)

/-- The tunnel once it has sent what may leave (R278). -/
def Tunnel.pushed (t : Tunnel) : Tunnel :=
  let data := t.queue.take (65536 - t.unacked.length)
  { t with queue := t.queue.drop data.length, unacked := t.unacked ++ data, sent := t.sent + BitVec.ofNat 32 data.length }

theorem State.tunnelPush_tunnels (opn : Bool) : (s.tunnelPush t opn).tunnels = (s.putTunnel t.pushed).tunnels :=
  State.tunnelRun_tunnels ..

end

/-- One end of a tunnel goes by its role, the slot of the other end and the TID (R278). -/
theorem Tunnel.same_iff {t u : Tunnel} : t.same u = true ↔ t.gateway = u.gateway ∧ t.peer = u.peer ∧ t.tid = u.tid := by
  simp [Tunnel.same, and_assoc]

/-- A tunnel that replaces one that stands is among the tunnels (R278). -/
theorem State.mem_putTunnel {s : State} {t v : Tunnel} (mem : t ∈ s.tunnels) (same : t.same v = true) :
    v ∈ (s.putTunnel v).tunnels := List.mem_map.mpr ⟨t, mem, if_pos same⟩

/-! ## Stream data at one end -/

/-- After data has come in: what waits is sent, and the data acknowledged (R278). -/
def State.tunnelSends (s : State) (v : Tunnel) (b : TunnelBody) : State :=
  let s := if v.queue.isEmpty then s else s.tunnelPush v false
  if b.data.isEmpty then s else s.tunnelFrame v false false v.sent []

/-- The bytes of a frame that an end has not received before (R278). -/
def Tunnel.fresh (t : Tunnel) (b : TunnelBody) : List Byte :=
  let late := (t.recv - b.off).toNat
  if late ≤ b.data.length then b.data.drop late else []

/-- The tunnel once a frame's acknowledgement and `n` bytes of it have come in (R278). -/
def Tunnel.hears (t : Tunnel) (b : TunnelBody) (n : Nat) : Tunnel :=
  let k := (b.ack - t.acked).toNat
  let k := if k ≤ t.unacked.length then k else 0
  { t with acked := t.acked + BitVec.ofNat 32 k, unacked := t.unacked.drop k, recv := t.recv + BitVec.ofNat 32 n }

section
variable {s : State} {t v : Tunnel} {b : TunnelBody}

theorem State.tunnelData_eq : s.tunnelData t b =
    let v := t.hears b (t.fresh b).length
    let u := if v.gateway && !(t.fresh b).isEmpty then (s.putTunnel v).emit (.stream v.conn (t.fresh b)) else s.putTunnel v
    if b.cls then (u.tunnelSends v b).tunnelGone v else u.tunnelSends v b := rfl

theorem OnlySends.tunnelSends (s : State) (v : Tunnel) (b : TunnelBody) : OnlySends s (s.tunnelSends v b) := by
  have push : OnlySends s (if v.queue.isEmpty then s else s.tunnelPush v false) := by
    split
    · exact .refl s
    · exact .tunnelPush ..
  unfold State.tunnelSends
  dsimp only
  split
  · exact push
  · exact push.trans (.tunnelFrame ..)

/-- Sending leaves how far an end has received (R278). -/
theorem State.tunnelSends_recv (mem : v ∈ s.tunnels) (b : TunnelBody) :
    ∃ w ∈ (s.tunnelSends v b).tunnels, w.same v = true ∧ w.recv = v.recv := by
  have tunnels : (s.tunnelSends v b).tunnels = (if v.queue.isEmpty then s else s.tunnelPush v false).tunnels := by
    unfold State.tunnelSends
    dsimp only
    split
    · rfl
    · exact State.tunnelFrame_tunnels ..
  have self : v.same v = true := Tunnel.same_iff.mpr ⟨rfl, rfl, rfl⟩
  rw [tunnels]
  split
  · exact ⟨v, mem, self, rfl⟩
  · rw [State.tunnelPush_tunnels]
    exact ⟨v.pushed, State.mem_putTunnel mem self, self, rfl⟩

/-- Data at the expected offset is received whole and leaves the gateway on its connection (R278). -/
theorem State.tunnelData_expected (gateway : t.gateway = true) (expected : b.off = t.recv) (data : b.data ≠ [])
    (stays : b.cls = false) : let v := t.hears b b.data.length
      s.tunnelData t b = ((s.putTunnel v).emit (.stream t.conn b.data)).tunnelSends v b := by
  have late : (t.recv - b.off).toNat = 0 := by simp [expected]
  have here : (t.hears b b.data.length).gateway = true := gateway
  rw [State.tunnelData_eq, Tunnel.fresh, late, if_pos (Nat.zero_le _), List.drop_zero, stays]
  simp only [here, List.isEmpty_eq_false_iff.mpr data, Bool.not_false, Bool.and_self, if_true, Bool.false_eq_true, if_false]
  rfl

end

/-! ## A TUNNEL frame in a lane that takes it -/

section
variable {s : State} {r : RingRx} {x : LaneId} {b : TunnelBody} {t : Tunnel}

/-- A TUNNEL frame takes effect on what sessions, connections and tunnels were (R265, R278). -/
theorem exec_tunnelRx (cls : r.hdr.cls = 0x30) (h : TakesFrame s r x) (short : b.data.length ≤ 1400) :
    ∃ a : State, exec (.tunnelRx r b) s = .next (a.tunnelIn r.hdr.src b) ∧ a.sessions = s.sessions ∧ a.conns = s.conns ∧
      a.tunnels = s.tunnels := by
  obtain ⟨c, -, -, mem⟩ := h.begin.ringTake (.tunnel b)
  obtain ⟨o, l, m, n, rest, -⟩ := s.begin.ringTake_rest r (.tunnel b)
  have took : (s.begin.ringTake r (.tunnel b)).2.isEmpty = false := List.isEmpty_eq_false_iff.mpr (List.ne_nil_of_mem mem)
  refine ⟨(s.begin.ringTake r (.tunnel b)).1, ?_, by rw [rest]; rfl, by rw [rest]; rfl, by rw [rest]; rfl⟩
  show execTunnelRx r b s = _
  simp [execTunnelRx, cls, took, Nat.not_lt.mpr short]

theorem State.tunnelOf_congr {a s : State} (same : a.tunnels = s.tunnels) (src : Byte) (b : TunnelBody) :
    a.tunnelOf src b = s.tunnelOf src b := by simp only [State.tunnelOf, same]

/-- The end that a frame reaches is one of the module's (R278). -/
theorem State.mem_of_tunnelOf {src : Byte} (h : s.tunnelOf src b = some t) : t ∈ s.tunnels := by
  unfold State.tunnelOf at h
  dsimp only at h
  split at h
  · exact List.mem_of_find?_eq_some h
  · split at h
    · next found => exact Option.some.inj h ▸ List.mem_of_find?_eq_some found
    · exact List.mem_of_find?_eq_some h

/-- Data at the expected offset reaches the connection of its gateway end (R278). -/
theorem tunnelRx_data (cls : r.hdr.cls = 0x30) (h : TakesFrame s r x) (short : b.data.length ≤ 1400)
    (reached : s.tunnelOf r.hdr.src b = some t) (stays : b.cls = false) (gateway : t.gateway = true) (data : b.data ≠ [])
    (expected : b.off = t.recv) : ∃ u, exec (.tunnelRx r b) s = .next u ∧ .stream t.conn b.data ∈ u.out ∧
      u.sessions = s.sessions ∧ u.conns = s.conns ∧
      ∃ v ∈ u.tunnels, v.same t = true ∧ v.recv = t.recv + BitVec.ofNat 32 b.data.length := by
  obtain ⟨a, step, sessions, conns, tunnels⟩ := exec_tunnelRx cls h short
  rw [State.tunnelIn, State.tunnelOf_congr tunnels, reached] at step
  dsimp only at step
  rw [State.tunnelData_expected gateway expected data stays] at step
  have same : t.same (t.hears b b.data.length) = true := Tunnel.same_iff.mpr ⟨rfl, rfl, rfl⟩
  have stands : t.hears b b.data.length ∈ ((a.putTunnel (t.hears b b.data.length)).emit (.stream t.conn b.data)).tunnels :=
    State.mem_putTunnel (tunnels ▸ State.mem_of_tunnelOf reached) same
  have sends := OnlySends.tunnelSends ((a.putTunnel (t.hears b b.data.length)).emit (.stream t.conn b.data))
    (t.hears b b.data.length) b
  obtain ⟨w, mem, like, recv⟩ := State.tunnelSends_recv stands b
  exact ⟨_, step, sends.mem (by simp), sends.sessions_eq.trans sessions, sends.conns_eq.trans conns, w, mem, like, recv⟩

/-- An OPEN is a new connection while fewer than 8 are terminated (R274, R278). -/
theorem tunnelRx_open (cls : r.hdr.cls = 0x30) (h : TakesFrame s r x) (opens : b.opn = true) (stays : b.cls = false)
    (data : b.data = []) (tid : b.tid.toNat < 16) (new : s.tunnelOf r.hdr.src b = none) (room : s.terminated < 8) :
    ∃ u, exec (.tunnelRx r b) s = .next u ∧ u.sessions = s.sessions ∧
      ∃ d : Conn, u.conns = s.conns ++ [d] ∧ d.maint = b.mnt ∧ d.tunnel = some (r.hdr.src, b.tid) := by
  obtain ⟨a, step, sessions, conns, tunnels⟩ := exec_tunnelRx cls h (by simp [data] : b.data.length ≤ 1400)
  have few : ¬ 8 ≤ a.terminated := by
    rw [State.terminated, sessions, conns]
    exact Nat.not_le.mpr room
  rw [State.tunnelIn, State.tunnelOf_congr tunnels, new] at step
  refine ⟨_, step, ?_⟩
  simp only [opens, if_true, State.tunnelOpen, Nat.not_le.mpr tid, few, if_false, State.tunnelData, data, stays, newTunnel]
  exact ⟨sessions, _, congrArg (· ++ _) conns, rfl, rfl⟩

end

/-! ## Retransmission and timeout -/

section
variable {s : State} {t : Tunnel} {gw : Byte} {tid : Fin 16}

/-- A TID in the two forms that name it. -/
theorem ofFin_castLE_eq_ofNat (tid : Fin 16) : (BitVec.ofFin (tid.castLE (by decide)) : Byte) = BitVec.ofNat 8 tid.val :=
  BitVec.eq_of_toNat_eq (by simp; omega)

theorem State.tunnelNamed_begin (s : State) (gw id : Byte) : s.begin.tunnelNamed gw id = s.tunnelNamed gw id := by
  simp [State.tunnelNamed, ← (State.SameRoutes.of_begin s).ringOwn]

/-- A retransmission counts its frames and sends them (R278). -/
theorem exec_tunnelRetransmit (named : s.tunnelNamed gw (BitVec.ofNat 8 tid.val) = some t) :
    exec (.tunnelRetransmit gw tid) s = .next (({ s.begin with
      tunRetx := s.tunRetx + (t.unacked.length + 1399) / 1400 } : State).tunnelRun t (t.gateway && t.acked == 0) t.acked
        t.unacked) := by
  show execTunnelRetransmit gw tid s = _
  simp [execTunnelRetransmit, ofFin_castLE_eq_ofNat, State.tunnelNamed_begin, named, pieces]

/-- A timeout at the gateway closes the tunnel and its connection (R278). -/
theorem tunnelTimeout_gateway (named : s.tunnelNamed gw (BitVec.ofNat 8 tid.val) = some t) (gateway : t.gateway = true) :
    ∃ u, exec (.tunnelTimeout gw tid) s = .next u ∧ .connClosed t.conn ∈ u.out ∧
      u.tunnels = (s.tunnels.filter fun v => !v.same t) ∧ u.sessions = s.sessions := by
  have step : exec (.tunnelTimeout gw tid) s = .next ((s.begin.tunnelFrame t false true t.sent []).tunnelGone t) := by
    show execTunnelTimeout gw tid s = _
    simp [execTunnelTimeout, ofFin_castLE_eq_ofNat, State.tunnelNamed_begin, named]
  have gone : (s.begin.tunnelFrame t false true t.sent []).tunnelGone t =
      ((s.begin.tunnelFrame t false true t.sent []).dropTunnel t).emit (.connClosed t.conn) := by
    simp [State.tunnelGone, gateway]
  refine ⟨_, step, ?_⟩
  rw [gone]
  exact ⟨by simp, congrArg (List.filter _) (State.tunnelFrame_tunnels ..), (OnlySends.tunnelFrame ..).sessions_eq⟩

end

/-! ## Host connections -/

section
variable {s : State} {x : LaneId} {conn : Nat} {maint : Bool} {slot own k : Byte} {tuple data : List Byte}

@[simp] theorem State.begin_connUsed (s : State) (conn : Nat) : s.begin.connUsed conn = s.connUsed conn := rfl

/-- A connection with a full preamble is held, tunnelled or closed by the slot that it names (R273). -/
theorem exec_hostConnect (tx : s.txLane (if maint then .j10 else .j9) = some x) (new : s.connUsed conn = false) :
    exec (.hostConnect maint conn tuple (preambleTag ++ [slot]) data) s =
      if 64 ≤ slot.toNat then .next (s.begin.emit (.connClosed conn))
      else if slot = (s.lane x).ownSlot then .next { s.begin with
        conns := s.conns ++ [{ id := conn, maint := maint, ownJ10 := maint, tunnel := none, tuple := tuple }] }
      else .next (s.begin.gatewayOpen maint conn slot data) := by
  have named : byteAt (preambleTag ++ [slot]) 3 = slot := rfl
  have length : (preambleTag ++ [slot]).length = 4 := rfl
  have tag : (preambleTag ++ [slot]).take 3 = preambleTag := rfl
  show execHostConnect maint conn tuple (preambleTag ++ [slot]) data s = _
  simp [execHostConnect, hostPort, tx, new, named, length, tag]

/-- No tunnel of the module has the number that is free for a new one to a slot (R278). -/
theorem State.freeTid_new (free : s.freeTid slot = some k) {u t : Tunnel} (mem : u ∈ s.tunnels) (gateway : t.gateway = true)
    (tid : t.tid = k) : u.same t = false := by
  have none := List.find?_some free
  simp only [Bool.not_eq_true', List.any_eq_false, Bool.and_eq_true, not_and, beq_iff_eq] at none
  rw [← Bool.not_eq_true, Tunnel.same_iff]
  rintro ⟨ga, -, ti⟩
  exact none u mem (ti.trans tid) (by simp [ga, gateway])

/-- A connection that names another slot gets a tunnel to it (R273, R278). -/
theorem State.gatewayOpen_tunnels (ring : s.ringOwn = some own) (free : s.freeTid slot = some k) :
    OnlySends s (s.gatewayOpen maint conn slot data) ∧ ∃ v : Tunnel, (s.gatewayOpen maint conn slot data).tunnels =
      s.tunnels ++ [v] ∧ v.gateway = true ∧ v.peer = slot ∧ v.tid = k ∧ v.conn = conn := by
  let t := newTunnel true slot k conn maint data
  have step : s.gatewayOpen maint conn slot data = if data.isEmpty then
      ({ s with tunnels := s.tunnels ++ [t] } : State).tunnelFrame t true false 0 []
    else ({ s with tunnels := s.tunnels ++ [t] } : State).tunnelPush t true := by
    rw [State.gatewayOpen, ring, free]
  have added := OnlySends.tunnels s (s.tunnels ++ [t])
  rw [step]
  split
  · exact ⟨added.trans (.tunnelFrame ..), t, State.tunnelFrame_tunnels .., rfl, rfl, rfl, rfl⟩
  · have others : s.tunnels.map (fun u => if u.same t.pushed then t.pushed else u) = s.tunnels := by
      refine (List.map_congr_left fun u mem => ?_).trans s.tunnels.map_id
      simp [State.freeTid_new free mem (t := t.pushed) rfl rfl]
    have self : t.same t.pushed = true := Tunnel.same_iff.mpr ⟨rfl, rfl, rfl⟩
    refine ⟨added.trans (.tunnelPush ..), t.pushed, (State.tunnelPush_tunnels ..).trans ?_, rfl, rfl, rfl, rfl⟩
    simp [State.putTunnel, others, self]

theorem State.begin_ringOwn (s : State) : s.begin.ringOwn = s.ringOwn := (State.SameRoutes.of_begin s).ringOwn.symm

/-- Such a connection is tunnelled, and no session or connection of the module (R273, R278). -/
theorem hostConnect_tunnels (tx : s.txLane (if maint then .j10 else .j9) = some x) (new : s.connUsed conn = false)
    (slots : slot.toNat < 64) (other : slot ≠ (s.lane x).ownSlot) (ring : s.ringOwn = some own) (free : s.freeTid slot = some k) :
    ∃ u, exec (.hostConnect maint conn tuple (preambleTag ++ [slot]) data) s = .next u ∧ u.sessions = s.sessions ∧
      u.conns = s.conns ∧ ∃ v : Tunnel, u.tunnels = s.tunnels ++ [v] ∧ v.gateway = true ∧ v.peer = slot ∧ v.tid = k ∧
        v.conn = conn := by
  obtain ⟨sends, tunnel⟩ := State.gatewayOpen_tunnels (s := s.begin) (maint := maint) (conn := conn) (data := data)
    (s.begin_ringOwn.trans ring) free
  exact ⟨_, by rw [exec_hostConnect tx new, if_neg (Nat.not_le.mpr slots), if_neg other], sends.sessions_eq, sends.conns_eq,
    tunnel⟩

end

/-! ## The TLS handshake -/

section
variable {s : State} {x : LaneId} {conn : Nat} {c : Conn} {h : TlsHello} {secret : BitVec 384}

/-- A connection that closes leaves the others and the sessions (R273, R309). -/
theorem State.closeConn_of_mem (held : s.conns.any (fun d => d.id == conn) = true) :
    (s.closeConn conn).conns = (s.conns.filter fun d => d.id != conn) ∧ .connClosed conn ∈ (s.closeConn conn).out := by
  have sends : OnlySends (({ s with conns := s.conns.filter fun d => d.id != conn } : State).emit (.connClosed conn))
      (s.closeConn conn) := by
    rw [State.closeConn, if_pos held]
    dsimp only
    split
    · exact .refl _
    · exact .tunnelClose ..
  exact ⟨sends.conns_eq, sends.mem (by simp)⟩

/-- What a lane accepts does not hang on its ports that failed (R311, R312). -/
theorem State.tapRecords_sessionOf (s : State) (x : LaneId) (c : Conn) (h : TlsHello) :
    (s.tapRecords x c h).sessionOf c h = s.sessionOf c h := by
  have accepts (y : LaneId) : ((s.tapRecords x c h).lane y).accepts y c h = (s.lane y).accepts y c h := by
    simp only [State.tapRecords, State.mapLanes_lane]
    split <;> rfl
  have client (y : LaneId) : ((s.tapRecords x c h).lane y).nv = (s.lane y).nv := by
    simp only [State.tapRecords, State.mapLanes_lane]
    split <;> rfl
  simp only [State.sessionOf, accepts, client]

/-- Nor on what was sent. -/
theorem OnlySends.sessionOf_eq {u t : State} (o : OnlySends u t) (c : Conn) (h : TlsHello) :
    t.sessionOf c h = u.sessionOf c h := by
  have accepts (y : LaneId) : (t.lane y).accepts y c h = (u.lane y).accepts y c h := by
    rw [o.lanes y]
    rfl
  have client (y : LaneId) : (t.lane y).nv = (u.lane y).nv := by rw [o.lanes y]
  simp only [State.sessionOf, accepts, client]

/-- A session with a lane that accepts has a lane (R274). -/
theorem State.sessionOf_count {y : LaneId} (accepts : (s.lane y).accepts y c h = true) : (s.sessionOf c h).lanes.count ≠ 0 := by
  have has : (s.sessionOf c h).lanes.has y = true := (LaneSet.those_has ..).trans accepts
  cases y <;> simp_all [LaneSet.count, LaneSet.has]

/-- The state in which a handshake is judged: the hello, the certificates and their records have left (R309, R310). -/
def State.helloSent (s : State) (x : LaneId) (c : Conn) (h : TlsHello) (m : BitVec 384) : State :=
  let r := serverRandom m h
  let p := serverShare m c h
  let own := (s.lane x).nv.presents m
  let sig := certVerify m h (bytesOf r ++ p) own
  ((s.emit (.hello c.id r p false)).emit (.serverCert c.id own sig)).tunnelWrite c.id 0 (bytesOf r ++ p ++ own.flatten ++ sig)

theorem OnlySends.helloSent (s : State) (x : LaneId) (c : Conn) (h : TlsHello) (m : BitVec 384) :
    OnlySends s (s.helloSent x c h m) := ((emit s _).trans (emit ..)).trans (tunnelWrite ..)

/-- The hello and the certificates have left (R309, R310). -/
theorem State.helloSent_mem (s : State) (x : LaneId) (c : Conn) (h : TlsHello) (m : BitVec 384) :
    let own := (s.lane x).nv.presents m
    .hello c.id (serverRandom m h) (serverShare m c h) false ∈ (s.helloSent x c h m).out ∧ .serverCert c.id own
      (certVerify m h (bytesOf (serverRandom m h) ++ serverShare m c h) own) ∈ (s.helloSent x c h m).out :=
  ⟨(OnlySends.tunnelWrite ..).mem (by simp), (OnlySends.tunnelWrite ..).mem (by simp)⟩

/-- A handshake that some lane accepts and for which there is room opens its session (R274, R310). -/
theorem State.shake_opens (tx : s.txLane c.port = some x) (key : (s.lane x).nv.secret = some secret)
    (room : s.sessionRoom (s.sessionOf c h) = true) {y : LaneId} (accepts : (s.lane y).accepts y c h = true) :
    s.shake c h = { (s.helloSent x c h secret).tapRecords x c h with
      conns := s.conns.filter fun d => d.id != c.id
      sessions := s.sessions ++ [{ s.sessionOf c h with own := (s.lane x).nv.presents secret }] } := by
  have sends := OnlySends.helloSent s x c h secret
  have judged : ((s.helloSent x c h secret).tapRecords x c h).sessionOf c h = s.sessionOf c h :=
    (State.tapRecords_sessionOf ..).trans (sends.sessionOf_eq c h)
  have sessions : ((s.helloSent x c h secret).tapRecords x c h).sessions = s.sessions := sends.sessions_eq
  have conns : ((s.helloSent x c h secret).tapRecords x c h).conns = s.conns := sends.conns_eq
  have lanes : ¬ ((s.sessionOf c h).lanes.count = 0) := State.sessionOf_count accepts
  have free : ((s.helloSent x c h secret).tapRecords x c h).sessionRoom
      { s.sessionOf c h with own := (s.lane x).nv.presents secret } = true := by
    rw [State.sessionRoom, sessions, conns]
    exact room
  have step : s.shake c h = (let u := (s.helloSent x c h secret).tapRecords x c h
      let k := { u.sessionOf c h with own := (s.lane x).nv.presents secret }
      if k.lanes.count = 0 || !u.sessionRoom k then u.closeConn c.id
      else { u with conns := u.conns.filter fun d => d.id != c.id, sessions := u.sessions ++ [k] }) := by
    rw [State.shake, tx]
    dsimp only
    rw [key]
    rfl
  rw [step]
  simp only [judged, lanes, free, sessions, conns, decide_false, Bool.not_true, Bool.or_self, Bool.false_eq_true, if_false]

theorem State.begin_sessionOf (s : State) (c : Conn) (h : TlsHello) : s.begin.sessionOf c h = s.sessionOf c h := by
  simp only [State.sessionOf, State.begin_lane]

/-- A session within the limits has room (R274). -/
theorem State.room_of_limits
    (all : s.sessions.length + (s.conns.filter fun d => d.tunnel.isSome && d.id != c.id).length < 8)
    (maint : (s.sessionOf c h).maint = true → (s.sessions.filter (·.maint)).length < 2) :
    s.begin.sessionRoom (s.sessionOf c h) = true := by
  rw [State.sessionRoom, Bool.and_eq_true, Bool.or_eq_true, Bool.not_eq_true', decide_eq_true_iff, decide_eq_true_iff]
  refine ⟨all, ?_⟩
  cases rights : (s.sessionOf c h).maint with
  | false => exact .inl rfl
  | true => exact .inr (maint rights)

/-- What a lane presents (R307, R312). -/
theorem Nv.presents_eq (v : Nv) (m : BitVec 384) : v.presents m = if v.anchors = [] ∨ v.chain = [] then
    [Config.selfCert (identitySeed m) midText] else v.chain.map (·.raw) := by
  simp [Nv.presents]

/-- A connection found by its number has it. -/
theorem State.id_of_held (held : (s.conns.find? fun d => d.id == conn) = some c) : (c.id == conn) = true :=
  List.find?_some (p := fun d : Conn => d.id == conn) held

/-- A connection whose handshake cannot be done, or ran out of time, closes (R309). -/
theorem State.closeConn_held (held : (s.conns.find? fun d => d.id == conn) = some c) :
    (s.begin.closeConn conn).conns = (s.conns.filter fun d => d.id != conn) ∧ (s.begin.closeConn conn).sessions = s.sessions ∧
      .connClosed conn ∈ (s.begin.closeConn conn).out := by
  have among : s.conns.any (fun d => d.id == conn) = true :=
    List.any_eq_true.mpr ⟨c, List.mem_of_find?_eq_some held, State.id_of_held held⟩
  obtain ⟨conns, closed⟩ := State.closeConn_of_mem (s := s.begin) among
  exact ⟨conns, (State.closeConn_fields ..).1, closed⟩

/-- A handshake of a connection that waits for it (R309). -/
theorem exec_tlsHandshake (held : (s.conns.find? fun d => d.id == conn) = some c) :
    exec (.tlsHandshake conn h) s = if !helloFits h then .next (s.begin.closeConn conn)
      else if h.group != secp384r1 then .next (s.begin.emit (.hello conn 0 [] true)) else .next (s.begin.shake c h) := by
  show execTlsHandshake conn h s = _
  rw [execTlsHandshake, show (s.begin.conns.find? fun d => d.id == conn) = some c from held]

end

/-- Settles O53: sending moves no session and no connection, so each clause is about the one step that does. -/
theorem tunnelsAndConnections : Obligations.TunnelsAndConnections := by
  unfold Obligations.TunnelsAndConnections
  intro s r b x t gw tid conn maint slot own k tuple data c h secret id conns
  refine ⟨fun cls takes short reached stays gateway nonempty expected => ?_,
    fun cls takes opens stays none tid new room => ?_, fun named => ⟨?_, fun gateway => ?_⟩,
    fun tx new => ⟨fun slots self => ?_, fun slots => ?_, fun slots other ring free => ?_⟩, fun held => ⟨fun misfit => ?_,
      fun suite scheme group => ?_, fun suite scheme group tx key room maints accepts => ?_, ?_⟩⟩
  · exact tunnelRx_data cls takes short reached stays gateway nonempty expected
  · exact tunnelRx_open cls takes opens stays none tid new room
  · exact ⟨_, exec_tunnelRetransmit named, .tunnelRun .., State.tunnelRun_tunnels ..⟩
  · exact tunnelTimeout_gateway named gateway
  · rw [exec_hostConnect tx new, if_neg (Nat.not_le.mpr slots), if_pos self]
  · rw [exec_hostConnect tx new, if_pos slots]
  · exact hostConnect_tunnels tx new slots other ring free
  · have unfit : helloFits h = false := by simpa [helloFits, ← not_and_or] using misfit
    exact ⟨_, by rw [exec_tlsHandshake held, unfit]; rfl, State.closeConn_held held⟩
  · have fits : helloFits h = true := by simp [helloFits, suite, scheme]
    have another : (h.group != secp384r1) = true := by simpa [secp384r1] using group
    simp [exec_tlsHandshake held, fits, another]
  · have fits : helloFits h = true := by simp [helloFits, suite, scheme]
    have same : (h.group != secp384r1) = false := by simp [secp384r1, group]
    obtain ⟨y, accepts⟩ := accepts
    obtain rfl : c.id = conn := beq_iff_eq.mp (State.id_of_held held)
    obtain ⟨hello, cert⟩ := s.begin.helloSent_mem x c h secret
    rw [State.begin_lane, Nv.presents_eq] at cert
    have opened := State.shake_opens (s := s.begin) (h := h) (by rw [State.begin_txLane, tx]) (by rw [State.begin_lane, key])
      (s.begin_sessionOf c h ▸ State.room_of_limits room maints) (by rw [State.begin_lane, accepts])
    rw [State.begin_lane, Nv.presents_eq, State.begin_sessionOf] at opened
    refine ⟨_, by rw [exec_tlsHandshake held, fits, same]; rfl, ?_⟩
    rw [opened]
    exact ⟨rfl, rfl, hello, cert⟩
  · exact ⟨_, rfl, State.closeConn_held held⟩

end Sys2Proof.Machine
end

section
/-!
PROOFS. O1 and O56: a step takes the command at the front of the queue; clock gates (spec/15_clocks.md R336), voltages and dividers
(spec/16_supplies_and_power.md R344) and operating points (R345, R347).
-/
namespace Sys2Proof.Machine

/-- Settles O1: a step is a match on the queue. -/
theorem stepRunsFront : Obligations.StepRunsFront := by
  unfold Obligations.StepRunsFront
  exact fun s c rest => ⟨rfl, rfl⟩

/-- A command of one lane puts there what its lane becomes. -/
theorem State.modLane_of_value {s : State} {l : LaneId} {f : Lane → Lane} {m : Lane} (h : f (s.lane l) = m) :
    s.begin.modLane l f = s.begin.setLane l m := by
  rw [State.modLane, State.begin_lane, h]

/-! ## Gates -/

/-- A gate opens where the gate that it hangs from, if any, is open (R336). -/
theorem gateAnswer_open {gates : BitVec 17} {g : Nat} (h : ∀ k, gateParent g = some k → gates.getLsbD k = true) :
    gateAnswer gates g true = 0 := by
  rw [gateAnswer, if_pos rfl]
  split
  · rfl
  · next p parent => rw [if_pos (h p parent)]

/-- A gate under a closed one is refused (R336). -/
theorem gateAnswer_off {gates : BitVec 17} {g k : Nat} (parent : gateParent g = some k) (closed : gates.getLsbD k = false) :
    gateAnswer gates g true = 2 := by
  simp [gateAnswer, parent, closed]

/-- The gates under a gate that stand open (R336). -/
theorem gateChildren_any (gates : BitVec 17) (g : Nat) :
    ((List.range 17).any fun k => gateParent k == some g && gates.getLsbD k) = true ↔
      ∃ k < 17, gateParent k = some g ∧ gates.getLsbD k = true := by
  simp [-BitVec.getLsbD_eq_getElem]

/-- A gate over an open one is busy (R336). -/
theorem gateAnswer_busy {gates : BitVec 17} {g : Nat} (h : ∃ k < 17, gateParent k = some g ∧ gates.getLsbD k = true) :
    gateAnswer gates g false = 1 := by
  rw [gateAnswer, if_neg (by decide), if_pos ((gateChildren_any gates g).mpr h)]

/-- A gate closes where those under it are closed (R336). -/
theorem gateAnswer_close {gates : BitVec 17} {g : Nat} (h : ∀ k < 17, gateParent k = some g → gates.getLsbD k = false) :
    gateAnswer gates g false = 0 := by
  rw [gateAnswer, if_neg (by decide), if_neg]
  rw [gateChildren_any]
  rintro ⟨k, lt, under, isOpen⟩
  simp [h k lt under] at isOpen

/-! ## Voltages and dividers -/

/-- A voltage is refused below what the faster of the dividers needs (R344). -/
theorem exec_voltageRequest_volt {s : State} {l : LaneId} (acts : (s.lane l).acts = true) (mv : Nat) :
    exec (.voltageRequest l (.volt mv)) s = .next (s.begin.modLane l fun m =>
      if mv < minMv (s.lane l).clk.fastest then { m with pwr := { m.pwr with rejV := true } }
      else { m with pwr := { m.pwr with mv := mv } }) := by
  refine congrArg _ (State.modLane_of_value ?_ |>.trans (State.modLane_of_value rfl).symm)
  simp [acts]

/-- In coast the hardware holds both dividers (R327). -/
theorem exec_voltageRequest_coast {s : State} {l : LaneId} (coast : (s.lane l).clk.coast = true) (d : BitVec 6) :
    exec (.voltageRequest l (.seatDiv d)) s = .next s.begin ∧ exec (.voltageRequest l (.supDiv d)) s = .next s.begin :=
  ⟨congrArg _ (State.modLane_of_eq (by simp [coast])), congrArg _ (State.modLane_of_eq (by simp [coast]))⟩

/-! ## Operating points -/

/-- A hot lane that is armed and awake steps down (R347). -/
theorem exec_thermalStepDown {s : State} {l : LaneId} (live : (s.lane l).live = true) (armed : (s.lane l).mode.armed = true)
    (hot : (s.lane l).pwr.hot = true) (op : (s.lane l).pwr.op ≠ 3) :
    exec (.thermalStepDown l) s = .next (s.begin.modLane l Lane.stepDown) := by
  refine congrArg _ (State.modLane_of_value (if_pos ?_) |>.trans (State.modLane_of_value rfl).symm)
  rw [State.begin_lane, live, armed, hot, bne_iff_ne.mpr op]
  rfl

/-- Settles O56: a gate by the answer of `gateAnswer`, a voltage and a divider by what the other needs, an operating point by
the next admitted one. -/
theorem railsGatesAndPoints : Obligations.RailsGatesAndPoints := by
  unfold Obligations.RailsGatesAndPoints
  intro s l g mv dv p m clk pwr
  have put {f : Lane → Lane} {v : Lane} (h : f m = v) : (.next (s.begin.modLane l f) : Answer) = .next (s.begin.setLane l v) :=
    congrArg _ (State.modLane_of_value h)
  refine ⟨fun acts => ⟨?off, ?opens, ?busy, ?closes, ?volt, ?low, fun coast => exec_voltageRequest_coast coast dv,
    fun coast slow fast => ⟨?div, ?lowDiv, ?supDiv⟩⟩, fun live armed hot op => ⟨?down, ?limited, ?toOne, ?toTwo, ?none⟩,
    fun live armed seen cool op => ?up⟩
  case off =>
    intro k parent closed
    exact put (by simp [acts, Clk.gate, gateAnswer_off parent closed])
  case opens =>
    intro h
    exact put (by simp [acts, Clk.gate, gateAnswer_open h])
  case busy =>
    intro h
    exact put (by simp [acts, Clk.gate, gateAnswer_busy h])
  case closes =>
    intro h
    exact put (by simp [acts, Clk.gate, gateAnswer_close h])
  case volt =>
    intro enough
    rw [exec_voltageRequest_volt acts]
    exact put (if_neg (Nat.not_lt.mpr enough))
  case low =>
    intro low
    rw [exec_voltageRequest_volt acts]
    exact put (if_pos low)
  case div =>
    intro enough
    have enough' : minMv dv.toNat ≤ m.pwr.mv := enough
    exact put (by simp [acts, dividerOk, slow, fast, coast, enough'])
  case lowDiv =>
    intro low
    have low' : m.pwr.mv < minMv dv.toNat := low
    exact put (by simp [acts, dividerOk, slow, fast, coast, low'])
  case supDiv => exact put (by simp [acts, dividerOk, slow, fast, coast])
  case down =>
    intro lower
    rw [exec_thermalStepDown live armed hot op]
    exact put (by rw [Lane.stepDown, lower])
  case limited =>
    intro lowest
    rw [exec_thermalStepDown live armed hot op]
    exact put (by rw [Lane.stepDown, lowest])
  case toOne =>
    intro op admits
    simp [Pwr.lowerPoint, op, admits]
  case toTwo =>
    intro op admits
    simp [Pwr.lowerPoint, op, admits]
  case none =>
    intro op
    simp [Pwr.lowerPoint, op]
  case up =>
    have higher : m.pwr.higherPoint = some (m.pwr.op - 1) := if_pos (by rcases op with h | h <;> rw [h] <;> rfl)
    exact put (by simp [live, armed, seen, cool, higher])

end Sys2Proof.Machine
end

section
/-!
PROOFS. O51: a wake event that comes at AP3 of a WAIT (spec/16_supplies_and_power.md R348; spec/15_clocks.md R336).
-/
namespace Sys2Proof.Machine

/-- A WAIT unwound at AP3 asks the gates that it closed to open again (R348, R349). -/
theorem exec_wait_unwound_at_ap3 {s : State} {l : LaneId} (waits : (s.lane l).mayWait = true) (target : WaitTarget) :
    ∃ t, exec (.wait l target (some 3)) s = .next t ∧ (t.lane l).clk = (s.lane l).clk.gateOff.gateOn :=
  ⟨_, rfl, by simp [waits]⟩

/-- The last gate asked for at a wake is gate 10 (R349). -/
theorem Clk.gateOn_gGate (c : Clk) : c.gateOn.gGate = 10 := rfl

/-- A lane in service of the mode SERVICE, awake, whose gates are all open and have never been asked for. -/
def waitLane : Lane :=
  { Lane.init with
    boot := { Boot.init with inReset := false, alive := true }
    mode := { ModeState.init with armed := true, mode := 1 }
    clk := { Clk.init with gates := BitVec.allOnes 17 } }

/-- Lane A alone is out of reset. -/
def waitState : State := { State.reset with la := waitLane }

/-- A wake whose clock measures nothing. -/
def idleWake : WakeEnv := { count := 0, clock := { cals := [], rcCounts := [], xtal := [], locks := [], monitors := false } }

/-- Lane A may execute WAIT. -/
theorem waitState_waits : (waitState.lane .a).mayWait = true := by decide

/-- Refutes O51: the entry that AP3 unwinds has closed gates 1 to 11 and opens them again, and each request is shown in
GATE_REQ (R336), where the statement has the clock registers stand. -/
theorem not_powerModes : ¬ Obligations.PowerModes := by
  unfold Obligations.PowerModes
  intro modes
  obtain ⟨-, -, -, -, wait, -⟩ := modes waitState .a idleWake 0 3 .doze 0
  obtain ⟨t, step, clk⟩ := exec_wait_unwound_at_ap3 waitState_waits .doze
  have stands := Host.Outcome.next.inj (step.symm.trans (wait waitState_waits).2)
  have same : waitLane.clk.gateOff.gateOn = waitLane.clk := by
    rw [show waitLane = waitState.lane .a from rfl, ← clk, stands, State.setLane_lane_same]
  have shown : waitLane.clk.gGate = 10 := by rw [← same, Clk.gateOn_gGate]
  exact absurd shown (by decide)

end Sys2Proof.Machine
end

section
/-!
PROOFS. O37: ends of seat slices (spec/17_self_test.md R356 to R358; spec/09_agreement_and_vote.md R207, R210).
-/
namespace Sys2Proof.Machine

/-- A lane's record of a slice mismatch: counted with its seat and slice (R366). -/
structure Lane.CountsMismatch (l m : Lane) (x : SeatId) (k : Nat) : Prop where
  count : m.bist.mismatch = l.bist.mismatch + 1
  seat  : m.bist.seat = x.val
  slice : m.bist.slice = k
  mark  : m.codes.stsFault = l.codes.stsFault ||| 4

/-- What of a lane a seat slice leaves alone. -/
structure Lane.SliceKeeps (l m : Lane) : Prop where
  store : m.store = l.store
  cyc   : m.cyc = l.cyc
  vote  : m.vote = l.vote

theorem Lane.SliceKeeps.after {l m n : Lane} (h : m.SliceKeeps n) (i : l.SliceKeeps m) : l.SliceKeeps n :=
  ⟨h.store.trans i.store, h.cyc.trans i.cyc, h.vote.trans i.vote⟩

/-- A lane's count of mismatches begins where those of the lane before it ended. -/
theorem Lane.CountsMismatch.of_same {l m n : Lane} {x : SeatId} {k : Nat} (h : m.CountsMismatch n x k)
    (count : m.bist.mismatch = l.bist.mismatch) (codes : m.codes = l.codes) : l.CountsMismatch n x k :=
  ⟨by rw [h.count, count], h.seat, h.slice, by rw [h.mark, codes]⟩

/-- A mismatch is counted whatever becomes of the seat, and moves nothing outside the records of the self-test. -/
theorem Lane.sliceMismatch_counts (l : Lane) (x : SeatId) (k : Nat) (test : Bool) :
    l.CountsMismatch (l.sliceMismatch x k test) x k ∧ l.SliceKeeps (l.sliceMismatch x k test) := by
  unfold Lane.sliceMismatch
  dsimp only
  split
  · exact ⟨⟨rfl, rfl, rfl, rfl⟩, rfl, rfl, rfl⟩
  · exact ⟨⟨rfl, rfl, rfl, rfl⟩, rfl, rfl, rfl⟩

/-- The seat of a lane under test is retired, and the return is barred (R207). -/
theorem Lane.sliceMismatch_test (l : Lane) (x : SeatId) (k : Nat) :
    (l.sliceMismatch x k true).re.sliceBad = true ∧ ((l.sliceMismatch x k true).seat x).code = 5 := by
  refine ⟨rfl, ?_⟩
  show ((l.countMismatch x k).retireSeat x |>.seat x).code = 5
  rw [show ((l.countMismatch x k).retireSeat x).seat x =
    ((l.countMismatch x k).setSeat x (((l.countMismatch x k).seat x).idle 5)).seat x from rfl, Lane.setSeat_seat_same]
  rfl

/-- A seat of a lane under test that has yet to match the slice joins those that have (R207). -/
theorem Reentry.sliceDone_of_new {r : Reentry} {x : SeatId} (new : r.sliceSeats.contains x = false)
    (few : r.sliceSeats.length < 8) : r.sliceDone x = { r with sliceSeats := r.sliceSeats ++ [x] } := by
  have short : ¬(r.sliceSeats ++ [x]).length = 9 := by simp; omega
  simp only [Reentry.sliceDone, new, Bool.false_eq_true, if_false, if_neg short]

/-- In step 1 of a return a seat runs a slice that it has yet to match (R207). -/
theorem Lane.runsSlice_new {l : Lane} {y : LaneId} {x : SeatId} (runs : l.runsSlice y x = true) (test : l.underTest y = true) :
    l.re.sliceSeats.contains x = false := by
  simp only [Lane.runsSlice, Lane.givenSlice, test, if_true, Bool.and_eq_true, Bool.not_eq_true'] at runs
  obtain ⟨-, ⟨new, -⟩, -⟩ := runs
  exact new

/-- A lane whose seat has ended a slice: the durations, the count of incomplete slices and the engine (R355, R358, R366). -/
def Lane.sliceEnded (l : Lane) (x : SeatId) (us : Nat) (sig : BitVec 192) : Lane :=
  let k := l.noteSlice us
  k.setSeat x { k.seat x with incRun := 0, engine := (k.seat x).engine.finish sig }

/-- A lane whose seat has left a slice incomplete, `run` times in a row (R358, R366). -/
def Lane.sliceLeft (l : Lane) (x : SeatId) (run : Nat) : Lane :=
  let k : Lane := { l with
    bist := { l.bist with incompl := l.bist.incompl + 1 }
    rcd := { l.rcd with b := { l.rcd.b with sliceInc := l.rcd.b.sliceInc + 1 } } }
  k.setSeat x { k.seat x with incRun := run }

/-- The slice of a dummy is that of the rotation's phase (R356). -/
theorem Lane.sliceNum_of_serves {l : Lane} {y : LaneId} (h : l.underTest y = false) : l.sliceNum y = l.rot.phase := by
  simp [Lane.sliceNum, h]

/-- The slice of a lane under test is the one that its seats have yet to match (R207). -/
theorem Lane.sliceNum_of_test {l : Lane} {y : LaneId} (h : l.underTest y = true) : l.sliceNum y = l.re.slices := by
  simp [Lane.sliceNum, h]

section
variable {s : State} {l : LaneId} {x : SeatId} (runs : (s.lane l).runsSlice l x = true)
include runs

/-- A slice matches when the first compare is equal and the second is not (R357). -/
theorem exec_seatSliceComplete_match (us : Nat) :
    let k := (s.lane l).sliceEnded x us (Config.bistSignature ((s.lane l).sliceNum l))
    exec (.seatSliceComplete l x true false us) s = .next (
      if (s.lane l).underTest l then s.begin.endSlice l (s.lane l).re.slices { k with re := k.re.sliceDone x }
      else s.begin.setLane l (({ k with rot := { k.rot with met := true } } : Lane).putSlice false)) := by
  simp only [exec, execSeatSliceComplete, State.begin_lane, runs, Bool.not_true, Bool.false_eq_true, if_false, Bool.not_false,
    Bool.and_true, if_true]
  split <;> rfl

/-- A seat of a lane under test that matches its slice before the last of the others joins those that have (R207). -/
theorem exec_seatSliceComplete_joins (test : (s.lane l).underTest l = true) (few : (s.lane l).re.sliceSeats.length < 8) (us : Nat) :
    ∃ sig, exec (.seatSliceComplete l x true false us) s = .next (s.begin.setLane l { (s.lane l).sliceEnded x us sig with
      re := { (s.lane l).re with sliceSeats := (s.lane l).re.sliceSeats ++ [x] } }) := by
  have joins := Reentry.sliceDone_of_new (Lane.runsSlice_new runs test) few
  refine ⟨Config.bistSignature ((s.lane l).sliceNum l), (exec_seatSliceComplete_match runs us).trans (congrArg _ ?_)⟩
  rw [if_pos test, show (Lane.sliceEnded ..).re = (s.lane l).re from rfl, joins, State.endSlice, if_pos rfl]

/-- Any other outcome of the compares is a mismatch (R357). -/
theorem exec_seatSliceComplete_mismatch {first second : Bool} (h : first = false ∨ second = true) (us : Nat) :
    ∃ (sig : BitVec 192) (u : State), (∀ y, u.lane y = s.lane y) ∧ exec (.seatSliceComplete l x first second us) s =
      .next (u.setLane l (((s.lane l).sliceEnded x us sig).sliceMismatch x ((s.lane l).sliceNum l) ((s.lane l).underTest l))) := by
  have fails : (first && !second) = false := by rcases h with h | h <;> simp [h]
  simp only [exec, execSeatSliceComplete, State.begin_lane, runs, fails, Bool.not_true, Bool.false_eq_true, if_false]
  cases first
  · exact ⟨_, (s.begin.fresh 192).2, fun y => by simp, rfl⟩
  · exact ⟨_, s.begin, s.begin_lane, rfl⟩

/-- A slice that does not complete runs again, and the fourth in a row is a mismatch (R358). -/
theorem exec_seatSliceIncomplete : exec (.seatSliceIncomplete l x) s = .next (s.begin.setLane l (
    let m := s.lane l
    let run := (m.seat x).incRun
    if 3 ≤ run then (m.sliceLeft x 0).sliceMismatch x (m.sliceNum l) (m.underTest l)
    else if m.underTest l then m.sliceLeft x (run + 1) else (m.sliceLeft x (run + 1)).putSlice false)) := by
  simp only [exec, execSeatSliceIncomplete, State.begin_lane, runs, Bool.not_true, Bool.false_eq_true, if_false]
  by_cases h : 3 ≤ ((s.lane l).seat x).incRun
  · have four : 4 ≤ ((s.lane l).seat x).incRun + 1 := by omega
    simp only [if_pos h, if_pos four]
    rfl
  · have four : ¬4 ≤ ((s.lane l).seat x).incRun + 1 := by omega
    simp only [if_neg h, if_neg four]
    rfl

end

/-- A lane in service with one retired seat that runs untested for too long excludes itself until START (R210, R207). -/
theorem exec_untestedLimit {s : State} {l : LaneId} {img : Image} (image : (s.lane l).boot.img = some img)
    (sound : img.tableSound paramTable 0 = true)
    (live : (s.lane l).live = true) (armed : (s.lane l).mode.armed = true) (serves : (s.lane l).serves l = true)
    (retired : (s.lane l).retired = 1)
    (limit : untestedLimit img ≤ (s.lane l).re.untested) :
    exec (.untestedLimit l) s = .next (s.begin.setLane l { s.lane l with vote := { (s.lane l).vote with selfExcl := some 6 } }) := by
  show execUntestedLimit l s = _
  simp only [execUntestedLimit, State.begin_lane, image]
  rw [if_neg (by simp [live, armed, serves, retired]), Lane.useTables_of_sound _ sound,
    if_neg (show ¬(!true) = true from Bool.false_ne_true), if_pos limit]
  rfl

/-- Settles O37: a slice ends in a match, a mismatch or incomplete, and each end is one change of its lane. -/
theorem sliceOutcomes : Obligations.SliceOutcomes := by
  unfold Obligations.SliceOutcomes
  intro s l x first second us img m other failed
  have keeps {u : State} (same : ∀ y, u.lane y = s.lane y) {k : Lane} (h : m.SliceKeeps k) : other (u.setLane l k) := by
    refine ⟨keepsOthers_setLane same l k, ?_⟩
    rw [State.setLane_lane_same]
    exact ⟨h.store, h.cyc, h.vote⟩
  have counts (u : State) {k : Lane} {n : Nat} (h : m.CountsMismatch k x n) : failed (u.setLane l k) n := by
    simp only [failed, State.setLane_lane_same]
    exact ⟨h.count, h.seat, h.slice, h.mark⟩
  refine ⟨fun runs serves => ⟨?pass, ?fail, ?incomplete, ?fourth⟩, ?testPass, ?testFail, ?untested⟩
  case pass =>
    rintro rfl rfl
    refine ⟨_, exec_seatSliceComplete_match runs us, ?_⟩
    rw [if_neg (ne_true_of_eq_false serves)]
    refine ⟨keeps s.begin_lane ⟨rfl, rfl, rfl⟩, ?_⟩
    rw [State.setLane_lane_same]
    exact ⟨rfl, rfl, rfl, rfl, congrArg SeatState.incRun (Lane.setSeat_seat_same ..)⟩
  case fail =>
    intro bad
    obtain ⟨sig, u, same, step⟩ := exec_seatSliceComplete_mismatch runs bad us
    rw [serves, Lane.sliceNum_of_serves serves] at step
    obtain ⟨count, rest⟩ := ((s.lane l).sliceEnded x us sig).sliceMismatch_counts x m.rot.phase false
    refine ⟨_, step, keeps same (rest.after ⟨rfl, rfl, rfl⟩), counts u (count.of_same rfl rfl), ?_⟩
    rw [State.setLane_lane_same]
    rfl
  case incomplete =>
    intro few
    refine ⟨_, exec_seatSliceIncomplete runs, ?_⟩
    rw [if_neg (Nat.not_le.mpr few), if_neg (ne_true_of_eq_false serves)]
    refine ⟨keeps s.begin_lane ⟨rfl, rfl, rfl⟩, ?_⟩
    rw [State.setLane_lane_same]
    exact ⟨rfl, rfl, congrArg SeatState.incRun (Lane.setSeat_seat_same ..)⟩
  case fourth =>
    intro three
    have step := exec_seatSliceIncomplete runs
    rw [if_pos three, serves, Lane.sliceNum_of_serves serves] at step
    obtain ⟨count, rest⟩ := ((s.lane l).sliceLeft x 0).sliceMismatch_counts x m.rot.phase false
    refine ⟨_, step, keeps s.begin_lane (rest.after ⟨rfl, rfl, rfl⟩), counts s.begin (count.of_same rfl rfl), ?_⟩
    rw [State.setLane_lane_same]
    exact ⟨rfl, rfl, congrArg SeatState.incRun (Lane.setSeat_seat_same ..)⟩
  case testPass =>
    intro runs test few
    rintro rfl rfl
    obtain ⟨sig, step⟩ := exec_seatSliceComplete_joins runs test few us
    refine ⟨_, step, keeps s.begin_lane ⟨rfl, rfl, rfl⟩, ?_⟩
    rw [State.setLane_lane_same]
    exact ⟨rfl, rfl⟩
  case testFail =>
    intro runs test bad
    obtain ⟨sig, u, same, step⟩ := exec_seatSliceComplete_mismatch runs bad us
    rw [test, Lane.sliceNum_of_test test] at step
    obtain ⟨count, rest⟩ := ((s.lane l).sliceEnded x us sig).sliceMismatch_counts x m.re.slices true
    refine ⟨_, step, keeps same (rest.after ⟨rfl, rfl, rfl⟩), counts u (count.of_same rfl rfl), ?_⟩
    rw [State.setLane_lane_same]
    exact Lane.sliceMismatch_test ..
  case untested =>
    intro image sound live armed serves retired limit
    exact exec_untestedLimit image sound live armed serves retired limit

end Sys2Proof.Machine
end

section
/-!
PROOFS. O55: clocks in service (spec/15_clocks.md R327 to R337): what an event, a stop and a trip leave of a lane, and the three
kinds of meter channels.
-/
namespace Sys2Proof.Machine

/-! ## Events and stops -/

/-- A clock event recorded since a lane was as `l` (R338), with STS_FAULT.CLK (R387). -/
structure Lane.ClockEvent (l m : Lane) (kind : BitVec 4) : Prop where
  kind  : m.meter.evKind = kind
  count : m.meter.evCnt = l.meter.evCnt + 1
  mark  : m.codes.stsFault.getLsbD 3 = true

/-- An event is recorded as of a lane with the same count. -/
theorem Lane.ClockEvent.of_same {l m n : Lane} {kind : BitVec 4} (h : m.ClockEvent n kind) (count : m.meter.evCnt = l.meter.evCnt) :
    l.ClockEvent n kind :=
  ⟨h.kind, by rw [h.count, count], h.mark⟩

/-- A mark stands in STS_FAULT. -/
theorem Lane.mark_three (l : Lane) : (l.mark 3).codes.stsFault.getLsbD 3 = true := by
  show (l.codes.stsFault ||| 8#8).getLsbD 3 = true
  rw [BitVec.getLsbD_or]
  exact Bool.or_true _

/-- A drop adds to STS_FAULT and takes nothing from it (R44). -/
theorem Lane.dropCycle_stsFault {l : Lane} {b : Nat} (h : l.codes.stsFault.getLsbD b = true) (c p : BitVec 4) :
    (l.dropCycle c p).codes.stsFault.getLsbD b = true := by
  unfold Lane.dropCycle
  split
  · split
    · exact h
    · show (l.codes.stsFault ||| (1#8 <<< 5)).getLsbD b = true
      rw [BitVec.getLsbD_or, h, Bool.true_or]
  · exact h

theorem Lane.clockEvent_event (l : Lane) (kind : BitVec 4) (dom : Nat) : l.ClockEvent (l.clockEvent kind dom) kind :=
  ⟨rfl, rfl, Lane.mark_three _⟩

/-- A lane that its clocks have stopped (R333). -/
structure Lane.ClockStopped (l m : Lane) : Prop where
  dead     : m.boot.alive = false
  excludes : l.mode.armed = true → m.vote.selfExcl = some 6
  drops    : l.cyc.running = true → m.cyc.drop = some (l.cyc.drop.getD { cause := 1, phase := l.cyc.phase })

/-- What stopping a lane leaves alone. -/
structure Lane.StopKeeps (l m : Lane) : Prop where
  meter : m.meter = l.meter
  clk   : m.clk = l.clk
  store : m.store = l.store
  marks : ∀ b, l.codes.stsFault.getLsbD b = true → m.codes.stsFault.getLsbD b = true

theorem Lane.clockStop_stopped (l : Lane) : l.ClockStopped l.clockStop ∧ l.StopKeeps l.clockStop := by
  have drops (running : l.cyc.running = true) := Lane.dropCycle_drop l 1 l.cyc.phase running
  have marks (b : Nat) (h : l.codes.stsFault.getLsbD b = true) := Lane.dropCycle_stsFault h 1 l.cyc.phase
  unfold Lane.clockStop
  simp only [Lane.dropCycle_mode]
  cases armed : l.mode.armed
  · exact ⟨⟨rfl, fun h => absurd h (by simp [armed]), drops⟩, Lane.dropCycle_meter .., Lane.dropCycle_clk ..,
      Lane.dropCycle_store .., marks⟩
  · exact ⟨⟨rfl, fun _ => rfl, drops⟩, Lane.dropCycle_meter .., Lane.dropCycle_clk .., Lane.dropCycle_store .., marks⟩

/-- An event stands when the lane is then stopped. -/
theorem Lane.ClockEvent.stop {l m n : Lane} {kind : BitVec 4} (h : l.ClockEvent m kind) (i : m.StopKeeps n) : l.ClockEvent n kind :=
  ⟨by rw [i.meter, h.kind], by rw [i.meter, h.count], i.marks 3 h.mark⟩

/-- A lane is stopped as one of the same mode and cycle is. -/
theorem Lane.ClockStopped.of_same {l m n : Lane} (h : m.ClockStopped n) (mode : m.mode = l.mode) (cyc : m.cyc = l.cyc) :
    l.ClockStopped n :=
  ⟨h.dead, mode ▸ h.excludes, cyc ▸ h.drops⟩

/-! ## Trips -/

/-- A lane that has counted and recorded a trip (R333). -/
def Lane.tripped (l : Lane) (d : Fin 9) : Lane :=
  ({ l with clk := { l.clk with monTrip := true, trips := l.clk.trips + 1, tripDom := d.val } } : Lane).clockEvent 2 d.val

/-- A trip of domains 0 to 4 stops the lane (R333). -/
theorem Lane.trip_stops (l : Lane) {d : Fin 9} (h : d.val ≤ 4) : l.trip d = (l.tripped d).clockStop := if_pos h

/-- A trip of domains 5 to 8 puts a port down (R333). -/
theorem Lane.trip_port (l : Lane) {d : Fin 9} (h : ¬d.val ≤ 4) : l.trip d =
    { l.tripped d with meter := { (l.tripped d).meter with portDown := l.meter.portDown ||| (1#9 <<< d.val) } } := if_neg h

theorem Lane.tripped_event (l : Lane) (d : Fin 9) : l.ClockEvent (l.tripped d) 2 :=
  (Lane.clockEvent_event _ 2 d.val : Lane.ClockEvent _ (l.tripped d) 2).of_same rfl

/-! ## The meter -/

/-- The deviation of R335 is the nearest: twice its error is at most one unit. -/
theorem deviation_nearest (count : Nat) (up : Bool) :
    2 * (deviation count up * 83886080 - ((count : Int) - 83886080) * 10000000).natAbs ≤ 83886080 := by
  unfold deviation devNumerator
  dsimp only
  split
  · next h =>
    have half : 41943040 ≤ ((count : Int) - 83886080) * 10000000 % 83886080 := by
      simp only [Bool.or_eq_true, Bool.and_eq_true, decide_eq_true_eq] at h
      omega
    omega
  · next h =>
    have half : ((count : Int) - 83886080) * 10000000 % 83886080 ≤ 41943040 := by
      simp only [Bool.or_eq_true, decide_eq_true_eq] at h
      omega
    omega

/-- A count within its window (R334). -/
theorem meterWithin_iff (ch p count : Nat) : meterWithin ch p count = true ↔
    100 * (count - meterExpected ch) ≤ p * meterExpected ch ∧ 100 * (meterExpected ch - count) ≤ p * meterExpected ch := by
  unfold meterWithin
  dsimp only
  rw [decide_eq_true_iff]
  split <;> omega

/-- What the end of a gate leaves alone. -/
structure Lane.GateKeeps (l m : Lane) : Prop where
  counts : m.meter.counts = l.meter.counts
  store  : m.store = l.store
  cyc    : m.cyc = l.cyc

/-- The deviation of a neighbour, with its run above 2,000 and the event of a high one (R335). -/
structure Lane.NotesDeviation (l m : Lane) (v : Int) (dev : Meter → Option Int) (run : Meter → Nat) : Prop where
  dev  : dev m.meter = some v
  high : 2000 < v.natAbs → run m.meter = run l.meter + 1 ∧ l.ClockEvent m 4
  low  : v.natAbs ≤ 2000 → run m.meter = 0

/-- A deviation is noted for its neighbour, and a high one is an event (R335). -/
theorem Lane.noteDeviation_notes (l : Lane) (next : Bool) (v : Int) : l.GateKeeps (l.noteDeviation next v) ∧
    l.NotesDeviation (l.noteDeviation next v) v (fun t => if next then t.devNext else t.devPrev)
      (fun t => if next then t.runNext else t.runPrev) := by
  by_cases high : 2000 < v.natAbs
  · simp only [Lane.noteDeviation, high, if_true]
    cases next <;> exact ⟨⟨rfl, rfl, rfl⟩, rfl, fun _ => ⟨rfl, (Lane.clockEvent_event _ 4 4).of_same rfl⟩,
      fun h => absurd high (Nat.not_lt.mpr h)⟩
  · simp only [Lane.noteDeviation, high, if_false]
    cases next <;> exact ⟨⟨rfl, rfl, rfl⟩, rfl, fun h => absurd h high, fun _ => rfl⟩

/-- A converter's count within its window ends its run, and CONV stands while any run does (R334, R343). -/
theorem Lane.noteConverter_within {l : Lane} {k : Fin 3} {count : Nat} (within : meterWithin (k.val + 3) 10 count = true) :
    let m := l.noteConverter k count
    l.GateKeeps m ∧ m.vote = l.vote ∧ (∀ j : Fin 3, m.clk.convRun[j] = if j = k then 0 else l.clk.convRun[j]) ∧
      (m.clk.conv = true ↔ ∃ j : Fin 3, m.clk.convRun[j] ≠ 0) := by
  have ends : l.noteConverter k count = _ := if_pos within
  rw [ends]
  refine ⟨⟨rfl, rfl, rfl⟩, rfl, fun j => ?_, ?_⟩
  · simp only [Fin.getElem_fin, Vector.getElem_set, Fin.ext_iff, eq_comm]
  · simp only [List.any_eq_true, Vector.mem_toList_iff, Vector.mem_iff_getElem, bne_iff_ne]
    exact ⟨fun ⟨_, ⟨i, lt, rfl⟩, h⟩ => ⟨⟨i, lt⟩, h⟩, fun ⟨j, h⟩ => ⟨_, ⟨j.val, j.isLt, rfl⟩, h⟩⟩

/-- A converter's count outside its window is recorded, and the second in a row excludes an armed lane (R334, R343). -/
theorem Lane.noteConverter_outside {l : Lane} {k : Fin 3} {count : Nat} (outside : meterWithin (k.val + 3) 10 count = false) :
    let m := l.noteConverter k count
    l.GateKeeps m ∧ m.clk.conv = true ∧ l.ClockEvent m 5 ∧
      (l.mode.armed = true → 1 ≤ l.clk.convRun[k] → m.vote.selfExcl = some 6) := by
  have notes : l.noteConverter k count = _ := if_neg (ne_true_of_eq_false outside)
  rw [notes]
  split
  · dsimp only
    split
    · exact ⟨⟨rfl, rfl, rfl⟩, rfl, ⟨rfl, rfl, Lane.mark_three _⟩, fun _ _ => rfl⟩
    · next unarmed => exact ⟨⟨rfl, rfl, rfl⟩, rfl, ⟨rfl, rfl, Lane.mark_three _⟩, fun armed => absurd armed unarmed⟩
  · next first => exact ⟨⟨rfl, rfl, rfl⟩, rfl, ⟨rfl, rfl, Lane.mark_three _⟩, fun _ once => absurd (Nat.succ_le_succ once) first⟩

/-- A lane that has latched the count of a channel (R334). -/
def Lane.counted (l : Lane) (ch : Fin 6) (count : Nat) : Lane :=
  { l with meter := { l.meter with counts := l.meter.counts.set ch.val count } }

section
variable {l : Lane} {ch : Fin 6} {count : Nat} {void up : Bool} {dom : Nat}

/-- A link's count gives the deviation of its neighbour, unless it is void (R335). -/
theorem Lane.meterGate_link (h : ch.val ≤ 1) : l.meterGate ch count void up dom =
    if void then l.counted ch count else (l.counted ch count).noteDeviation (ch.val == 0) (deviation count up) := if_pos h

/-- The RC's count is recorded where it lies outside its window (R334). -/
theorem Lane.meterGate_rc (h : ch = 2) : l.meterGate ch count void up dom =
    if meterWithin 2 2 count then l.counted ch count else (l.counted ch count).clockEvent 7 dom := by
  subst h
  rfl

/-- The last three channels count the converters (R334). -/
theorem Lane.meterGate_converter {k : Fin 3} (h : k.val + 3 = ch.val) : l.meterGate ch count void up dom =
    (l.counted ch count).noteConverter k count := by
  obtain ⟨c, lt⟩ := ch
  obtain rfl : k.val + 3 = c := h
  match k with
  | 0 | 1 | 2 => rfl

/-- Every channel is a link's, the RC's or a converter's. -/
theorem meterChannel_cases (ch : Fin 6) : ch.val ≤ 1 ∨ ch = 2 ∨ ∃ k : Fin 3, k.val + 3 = ch.val := by
  revert ch
  decide

theorem Lane.meterGate_keeps : (l.counted ch count).GateKeeps (l.meterGate ch count void up dom) := by
  rcases meterChannel_cases ch with link | rc | ⟨k, conv⟩
  · rw [Lane.meterGate_link link]
    split
    · exact ⟨rfl, rfl, rfl⟩
    · exact (Lane.noteDeviation_notes ..).1
  · rw [Lane.meterGate_rc rc]
    split <;> exact ⟨rfl, rfl, rfl⟩
  · rw [Lane.meterGate_converter conv]
    cases within : meterWithin (k.val + 3) 10 count
    · exact (Lane.noteConverter_outside within).1
    · exact (Lane.noteConverter_within within).1

end

/-! ## The commands -/

/-- A crystal that fails makes the lane coast, with the event of the coast and, where it has stopped, that of the forced switch
(R330, R332). -/
def Lane.coasts (l : Lane) (c : CrystalFault) (dom : Nat) : Lane :=
  let k := ({ l with clk := l.clk.coasting (c == .lockLost) } : Lane).clockEvent 3 dom
  if c = .stopped then k.forceSwitch 2 else k

/-- A coast leaves the mode and the cycle, holds the dividers at 16, and is recorded (R327, R332, R338). -/
theorem Lane.coasts_fields (l : Lane) (c : CrystalFault) (dom : Nat) : let m := l.coasts c dom
    (m.mode = l.mode ∧ m.cyc = l.cyc) ∧
      (m.clk.coast = true ∧ m.clk.op = 5 ∧ m.clk.seatCur = 16 ∧ m.clk.supCur = 16) ∧
      (c ≠ .stopped → l.ClockEvent m 3 ∧ m.clk.forced = l.clk.forced) ∧
      (c = .stopped → m.clk.forced = true ∧ m.meter.evKind = 1 ∧ m.meter.evDom = 2 ∧ m.meter.evCnt = l.meter.evCnt + 2 ∧
        m.codes.stsFault.getLsbD 3 = true) ∧
      (c = .lockLost → m.clk.lock = false) ∧ (c ≠ .lockLost → m.clk.xtalOk = false) := by
  have mark (k : Lane) := k.mark_three
  have off (b : Bool) : (b && false) = false := Bool.and_false b
  cases c with
  | stopped =>
    exact ⟨⟨rfl, rfl⟩, ⟨rfl, rfl, rfl, rfl⟩, fun h => absurd rfl h, fun _ => ⟨rfl, rfl, rfl, rfl, mark _⟩, nofun, fun _ => off _⟩
  | offFrequency => exact ⟨⟨rfl, rfl⟩, ⟨rfl, rfl, rfl, rfl⟩, fun _ => ⟨⟨rfl, rfl, mark _⟩, rfl⟩, nofun, nofun, fun _ => off _⟩
  | lockLost =>
    exact ⟨⟨rfl, rfl⟩, ⟨rfl, rfl, rfl, rfl⟩, fun _ => ⟨⟨rfl, rfl, mark _⟩, rfl⟩, nofun, fun _ => off _, fun h => absurd rfl h⟩

section
variable {s : State} {l : LaneId}

theorem exec_crystalFail (clocked : (s.lane l).clocked = true) (c : CrystalFault) : ∃ (u : State) (dom : Nat), (∀ y, u.lane y = s.lane y) ∧
    exec (.crystalFail l c) s = .next (u.setLane l ((s.lane l).coasts c dom).clockStop) := by
  refine ⟨(s.begin.fresh 4).2, (s.begin.fresh 4).1.toNat, fun y => by simp, ?_⟩
  simp only [exec, execCrystalFail, State.begin_lane, clocked, Bool.not_true, Bool.false_eq_true, if_false, State.modLane,
    State.fresh_lane]
  rfl

theorem exec_meterGateEnd (clocked : (s.lane l).clocked = true) (ch : Fin 6) (count : Nat) (bad : Bool) :
    ∃ (u : State) (up : Bool) (dom : Nat), (∀ y, u.lane y = s.lane y) ∧ exec (.meterGateEnd l ch count bad) s =
      .next (u.setLane l ((s.lane l).meterGate ch count (bad || (s.lane l).pwr.mode == 3) up dom)) := by
  refine ⟨((s.begin.fresh 1).2.fresh 4).2, (s.begin.fresh 1).1 == 1, ((s.begin.fresh 1).2.fresh 4).1.toNat, fun y => by simp, ?_⟩
  simp only [exec, execMeterGateEnd, State.begin_lane, clocked, Bool.not_true, Bool.false_eq_true, if_false, State.modLane,
    State.fresh_lane]

end

/-- Settles O55: each command is one operation of its lane, and stops, events and gates by what they leave of it. -/
theorem clocksInService : Obligations.ClocksInService := by
  unfold Obligations.ClocksInService
  intro s l d src cal count bad fault ch m event stopped
  have put {f : Lane → Lane} {v : Lane} (h : f m = v) : (.next (s.begin.modLane l f) : Answer) = .next (s.begin.setLane l v) :=
    congrArg _ (State.modLane_of_value h)
  have stands {f : Lane → Lane} (h : f m = m) : (.next (s.begin.modLane l f) : Answer) = .next s.begin :=
    congrArg _ (State.modLane_of_eq h)
  have stops (u : State) {k : Lane} (h : m.ClockStopped k) : stopped (u.setLane l k) := by
    simp only [stopped, State.setLane_lane_same]
    exact ⟨h.dead, h.excludes, h.drops⟩
  have events (u : State) {k : Lane} {kind : BitVec 4} (h : m.ClockEvent k kind) : event (u.setLane l k) kind := by
    simp only [event, State.setLane_lane_same]
    exact ⟨h.kind, h.count, h.mark⟩
  refine ⟨fun clocked watched => ?trip, fun unwatched => ?noTrip, fun live low high near => ?taken, fun live outside => ?outside,
    fun clocked => ?crystal, fun acts => ?forced, fun held => ?held, fun acts coast => ?seat, fun acts coast => ?sup,
    fun clocked => ?gate⟩
  case trip =>
    refine ⟨_, put (if_pos (by simp [clocked, watched])), keepsOthers_setLane s.begin_lane l _, ?_⟩
    have tripped := m.tripped_event d
    by_cases low : d.val ≤ 4
    · obtain ⟨stop, keeps⟩ := (m.tripped d).clockStop_stopped
      rw [m.trip_stops low]
      refine ⟨events _ (tripped.stop keeps), ?_⟩
      rw [State.setLane_lane_same, keeps.meter, keeps.clk, keeps.store]
      exact ⟨rfl, rfl, rfl, rfl, fun _ => stops _ (stop.of_same rfl rfl), fun high => absurd low (by omega)⟩
    · rw [m.trip_port low]
      refine ⟨events _ ⟨tripped.kind, tripped.count, tripped.mark⟩, ?_⟩
      rw [State.setLane_lane_same]
      exact ⟨rfl, rfl, rfl, rfl, fun h => absurd h low, fun _ => ⟨rfl, rfl, rfl, rfl⟩⟩
  case noTrip => exact stands (if_neg (by rcases unwatched with h | h <;> simp [h]))
  case taken =>
    have holds : (!calOk cal || calMoved m.clk.cal cal) = false := by
      simp only [calOk, calMoved, low, high, decide_true, Bool.and_self, Bool.not_true, Bool.false_or, decide_eq_false_iff_not]
      split <;> omega
    exact put (by rw [live, holds]; rfl)
  case outside =>
    have fails : (!calOk cal || calMoved m.clk.cal cal) = true := by
      have bad : calOk cal = false := by
        simp only [calOk, Bool.and_eq_false_iff, decide_eq_false_iff_not]
        omega
      simp [bad]
    let k : Lane := { m with clk := { m.clk with cal := cal } }
    obtain ⟨stop, keeps⟩ := (k.tripped 1).clockStop_stopped
    refine ⟨_, put (v := (k.tripped 1).clockStop) (by rw [live, fails]; rfl), keepsOthers_setLane s.begin_lane l _,
      events _ (.stop (.of_same (k.tripped_event 1) rfl) keeps), ?_⟩
    rw [State.setLane_lane_same, keeps.clk]
    exact ⟨rfl, rfl, stops _ (stop.of_same rfl rfl)⟩
  case crystal =>
    obtain ⟨u, dom, same, step⟩ := exec_crystalFail clocked fault
    obtain ⟨stop, keeps⟩ := (m.coasts fault dom).clockStop_stopped
    obtain ⟨⟨mode, cyc⟩, ⟨coast, op, seat, sup⟩, runs, forced, lock, xtal⟩ := m.coasts_fields fault dom
    refine ⟨_, step, keepsOthers_setLane same l _, stops u (stop.of_same mode cyc), ?_⟩
    rw [State.setLane_lane_same, keeps.clk, keeps.meter]
    refine ⟨coast, op, seat, sup, fun h => ⟨events u ((runs h).1.stop keeps), (runs h).2⟩, fun h => ?_, lock, xtal⟩
    obtain ⟨isForced, kind, dom, count, mark⟩ := forced h
    exact ⟨isForced, kind, dom, count, keeps.marks 3 mark⟩
  case forced =>
    refine ⟨_, put (if_pos acts), keepsOthers_setLane s.begin_lane l _,
      events _ ((Lane.clockEvent_event _ 1 src.val).of_same rfl), ?_⟩
    rw [State.setLane_lane_same]
    exact ⟨rfl, rfl, rfl⟩
  case held => exact stands (if_pos (by rcases held with h | h <;> simp [h]))
  case seat =>
    refine put ?_
    simp [acts, coast, dividerNext, BitVec.ult]
  case sup =>
    refine put ?_
    simp [acts, coast, dividerNext, BitVec.ult]
  case gate =>
    obtain ⟨u, up, dom, same, step⟩ := exec_meterGateEnd clocked ch count bad
    obtain ⟨counts, store, cyc⟩ :=
      Lane.meterGate_keeps (l := m) (ch := ch) (count := count) (void := bad || m.pwr.mode == 3) (up := up) (dom := dom)
    have deviates (link : ch.val ≤ 1) (isGood : bad = false) (awake : m.pwr.mode ≠ 3) :
        m.meterGate ch count (bad || m.pwr.mode == 3) up dom = (m.counted ch count).noteDeviation (ch.val == 0) (deviation count up) := by
      have valid : (bad || m.pwr.mode == 3) = false := by rw [isGood, Bool.false_or, beq_eq_false_iff_ne.mpr awake]
      rw [Lane.meterGate_link link, valid, if_neg Bool.false_ne_true]
    have nearest := deviation_nearest count up
    refine ⟨_, step, keepsOthers_setLane same l _, ?_⟩
    rw [State.setLane_lane_same]
    refine ⟨counts, store, cyc, fun link void => ?void, fun next isGood awake => ?next, fun prev isGood awake => ?prev,
      fun rc low high => ?rc, fun rc outside => ?rcEvent, fun conv low high => ?within, fun conv outside => ?outside⟩
    case void =>
      have isVoid : (bad || m.pwr.mode == 3) = true := by simpa using void
      rw [Lane.meterGate_link link, if_pos isVoid]
      rfl
    case next =>
      obtain ⟨dev, high, low⟩ := ((m.counted ch count).noteDeviation_notes true (deviation count up)).2
      rw [deviates (by simp [next]) isGood awake, show (ch.val == 0) = true by rw [next]; rfl]
      exact ⟨_, dev, nearest, fun h => ⟨(high h).1, events u (.of_same (high h).2 rfl)⟩, low⟩
    case prev =>
      obtain ⟨dev, high, low⟩ := ((m.counted ch count).noteDeviation_notes false (deviation count up)).2
      rw [deviates (by simp [prev]) isGood awake, show (ch.val == 0) = false by rw [prev]; rfl]
      exact ⟨_, dev, nearest, fun h => ⟨(high h).1, events u (.of_same (high h).2 rfl)⟩, low⟩
    case rc =>
      rw [Lane.meterGate_rc rc, if_pos ((meterWithin_iff 2 2 count).mpr ⟨low, high⟩)]
      rfl
    case rcEvent =>
      have fails : meterWithin 2 2 count ≠ true := by
        rw [Ne, meterWithin_iff]
        exact fun h => outside.elim (Nat.not_lt.mpr h.1) (Nat.not_lt.mpr h.2)
      rw [Lane.meterGate_rc rc, if_neg fails]
      exact events u (.of_same (Lane.clockEvent_event _ 7 dom) rfl)
    case within =>
      obtain ⟨k, is⟩ : ∃ k : Fin 3, k.val + 3 = ch.val := ⟨⟨ch.val - 3, by omega⟩, by simp; omega⟩
      rw [← is] at low high
      obtain ⟨-, vote, runs, any⟩ := (Lane.noteConverter_within (l := m.counted ch count)
        ((meterWithin_iff (k.val + 3) 10 count).mpr ⟨low, high⟩))
      rw [Lane.meterGate_converter is]
      refine ⟨fun j => ?_, any, vote⟩
      have named : j = k ↔ j.val + 3 = ch.val := by rw [← is, Fin.ext_iff, Nat.add_right_cancel_iff]
      rw [runs j]
      simp only [named]
      rfl
    case outside =>
      obtain ⟨k, is⟩ : ∃ k : Fin 3, k.val + 3 = ch.val := ⟨⟨ch.val - 3, by omega⟩, by simp; omega⟩
      rw [← is] at outside
      have fails : meterWithin (k.val + 3) 10 count = false := by
        rw [← Bool.not_eq_true, meterWithin_iff]
        exact fun h => outside.elim (Nat.not_lt.mpr h.1) (Nat.not_lt.mpr h.2)
      obtain ⟨-, conv, event, excludes⟩ := Lane.noteConverter_outside (l := m.counted ch count) fails
      rw [Lane.meterGate_converter is]
      refine ⟨conv, events u (event.of_same rfl), fun armed once => excludes armed ?_⟩
      rw [← is, Nat.add_sub_cancel, List.getD_eq_getElem _ _ (by simp), Vector.getElem_toList] at once
      exact once

end Sys2Proof.Machine
end

section
/-!
PROOFS. O17: REG_WRITE lane by lane (spec/19_register_space.md R379, R383; spec/14_keys_and_trust.md R321).
-/
namespace Sys2Proof.Machine

/-! ## Sessions written back -/

/-- What is found once a session is written back is what was found before, or the session (R383). -/
theorem State.setSession_session (s : State) (k : Session) (n : Nat) :
    (s.setSession k).session n = (s.session n).map fun j => if j.id = k.id then k else j := by
  have sameId (j : Session) : ((if j.id = k.id then k else j).id == n) = (j.id == n) := by
    split
    · next h => rw [h]
    · rfl
  simp only [State.session, State.setSession, List.find?_map, Function.comp_def, sameId]

theorem State.setSession_session_same {s : State} {j k : Session} (found : s.session k.id = some j) :
    (s.setSession k).session k.id = some k := by
  rw [State.setSession_session, found, Option.map_some, if_pos (State.session_id found)]

theorem State.setSession_session_other (s : State) {n : Nat} {k : Session} (other : n ≠ k.id) :
    (s.setSession k).session n = s.session n := by
  rw [State.setSession_session]
  cases found : s.session n with
  | none => rfl
  | some j => rw [Option.map_some, if_neg (State.session_id found ▸ other)]

@[simp] theorem State.setSession_lane (s : State) (k : Session) (x : LaneId) : (s.setSession k).lane x = s.lane x := by
  cases x <;> rfl

/-! ## A write in one lane -/

/-- What a write makes of a lane that acts: its status, the lane and the session's selectors there (R321, R383). -/
def Lane.regWrite (l : Lane) (armed : Bool) (z : Sels) (addr : Nat) (value : Word) : Byte × Lane × Sels :=
  if addr = 0x2824 then ((l.writeTap armed value).1, (l.writeTap armed value).2, z)
  else match z.write addr value with
    | some t => (0, l, t)
    | none => match l.writeW1c addr value 0 with
      | some m => (0, m, z)
      | none => (4, l, z)

/-- What of a lane a write leaves alone: its transmit lanes, mode and start. -/
structure Lane.WriteKeeps (l m : Lane) : Prop where
  tx   : m.tx = l.tx
  mode : m.mode = l.mode
  boot : m.boot = l.boot

theorem Lane.WriteKeeps.refl (l : Lane) : l.WriteKeeps l := ⟨rfl, rfl, rfl⟩

theorem Lane.writeW1c_keeps {l m : Lane} {addr : Nat} {value hold : Word} (h : l.writeW1c addr value hold = some m) :
    l.WriteKeeps m := by
  unfold Lane.writeW1c at h
  dsimp only at h
  split_ifs at h
  all_goals exact Option.some.inj h ▸ ⟨rfl, rfl, rfl⟩

theorem Lane.regWrite_keeps (l : Lane) (armed : Bool) (z : Sels) (addr : Nat) (value : Word) :
    l.WriteKeeps (l.regWrite armed z addr value).2.1 := by
  unfold Lane.regWrite
  split
  · rw [Lane.writeTap_snd]
    split <;> exact ⟨rfl, rfl, rfl⟩
  · split
    · exact .refl l
    · split
      · next written => exact Lane.writeW1c_keeps written
      · exact .refl l

/-! ## The lanes in order -/

section
variable (s : State) (k : Session) (sel : LaneSel) (addr : Nat) (value : Word)

/-- What the write makes of lane `x` of the module: one that does not act reports 0x0E and stays as it is (R383, R385). -/
def State.regWritten (x : LaneId) : Byte × Lane × Sels :=
  if sel.lanes.has x && s.heeds k x then (s.lane x).regWrite s.countsArmed (k.sels.get x) addr value
  else (0x0E, s.lane x, k.sels.get x)

theorem State.regWritten_keeps (x : LaneId) : (s.lane x).WriteKeeps (s.regWritten k sel addr value x).2.1 := by
  unfold State.regWritten
  split
  · exact Lane.regWrite_keeps ..
  · exact .refl _

/-- The module once the write has come to the lanes `xs`, with the statuses reported so far. -/
structure State.WriteRun (xs : List LaneId) (statuses : List Byte) (t : State) (q : PerLane Sels) : Prop where
  statuses : statuses = (xs.filter fun x => sel.lanes.has x).map fun x => (s.regWritten k sel addr value x).1
  rest     : t = { s with la := t.la, lb := t.lb, lc := t.lc, sessions := t.sessions }
  lanes    : ∀ x, t.lane x = if x ∈ xs then (s.regWritten k sel addr value x).2.1 else s.lane x
  session  : t.session k.id = some { k with sels := q }
  sels     : ∀ x, q.get x = if x ∈ xs then (s.regWritten k sel addr value x).2.2 else k.sels.get x
  others   : ∀ n, n ≠ k.id → t.session n = s.session n

variable {s k sel addr value}

/-- The module counts as armed as before (R9, R383). -/
theorem State.WriteRun.countsArmed {xs : List LaneId} {b : List Byte} {t : State} {q : PerLane Sels}
    (run : s.WriteRun k sel addr value xs b t q) : t.countsArmed = s.countsArmed := by
  have mode (x : LaneId) : (t.lane x).mode = (s.lane x).mode := by
    rw [run.lanes]
    split
    · exact (s.regWritten_keeps k sel addr value x).mode
    · rfl
  simp only [State.countsArmed, mode]

/-- `u` is `t` with lane `x` and the selectors of session `k` there as given, and nothing else changed. -/
structure State.PutsAt (t u : State) (k : Session) (x : LaneId) (m : Lane) (z : Sels) : Prop where
  rest    : u = { t with la := u.la, lb := u.lb, lc := u.lc, sessions := u.sessions }
  lanes   : ∀ y, u.lane y = if y = x then m else t.lane y
  session : ∃ q, u.session k.id = some { k with sels := q } ∧ ∀ y, q.get y = if y = x then z else k.sels.get y
  others  : ∀ n, n ≠ k.id → u.session n = t.session n

theorem State.PutsAt.setLane {t : State} {k : Session} (found : t.session k.id = some k) (x : LaneId) (m : Lane) :
    t.PutsAt (t.setLane x m) k x m (k.sels.get x) where
  rest := by cases x <;> rfl
  lanes y := State.setLane_lane ..
  session := ⟨k.sels, by rw [State.session, State.setLane_sessions]; exact found, fun y => by split <;> simp [*]⟩
  others n _ := by rw [State.session, State.setLane_sessions]; rfl

theorem State.PutsAt.setSels {t : State} {k : Session} (found : t.session k.id = some k) (x : LaneId) (z : Sels) :
    t.PutsAt (t.setSession { k with sels := k.sels.put x z }) k x (t.lane x) z where
  rest := rfl
  lanes y := by rw [State.setSession_lane]; split <;> simp [*]
  session := ⟨_, State.setSession_session_same (k := { k with sels := k.sels.put x z }) found, fun y => PerLane.get_put ..⟩
  others n h := State.setSession_session_other t h

/-- A lane that does not act reports 0x0E and changes nothing (R383, R385). -/
theorem State.writeLane_idle {t : State} {k : Session} {x : LaneId} (found : t.session k.id = some k)
    (idle : t.heeds k x = false) (addr : Nat) (value : Word) : t.writeLane k.id x addr value = (0x0E, t) := by
  simp [State.writeLane, found, idle]

/-- A lane that acts takes the write, or its session the selectors (R383). -/
theorem State.writeLane_acts {t : State} {k : Session} {x : LaneId} (found : t.session k.id = some k)
    (acts : t.heeds k x = true) (addr : Nat) (value : Word) :
    let r := t.writeLane k.id x addr value
    let w := (t.lane x).regWrite t.countsArmed (k.sels.get x) addr value
    r.1 = w.1 ∧ t.PutsAt r.2 k x w.2.1 w.2.2 := by
  have same : t.PutsAt t k x (t.lane x) (k.sels.get x) := by simpa using State.PutsAt.setLane found x (t.lane x)
  simp only [State.writeLane, found, acts, Bool.not_true, Bool.false_eq_true, if_false, Lane.regWrite]
  split
  · exact ⟨rfl, .setLane found ..⟩
  · cases (k.sels.get x).write addr value with
    | some z => exact ⟨rfl, .setSels found ..⟩
    | none =>
      cases (t.lane x).writeW1c addr value 0 with
      | some m => exact ⟨rfl, .setLane found ..⟩
      | none => exact ⟨rfl, same⟩

/-- What lane `x` makes of the write joins what the lanes before it made. -/
theorem State.WriteRun.puts {xs : List LaneId} {b : List Byte} {t u : State} {q : PerLane Sels} {x : LaneId}
    (run : s.WriteRun k sel addr value xs b t q)
    (puts : t.PutsAt u { k with sels := q } x (s.regWritten k sel addr value x).2.1 (s.regWritten k sel addr value x).2.2) :
    ∃ q, s.WriteRun k sel addr value (xs ++ [x])
      (b ++ if sel.lanes.has x then [(s.regWritten k sel addr value x).1] else []) u q := by
  obtain ⟨q', session, sels⟩ := puts.session
  refine ⟨q', ?_, ?_, fun y => ?_, session, fun y => ?_, fun n other => (puts.others n other).trans (run.others n other)⟩
  · rw [run.statuses, List.filter_append, List.map_append]
    cases named : sel.lanes.has x <;> simp [named]
  · rw [puts.rest, run.rest]
  · rw [puts.lanes, run.lanes]
    by_cases e : y = x <;> simp [e]
  · rw [sels, run.sels]
    by_cases e : y = x <;> simp [e]

/-- Lane `x` takes the write after the lanes before it. -/
theorem State.WriteRun.step {xs : List LaneId} {b : List Byte} {t : State} {q : PerLane Sels} {x : LaneId}
    (run : s.WriteRun k sel addr value xs b t q) (new : x ∉ xs) :
    ∃ q, let r := State.writeStep k.id sel addr value (b, t) x
      s.WriteRun k sel addr value (xs ++ [x]) r.1 r.2 q := by
  have here : t.lane x = s.lane x := by rw [run.lanes, if_neg new]
  have sels : q.get x = k.sels.get x := by rw [run.sels, if_neg new]
  have heeds : t.heeds { k with sels := q } x = s.heeds k x := by rw [State.heeds, State.heeds, here]
  have found : t.session k.id = some { k with sels := q } := run.session
  have stands : t.PutsAt t { k with sels := q } x (s.lane x) (k.sels.get x) := by
    have self := State.PutsAt.setLane (k := { k with sels := q }) found x (t.lane x)
    rwa [State.setLane_self, here, show ({ k with sels := q } : Session).sels.get x = _ from sels] at self
  cases named : sel.lanes.has x with
  | false =>
    have puts := run.puts (x := x) (by rw [State.regWritten, named]; exact stands)
    simpa [State.writeStep, named] using puts
  | true =>
    simp only [State.writeStep, named, if_true]
    cases acts : s.heeds k x with
    | false =>
      have puts := run.puts (x := x) (by rw [State.regWritten, acts, Bool.and_false]; exact stands)
      rw [show t.writeLane k.id x addr value = _ from State.writeLane_idle (k := { k with sels := q }) found (heeds.trans acts) ..]
      simpa [State.regWritten, named, acts] using puts
    | true =>
      obtain ⟨status, wrote⟩ := State.writeLane_acts (k := { k with sels := q }) found (heeds.trans acts) addr value
      have written : (t.lane x).regWrite t.countsArmed (q.get x) addr value = s.regWritten k sel addr value x := by
        rw [State.regWritten, named, acts, here, sels, run.countsArmed]
        rfl
      rw [written] at status wrote
      rw [show (t.writeLane k.id x addr value).1 = _ from status]
      simpa [named] using run.puts wrote

/-- The write comes to the three lanes in order (R379). -/
theorem State.WriteRun.all (found : s.session k.id = some k) :
    ∃ q, let r := laneList.foldl (State.writeStep k.id sel addr value) ([], s)
      s.WriteRun k sel addr value laneList r.1 r.2 q := by
  have start : s.WriteRun k sel addr value [] [] s k.sels := ⟨rfl, rfl, fun _ => rfl, found, fun _ => rfl, fun _ _ => rfl⟩
  obtain ⟨_, a⟩ := start.step (x := .a) (by decide)
  obtain ⟨_, b⟩ := a.step (x := .b) (by decide)
  exact b.step (x := .c) (by decide)

/-- The response lane is that of before the write (R18, R381). -/
theorem State.WriteRun.respLane {xs : List LaneId} {b : List Byte} {t : State} {q : PerLane Sels}
    (run : s.WriteRun k sel addr value xs b t q) (j : Session) : t.respLane j = s.respLane j :=
  State.respLane_congr (fun x => by
    rw [run.lanes]
    split
    · obtain ⟨tx, mode, boot⟩ := s.regWritten_keeps k sel addr value x
      exact ⟨tx, mode, boot⟩
    · exact ⟨rfl, rfl, rfl⟩) j

end

/-- A REG_WRITE that is not refused as a whole comes to each lane and is answered (R277, R383). -/
theorem exec_regWrite {s : State} {k : Session} {y : LaneId} {sel : LaneSel} {addr : Word} (found : s.session k.id = some k)
    (resp : s.respLane k = some y) (passes : writeRefusal k sel addr.toNat = none) (req value : Word) :
    ∃ t b q, s.begin.WriteRun k sel addr.toNat value laneList b t q ∧
      exec (.regWrite k.id req sel addr value) s = .next (t.reply k.id req 2 0 b) := by
  obtain ⟨q, run⟩ := State.WriteRun.all (s := s.begin) (sel := sel) (addr := addr.toNat) (value := value) found
  refine ⟨_, _, q, run, ?_⟩
  show Host.Outcome.next (s.begin.serve k.id _) = _
  rw [State.serve_session (show s.begin.session k.id = some k from found)]
  simp only [passes]
  rw [State.respond_eq ((run.respLane k).trans (((State.SameRoutes.of_begin s).respLane k).symm.trans resp))]

/-- Settles O17: each lane in turn makes of the write what `Lane.regWrite` says, and the statuses are answered together. -/
theorem registerWrites : Obligations.RegisterWrites := by
  unfold Obligations.RegisterWrites
  intro s sess req sel addr value k y found general resp z view selected aligned isMapped
  obtain rfl := State.session_id found
  have passes : writeRefusal k sel addr.toNat = none := by
    have among : addr.toNat ∈ mapped := by simpa using isMapped
    simp [writeRefusal, Session.general, general, z, view, selected, aligned, among]
  obtain ⟨t, b, q, run, step⟩ := exec_regWrite found resp passes req value
  have every (x : LaneId) : x ∈ laneList := mem_laneList x
  refine ⟨t, fun x => (s.begin.regWritten k sel addr.toNat value x).1, q, ?_, run.rest, run.session, run.others, fun x => ?_⟩
  · rw [step, run.statuses]
  have lane := run.lanes x
  have sels := run.sels x
  rw [if_pos (every x)] at lane sels
  dsimp only
  rw [lane, sels]
  cases acts : sel.lanes.has x && ((s.lane x).acts && k.lanes.has x) with
  | false =>
    have idle : s.begin.regWritten k sel addr.toNat value x = (0x0E, s.lane x, k.sels.get x) := by
      rw [State.regWritten, State.heeds, State.begin_lane, acts]
      rfl
    rw [idle]
    exact ⟨fun _ _ => rfl, fun _ => ⟨rfl, rfl⟩, nofun⟩
  | true =>
    have takes : s.begin.regWritten k sel addr.toNat value x =
        (s.lane x).regWrite s.countsArmed (k.sels.get x) addr.toNat value := by
      rw [State.regWritten, State.heeds, State.begin_lane, acts]
      rfl
    rw [takes]
    refine ⟨nofun, nofun, fun _ => ⟨?tap, ?stn, ?nb, ?frc, ?meter, ?slot, ?other⟩⟩
    case tap =>
      rintro rfl
      refine ⟨rfl, fun armed => ?_, fun unarmed => ?_⟩
      · rw [armed]
        exact ⟨rfl, rfl⟩
      · rw [unarmed]
        exact ⟨rfl, rfl⟩
    case other =>
      intro other
      simp only [List.mem_cons, List.not_mem_nil, or_false, not_or] at other
      obtain ⟨tap, stn, nb, frc, meter, slot⟩ := other
      have stand : (k.sels.get x).write addr.toNat value = none := by simp [Sels.write, stn, nb, frc, meter, slot]
      rw [Lane.regWrite, if_neg tap, stand]
      cases (s.lane x).writeW1c addr.toNat value 0 with
      | some m => exact ⟨rfl, rfl, rfl⟩
      | none => exact ⟨rfl, rfl, rfl⟩
    all_goals
      rintro rfl
      exact ⟨rfl, rfl, rfl⟩

end Sys2Proof.Machine
end

section
/-!
PROOFS. O26: module-scope commands as they settle (spec/13_modes_and_forcing.md R288, R290; spec/11_partner_and_failover.md R250,
R256 to R258; spec/14_keys_and_trust.md R315).
-/
namespace Sys2Proof.Machine

/-! ## Mode changes -/

section
variable {s : State} {x : LaneId} {img : Image} {c : ModCmd}

/-- A mode change that is not refused takes effect (R288). -/
theorem State.applyModule_mode (op : c.op = 7) (takes : (s.lane x).modeCode img (byteAt c.params 0) = none) :
    s.applyModule x img c = (s.changeMode x (byteAt c.params 0) false, Verdict.ok) := by
  simp only [State.applyModule, if_pos op, takes]

/-- A lane that is not dormant takes a mode other than START at once, with a record flag (R288, R377). -/
theorem State.changeMode_awake {target : Byte} (other : target ≠ 0) (awake : (s.lane x).mode.mode ≠ 3) :
    s.changeMode x target false = s.setLane x (({ s.lane x with
      mode := { (s.lane x).mode with mode := target.setWidth 3 } } : Lane).recordFlag 2) := by
  rw [State.changeMode, if_neg other]
  exact if_neg awake

/-- A change out of DORMANT orders the wake (R250). -/
theorem State.changeMode_dormant {target : Byte} (other : target ≠ 0) (dormant : (s.lane x).mode.mode = 3) :
    s.changeMode x target false = s.setLane x { s.lane x with pwr := { (s.lane x).pwr with wakeDue := true } } := by
  rw [State.changeMode, if_neg other]
  exact if_pos dormant

/-- SERVICE goes to MAINTENANCE at any time (R288). -/
theorem Lane.modeCode_maintenance {l : Lane} (mode : l.mode.mode = 1) : l.modeCode img 4 = none := by
  simp [Lane.modeCode, mode]

/-- MAINTENANCE goes back to SERVICE unless a permissive force stands (R288, R295). -/
theorem Lane.modeCode_service {l : Lane} (mode : l.mode.mode = 4) :
    l.modeCode img 1 = if l.permissive img then some 0x12 else none := by
  simp [Lane.modeCode, mode]

/-- A standby goes to DORMANT (R250, R288). -/
theorem Lane.modeCode_dormant {l : Lane} (mode : l.mode.mode = 1) (role : l.ptn.role = 1 ∨ l.ptn.role = 2) :
    l.modeCode img 3 = none := by
  rcases role with role | role <;> simp [Lane.modeCode, mode, role]

/-- DORMANT goes back to SERVICE (R250, R288). -/
theorem Lane.modeCode_wake {l : Lane} (mode : l.mode.mode = 3) : l.modeCode img 1 = none := by
  simp [Lane.modeCode, mode]

/-! ## Re-keys and handovers -/

/-- A re-key of a station whose last generation is in force is accepted (R172, R315). -/
theorem Lane.rekeyCode_none {l : Lane} {p : Nat} {g : GenRec} (station : p < img.stations.length) (gen : l.gen p = some g)
    (settled : g.pend = none) (room : g.cur.toNat < 2 ^ 32 - 1) : l.rekeyCode img p = none := by
  have more : g.cur ≠ 0xFFFFFFFF#32 := fun e => by rw [e] at room; exact absurd room (by decide)
  simp [Lane.rekeyCode, Nat.not_le.mpr station, gen, settled, more]

/-- A handover to a ready candidate is accepted where no force stands and no takeover is recent (R256, R258). -/
theorem Lane.handoverCode_none {l : Lane} {h : Heartbeat} (last : l.ptn.last = some h) (candidate : l.ptn.prole = 4)
    (matched : 256 ≤ l.ptn.bmatch) (unforced : l.forced l.cyc.num = false) (lanes : lanesOf h.lanes = 3)
    (paths : l.ptn.path1 = true ∧ l.ptn.path2 = true) (idle : l.fail.ho = .idle)
    (old : ∀ k, l.fail.tookAt = some k → k.toNat + 256 < l.cyc.num.toNat) (carry mirrored enough : Bool) :
    l.handoverCode carry mirrored enough = none := by
  obtain ⟨path1, path2⟩ := paths
  have far : ¬ l.ptn.bmatch < 256 := Nat.not_lt.mpr matched
  simp only [Lane.handoverCode, last, candidate, unforced, lanes, path1, path2, idle, if_neg far, Option.map_some,
    Option.getD_some, Option.isNone_some, bne_self_eq_false, Bool.or_false, Bool.false_and, Bool.and_self, Bool.not_true,
    Bool.false_eq_true, if_false, Nat.reduceLT, Nat.reduceEqDiff, decide_false]
  cases took : l.fail.tookAt with
  | none => rfl
  | some t => exact if_neg (by simpa using old t took)

/-- A re-key by its code (R172, R315). -/
theorem State.applyModule_rekey {g : GenRec} (op : c.op = 6) (gen : (s.lane x).gen (beAt c.params 0 2) = some g)
    (takes : (s.lane x).rekeyCode img (beAt c.params 0 2) = none) :
    s.applyModule x img c = (s.setLane x { s.lane x with nv := { (s.lane x).nv with
      gens := Mem.set none (s.lane x).nv.gens (beAt c.params 0 2) (some { g with pend := some (g.cur + 1) }) } }, Verdict.ok) := by
  rw [State.applyModule, if_neg (by rw [op]; decide), if_neg (by rw [op]; decide), if_pos op]
  simp only [takes, Lane.rekey, gen]

/-- A handover that nothing refuses is announced, and takes two settled values from the model's counter (R256). -/
theorem State.applyModule_handover (op : c.op = 5)
    (takes : ∀ mirrored enough, (s.lane x).handoverCode (byteAt c.params 0 = 1) mirrored enough = none) :
    s.applyModule x img c = (((s.fresh 1).2.fresh 1).2.setLane x ((s.lane x).announce (byteAt c.params 0 = 1)), Verdict.ok) := by
  rw [State.applyModule, if_neg (by rw [op]; decide), if_pos op]
  simp only [takes]

/-- Settled values taken before a lane is put change the counter alone. -/
theorem State.fresh_fresh_setLane (l : Lane) : ((s.fresh 1).2.fresh 1).2.setLane x l =
    { s.setLane x l with freeCtr := (((s.fresh 1).2.fresh 1).2.setLane x l).freeCtr } := by
  cases x <;> rfl

end

/-- Settles O26: a mode change by the code of `Lane.modeCode`, a re-key and a handover by theirs. -/
theorem moduleCommandsSettle : Obligations.ModuleCommandsSettle := by
  unfold Obligations.ModuleCommandsSettle
  intro s x img c g h l
  refine ⟨?maintenance, ?service, ?refused, ?dormant, ?wake, ?rekey, ?handover⟩
  case maintenance =>
    intro op target mode
    rw [State.applyModule_mode op (by rw [target, Lane.modeCode_maintenance mode]), target,
      State.changeMode_awake (by decide) (by rw [mode]; decide)]
    rfl
  case service =>
    intro op target mode none_
    rw [State.applyModule_mode op (by rw [target, Lane.modeCode_service mode, if_neg (ne_true_of_eq_false none_)]), target,
      State.changeMode_awake (by decide) (by rw [mode]; decide)]
    rfl
  case refused =>
    intro op target mode some_
    have refused : (s.lane x).modeCode img (byteAt c.params 0) = some 0x12 := by rw [target, Lane.modeCode_service mode, if_pos some_]
    simp only [State.applyModule, if_pos op, refused]
    rfl
  case dormant =>
    intro op target mode role
    rw [State.applyModule_mode op (by rw [target, Lane.modeCode_dormant mode role]), target,
      State.changeMode_awake (by decide) (by rw [mode]; decide)]
    rfl
  case wake =>
    intro op target mode
    rw [State.applyModule_mode op (by rw [target, Lane.modeCode_wake mode]), target, State.changeMode_dormant (by decide) mode]
  case rekey =>
    intro op station gen settled room
    exact State.applyModule_rekey op gen (Lane.rekeyCode_none station gen settled room)
  case handover =>
    intro op last candidate matched unforced lanes path1 path2 idle old
    refine ⟨_, State.applyModule_handover op
      (Lane.handoverCode_none last candidate matched unforced lanes ⟨path1, path2⟩ idle old _), ?_, ?_⟩
    · rw [State.setLane_lane_same]
      rfl
    · rw [State.setLane_lane_same]
      exact State.fresh_fresh_setLane _

end Sys2Proof.Machine
end

section
/-!
PROOFS. The provisioning object in the lanes that act (spec/14_keys_and_trust.md R312, R319), and O31: peer packages and a failed
random generator (R301, R316 to R318).
-/
namespace Sys2Proof.Machine

/-! ## A sub-object that every lane takes -/

section
variable {s t : State} {k : Session} {sub : Byte} {f : Session → Lane → LaneId → ProvRes} {g : LaneId → Lane → Lane}
  {body : LaneId → List Byte}

/-- Nothing settles in a lane as it answers: its boundaries run, or nothing waits for one (R312 to R314, R318). -/
def Lane.rests (l : Lane) : Prop := l.hasBoundaries = true ∨ l.nothingWaits

/-- What waits for a boundary changes nothing in a lane that rests (log entry 31). -/
theorem State.provSettle_rests {x : LaneId} (rests : (t.lane x).rests) : t.provSettle x = t := by
  rw [State.provSettle]
  split
  · rfl
  next stands =>
    have nothing : (t.lane x).nothingWaits := rests.resolve_left stands
    obtain ⟨closeAll, recheck, pendWs, pendUse⟩ := id nothing
    rw [State.settleSecurity_quiet closeAll recheck, State.modLane]
    have same : (t.lane x).settleTrust = t.lane x := by
      rw [Lane.settleTrust, pendWs, pendUse]
      exact Lane.waitsForNothing_of_nothingWaits nothing
    rw [same, State.setLane_self]

/-- A sub-object that each lane that acts takes with a change of its own and an answer, and after which it rests. -/
structure ProvTakes (s : State) (k : Session) (f : Session → Lane → LaneId → ProvRes) (g : LaneId → Lane → Lane)
    (body : LaneId → List Byte) : Prop where
  takes : ∀ x m, (obeying s k allLanes).has x = true → Lane.Sent (s.lane x) m → f k m x = .ok (g x m, body x)
  rests : ∀ x m, (obeying s k allLanes).has x = true → Lane.Sent (s.lane x) m → (g x m).rests
  stands : ∀ x m, (g x m).standing = m.standing
  ring : ∀ x (m : Lane) q, g x { m with ring := { m.ring with seq := q } } =
    { g x m with ring := { (g x m).ring with seq := (g x { m with ring := { m.ring with seq := q } }).ring.seq } }

/-- Such a lane changes and answers, and nothing else settles. -/
theorem ProvTakes.provLane (h : ProvTakes s k f g body) {x : LaneId} (acts : (obeying s k allLanes).has x = true)
    (lane : Lane.Sent (s.lane x) (t.lane x)) (req : Word) (sub : Byte) :
    t.provLane k req sub (f k) x = (t.modLane x (g x)).answerWith x k req 0x0A 0 (body x) := by
  have sent := (OnlySends.answerWith (t.modLane x (g x)) x k req 0x0A 0 (body x)).lanes x
  rw [State.modLane_lane_same] at sent
  have rests : (((t.modLane x (g x)).answerWith x k req 0x0A 0 (body x)).lane x).rests := by
    rw [sent]
    exact h.rests x _ acts lane
  rw [State.provLane, h.takes x _ acts lane]
  exact State.provSettle_rests rests

/-- The lanes that act change one after the other. -/
theorem ProvTakes.answers (h : ProvTakes s k f g body) (req : Word) (sub : Byte) :
    Answers s k allLanes (fun t x => t.provLane k req sub (f k) x) g where
  sends t x acts lane := by
    rw [h.provLane acts lane]
    exact .answerWith ..
  stands := h.stands
  ring := h.ring

/-- A sub-object that the session may use reaches the lanes that act (R277, R312). -/
theorem State.prov_permitted {sess : Nat} (session : s.session sess = some k) (maint : k.maint = true)
    (permitted : k.comm = false ∨ commissioning sub = true) (req : Word) :
    s.prov sess req sub f = s.inLanes k allLanes fun t x => t.provLane k req sub (f k) x := by
  rw [State.prov, State.serve_session session]
  rcases permitted with comm | may
  · simp [maint, comm]
  · simp [maint, may]

/-- A sub-object that every lane that acts takes changes those lanes alone, and the response lane answers (R277, R312). -/
theorem ProvTakes.prov (h : ProvTakes s k f g body) {sess : Nat} (session : s.session sess = some k) (maint : k.maint = true)
    (permitted : k.comm = false ∨ commissioning sub = true) (req : Word) :
    OnlySends (s.begin.modLanes (obeying s k allLanes) g) (s.begin.prov sess req sub f) ∧
      ∀ y, s.respLane k = some y → (obeying s k allLanes).has y = true →
        .shp sess req 0x0A 0 (body y) ∈ (s.begin.prov sess req sub f).out := by
  obtain rfl := State.session_id session
  have begun : ProvTakes s.begin k f g body :=
    ⟨fun x m acts lane => h.takes x m (by simpa using acts) (by simpa using lane),
      fun x m acts lane => h.rests x m (by simpa using acts) (by simpa using lane), h.stands, h.ring⟩
  have taken := begun.answers req sub
  have sends := taken.onlySends
  rw [obeying_begin] at sends
  rw [State.prov_permitted (show s.begin.session k.id = some k from session) maint permitted]
  refine ⟨sends, fun y resp acts => taken.mem (x := y) (by simpa using acts) fun t same lane => ?_⟩
  rw [begun.provLane (by simpa using acts) lane]
  have changed : t.SameRoutes (t.modLane y (g y)) := .modLane t y (h.stands y _)
  have resp' : s.begin.respLane k = some y := ((State.SameRoutes.of_begin s).respLane k).symm.trans resp
  exact State.answerWith_mem (((same.trans changed).respLane k).trans resp') req 0x0A 0 (body y)

end

/-! ## Peer packages -/

section
variable {l : Lane} {pkg : List Byte} {chain : List Cert} {img : Image} {c : BitVec 384} {keys : PerLane (BitVec 256)}

/-- The keys that stand beside those of a package: of another slot, purpose or generation (R318). -/
def Nv.otherPeers (n : Nv) (slot kind : Byte) (g : Word) : List PeerKey :=
  n.peers.filter fun q => !(q.slot == slot && q.purpose == kind && q.gen == g)

/-- The lane with the keys of a package, which replace those of its slot, purpose and generation (R318). -/
def Lane.imports (l : Lane) (pkg : List Byte) (keys : PerLane (BitVec 256)) : Lane :=
  { l with nv := { l.nv with peers := l.nv.otherPeers (byteAt pkg 6) (byteAt pkg 0x1C) (ofBytes 32 (slice pkg 0x20 4)) ++
    [{ slot := byteAt pkg 6, purpose := byteAt pkg 0x1C, gen := ofBytes 32 (slice pkg 0x20 4), keys := keys }] } }

/-- Where a sender has at most one other generation for a purpose, none gives way (R303). -/
theorem makeRoom_of_few {ks : List PeerKey} {slot purpose : Byte}
    (few : (ks.countP fun q => q.slot == slot && q.purpose == purpose) < 2) : makeRoom ks slot purpose = ks := by
  rw [List.countP_eq_length_filter] at few
  exact if_pos few

/-- A package whose checks pass, whose keys unwrap and for which there is room is taken (R303, R318). -/
theorem Lane.importIn_ok (form : peerForm pkg = true) (image : l.boot.img = some img) (secret : l.nv.secret = some c)
    (ok : l.peerOk img pkg chain = true) (opens : ∀ z, packageOpen (identitySeed c) pkg z = some (keys.get z))
    (few : ((l.nv.otherPeers (byteAt pkg 6) (byteAt pkg 0x1C) (ofBytes 32 (slice pkg 0x20 4))).countP
      fun q => q.slot == byteAt pkg 6 && q.purpose == byteAt pkg 0x1C) < 2)
    (room : (((l.nv.otherPeers (byteAt pkg 6) (byteAt pkg 0x1C) (ofBytes 32 (slice pkg 0x20 4))).map (·.slot)).filter
      (· != byteAt pkg 6)).eraseDups.length < 32) : l.importIn pkg chain = .ok (l.imports pkg keys, []) := by
  have full := Nat.not_le.mpr room
  simp only [Nv.otherPeers] at few full
  simp only [Lane.importIn, form, image, secret, ok, opens, Bool.not_true, Bool.false_eq_true, if_false, if_neg full,
    makeRoom_of_few few, Lane.imports, Nv.otherPeers]
  rfl

/-- An exported generation is taken for use at the boundary (R318). -/
theorem Lane.useIn_ok {purpose : Byte} {area gen : Word} (exported : (purpose, area, gen) ∈ l.nv.exported) :
    l.useIn purpose area gen = .ok ({ l with sec := { l.sec with pendUse := l.sec.pendUse ++ [(purpose, area, gen)] } }, []) := by
  simp [Lane.useIn, exported]

end

/-- Settles O31: an import and a use are sub-objects that every lane that acts takes. -/
theorem peerKeys : Obligations.PeerKeys := by
  unfold Obligations.PeerKeys
  intro s sess req k pkg chain purpose area gen keys l session maint general v slot kind g others
  refine ⟨fun form ready => ?imports, fun ready => ?use, rfl⟩
  case imports =>
    have takes : ProvTakes s k (fun _ l _ => l.importIn pkg chain) (fun x l => l.imports pkg (keys x)) fun _ => [] :=
      { takes x m acts lane := by
          obtain ⟨-, img, c, image, secret, ok, opens, few, room⟩ := ready x acts
          rw [lane]
          exact Lane.importIn_ok form image secret ok opens few room
        rests x m acts lane := by
          rw [lane]
          exact .inr (ready x acts).1
        stands _ _ := rfl
        ring _ _ _ := rfl }
    exact ⟨_, rfl, (takes.prov session maint (.inl general) req).1⟩
  case use =>
    have takes : ProvTakes s k (fun _ l _ => l.useIn purpose area gen)
        (fun _ l => { l with sec := { l.sec with pendUse := l.sec.pendUse ++ [(purpose, area, gen)] } }) fun _ => [] :=
      { takes x m acts lane := by
          rw [lane]
          exact Lane.useIn_ok (ready x acts).2
        rests x m acts lane := by
          rw [lane]
          exact .inl (ready x acts).1
        stands _ _ := rfl
        ring _ _ _ := rfl }
    exact ⟨_, rfl, (takes.prov session maint (.inl general) req).1⟩

end Sys2Proof.Machine
end

section
/-!
PROOFS. O28: claims, certificates, anchors and revocations (spec/14_keys_and_trust.md R307, R308, R311 to R313, R319).
-/
namespace Sys2Proof.Machine

/-! ## The records in a lane -/

section
variable {l : Lane} {k : Session}

/-- The conditions of a CLAIM: an unarmed lane in START, and the token of the claim plug or a record under the claim (R308). -/
structure Lane.AcceptsClaim (l : Lane) (k : Session) (b : ClaimBody) : Prop where
  unarmed : l.mode.armed = false
  start : l.mode.mode = 0
  first : b.later = none → l.nv.claims = [] ∧ k.ownJ10 = true
  later : ∀ pub sig, b.later = some (pub, sig) → l.nv.claims.length < 4 ∧ l.nv.claim = some (sha384 pub) ∧
    ecdsaVerify pub (claimBytes l.nv.claims.length b.hash) sig = true

/-- Such a claim is burnt (R308). -/
theorem Lane.AcceptsClaim.claimIn {b : ClaimBody} (h : l.AcceptsClaim k b) :
    l.claimIn k b = .ok ({ l with nv := { l.nv with claims := l.nv.claims ++ [b.hash] } }, []) := by
  have open_ : ¬(l.mode.armed || l.mode.mode != 0) = true := by simp [h.unarmed, h.start]
  rw [Lane.claimIn, if_neg open_]
  cases later : b.later with
  | none =>
    obtain ⟨unclaimed, own⟩ := h.first later
    simp [unclaimed, own]
  | some r =>
    obtain ⟨few, claim, verified⟩ := h.later r.1 r.2 later
    have held : ¬(l.nv.claim != some (sha384 r.1) || 4 ≤ l.nv.claims.length) = true := by
      simp [claim, Nat.not_le.mpr few]
    simp only [if_neg held, verified, if_true]

/-- A lane's identity key answers a request for it (R307). -/
theorem Lane.csrIn_ok {c : BitVec 384} (secret : l.nv.secret = some c) :
    l.csrIn = .ok (l, Config.csrBytes (identitySeed c) midText) := by
  rw [Lane.csrIn, secret]

/-- A signature by the claimed authority passes (R308). -/
theorem Lane.signed_of_signedBy {record sig : List Byte} (h : l.signedBy record sig) : l.signed record sig = true := by
  obtain ⟨claimed, verified⟩ := h
  simp [Lane.signed, Nv.claimSigned, claimed, verified]

/-- The conditions of an ANCHOR record: 1 to 4 certificates, the claimed signature and a number above a held one (R313). -/
structure Lane.AcceptsAnchor (l : Lane) (r : AnchorRec) : Prop where
  some_ : 1 ≤ r.certs.length
  few : r.certs.length ≤ 4
  signed : l.signedBy (Config.anchorBytes r.seq r.certs) r.sig
  above : l.nv.anchors ≠ [] → l.nv.anchSeq.toNat < r.seq.toNat

/-- The lane with new anchors and their number, whose sessions are to be looked at again (R312, R313). -/
def Lane.anchored (l : Lane) (r : AnchorRec) : Lane :=
  { l with
    nv := { l.nv with anchors := r.certs, anchSeq := r.seq }
    sec := { l.sec with closeAll := l.sec.closeAll || l.nv.anchors.isEmpty, recheck := true } }

/-- Such anchors are taken (R313). -/
theorem Lane.AcceptsAnchor.anchorIn {r : AnchorRec} (h : l.AcceptsAnchor r) : l.anchorIn r = .ok (l.anchored r, []) := by
  have form : (r.certs.isEmpty || 4 < r.certs.length) = false := by
    have held : r.certs ≠ [] := List.ne_nil_of_length_pos h.some_
    simp [held, h.few]
  have fresh : (!l.nv.anchors.isEmpty && r.seq.toNat ≤ l.nv.anchSeq.toNat) = false := by
    cases held : l.nv.anchors with
    | nil => rfl
    | cons c cs => simpa using h.above (by simp [held])
  simp only [Lane.anchorIn, form, Lane.signed_of_signedBy h.signed, fresh, Bool.not_true, Bool.not_not, Bool.false_eq_true, if_false]
  rfl

/-- The conditions of a REVOKE record: its form, the claimed signature and a number above a held one (R313). -/
structure Lane.AcceptsRevoke (l : Lane) (r : RevokeRec) : Prop where
  few : r.entries.length ≤ 1024
  short : ∀ e ∈ r.entries, e.2.length ≤ 20
  signed : l.signedBy (Config.revokeBytes r.seq r.entries) r.sig
  above : ∀ q, l.nv.revSeq = some q → q.toNat < r.seq.toNat

/-- The lane with a new revocation list and its number, whose sessions are to be looked at again (R313). -/
def Lane.revoked (l : Lane) (r : RevokeRec) : Lane :=
  { l with nv := { l.nv with revoked := r.entries, revSeq := some r.seq }, sec := { l.sec with recheck := true } }

/-- Such a list is taken (R313). -/
theorem Lane.AcceptsRevoke.revokeIn {r : RevokeRec} (h : l.AcceptsRevoke r) : l.revokeIn r = .ok (l.revoked r, []) := by
  have form : (decide (1024 < r.entries.length) || r.entries.any fun e => decide (20 < e.2.length)) = false := by
    simpa [h.few] using fun a b he => h.short (a, b) he
  have above : aboveHeld l.nv.revSeq r.seq = true := by
    cases held : l.nv.revSeq with
    | none => rfl
    | some q => simpa [aboveHeld] using h.above q held
  simp only [Lane.revokeIn, form, Lane.signed_of_signedBy h.signed, above, Bool.not_true, Bool.false_eq_true, if_false]
  rfl

end

/-! ## Anchors that replace others at once -/

/-- A lane whose prepared commands and ring numbers alone may have changed, as when a session closes (R275). -/
def Lane.HostAlone (l m : Lane) : Prop := m = { l with host := m.host, ring := m.ring }

namespace Lane.HostAlone

theorem refl (l : Lane) : HostAlone l l := rfl

theorem trans {l m n : Lane} (h : HostAlone l m) (i : HostAlone m n) : HostAlone l n := by
  unfold HostAlone at h i ⊢
  rw [i, h]

theorem of_sent {l m : Lane} (h : Lane.Sent l m) : HostAlone l m := by
  unfold HostAlone
  rw [h]

theorem nv {l m : Lane} (h : HostAlone l m) : m.nv = l.nv := by rw [h]

end Lane.HostAlone

/-- Where prepared commands and ring numbers alone changed, the same lanes act on a session. -/
theorem State.obeys_of_hostAlone {s t : State} {x : LaneId} (h : Lane.HostAlone (s.lane x) (t.lane x)) (k : Session) :
    t.obeys k x = s.obeys k x := by
  simp only [State.obeys]
  rw [h]
  rfl

/-- What a lane of a fold over lanes comes to: as it was, where it does not act, and else what it made of itself. -/
structure Settled (s : State) (k : Session) (f : State → LaneId → State) (x : LaneId) (u : State) : Prop where
  idle : (obeying s k allLanes).has x = false → Lane.HostAlone (s.lane x) (u.lane x)
  acts : (obeying s k allLanes).has x = true →
    ∃ t, Lane.HostAlone (s.lane x) (t.lane x) ∧ Lane.HostAlone ((f t x).lane x) (u.lane x)

/-- The lanes that act change one after the other, where each leaves the prepared commands of the others alone changed. -/
theorem State.inLanes_settled {s : State} {k : Session} {f : State → LaneId → State}
    (others : ∀ t x y, y ≠ x → Lane.HostAlone (t.lane y) ((f t x).lane y)) (x : LaneId) :
    Settled s k f x (s.inLanes k allLanes f) := by
  have run (ys : List LaneId) (distinct : ys.Nodup) (t : State) (fresh : ∀ y ∈ ys, Lane.HostAlone (s.lane y) (t.lane y)) :
      let u := ys.foldl (fun t x => if allLanes.has x && t.obeys k x then f t x else t) t
      (∀ y ∉ ys, Lane.HostAlone (t.lane y) (u.lane y)) ∧ ∀ y ∈ ys, Settled s k f y u := by
    induction ys generalizing t with
    | nil => exact ⟨fun _ _ => .refl _, fun _ hy => absurd hy List.not_mem_nil⟩
    | cons y ys ih =>
      obtain ⟨new, distinct⟩ := List.nodup_cons.mp distinct
      have met := fresh y List.mem_cons_self
      have acts : (allLanes.has y && t.obeys k y) = (obeying s k allLanes).has y := by
        rw [obeying_has, State.obeys_of_hostAlone met]
      rw [List.foldl_cons, acts]
      have step (z : LaneId) (hz : z ≠ y) :
          Lane.HostAlone (t.lane z) ((if (obeying s k allLanes).has y = true then f t y else t).lane z) := by
        split
        · exact others t y z hz
        · exact .refl _
      obtain ⟨kept, later⟩ := ih distinct _ fun z hz =>
        (fresh z (List.mem_cons_of_mem _ hz)).trans (step z fun e => new (e ▸ hz))
      refine ⟨fun z hz => ?_, fun z hz => ?_⟩
      · rw [List.mem_cons, not_or] at hz
        exact (step z hz.1).trans (kept z hz.2)
      · rcases List.mem_cons.mp hz with rfl | hz
        · have own := kept z new
          refine ⟨fun idle => ?_, fun acts => ⟨t, met, ?_⟩⟩
          · simp only [idle, Bool.false_eq_true, if_false] at own ⊢
            exact met.trans own
          · simpa only [acts, if_true] using own
        · exact later z hz
  exact (run laneList (by decide) s fun y _ => .refl _).2 x (mem_laneList x)

/-- A session that a lane leaves takes prepared commands along in every lane, and nothing else of them (R275). -/
theorem State.leaveSession_hostAlone (t : State) (x : LaneId) (id : Nat) (y : LaneId) :
    Lane.HostAlone (t.lane y) ((t.leaveSession x id).lane y) := by
  unfold State.leaveSession
  split
  · exact .refl _
  next k _ =>
    dsimp only
    split
    · have sends := Lane.HostAlone.of_sent ((t.closeSession_sends id).lanes y)
      exact .trans (by cases y <;> rfl) sends
    · rw [State.setSession_lane]
      exact .refl _

/-- The sessions that new anchors close leave the lanes so too (R312). -/
theorem State.closeDue_hostAlone (t : State) (x y : LaneId) : Lane.HostAlone (t.lane y) ((t.closeDue x).lane y) := by
  unfold State.closeDue
  dsimp only
  split
  · exact .refl _
  · exact List.foldlRecOn _ _ (motive := fun u : State => Lane.HostAlone (t.lane y) (u.lane y)) (.refl _)
      fun u h k _ => h.trans (u.leaveSession_hostAlone x k.id y)

/-- A lane with the anchors of another, their number and the numbers seen of its workstations. -/
def Lane.SameRecords (l m : Lane) : Prop :=
  m.nv.anchors = l.nv.anchors ∧ m.nv.anchSeq = l.nv.anchSeq ∧ m.nv.wsSeq = l.nv.wsSeq

/-- What waits for a boundary changes no such record (R314, R318). -/
theorem Lane.settleTrust_sameRecords (l : Lane) : l.SameRecords l.settleTrust := by
  have ws : l.SameRecords (l.sec.pendWs.foldl Lane.applyWs l) := by
    refine List.foldlRecOn _ _ (motive := l.SameRecords) ⟨rfl, rfl, rfl⟩ fun m h r _ => ?_
    unfold Lane.applyWs
    dsimp only
    repeat' split
    all_goals exact h
  exact List.foldlRecOn _ _ (motive := l.SameRecords) ws fun m h r _ => h

section
variable {t : State} {x y : LaneId}

/-- What settles in a lane as it answers leaves the stores of the others (R312 to R314, R318). -/
theorem State.provSettle_others (other : y ≠ x) : Lane.HostAlone (t.lane y) ((t.provSettle x).lane y) := by
  unfold State.provSettle
  split
  · exact .refl _
  · rw [State.settleSecurity, State.modLane_lane_other _ _ other]
    exact t.closeDue_hostAlone x y

/-- What settles in a lane as it answers leaves its records (R312 to R314, R318). -/
theorem State.provSettle_sameRecords : (t.lane x).SameRecords ((t.provSettle x).lane x) := by
  unfold State.provSettle
  split
  · exact ⟨rfl, rfl, rfl⟩
  · rw [State.settleSecurity, State.modLane_lane_same]
    have settled := ((t.closeDue x).lane x).settleTrust_sameRecords
    rwa [Lane.SameRecords, (t.closeDue_hostAlone x x).nv] at settled

/-- A sub-object in one lane leaves the stores of the others. -/
theorem State.provLane_others (other : y ≠ x) (k : Session) (req : Word) (sub : Byte) (f : Lane → LaneId → ProvRes) :
    Lane.HostAlone (t.lane y) ((t.provLane k req sub f x).lane y) := by
  have sends {u : State} (same : u.lane y = t.lane y) (status : Byte) (body : List Byte) :
      Lane.HostAlone (t.lane y) ((u.answerWith x k req 0x0A status body).lane y) := by
    rw [← same]
    exact .of_sent ((OnlySends.answerWith u x k req 0x0A status body).lanes y)
  unfold State.provLane
  split
  · unfold State.provRefuse
    split
    · exact sends (State.modLane_lane_other _ _ other) ..
    · exact sends rfl ..
  · exact (sends (State.setLane_lane_other _ _ other) ..).trans (State.provSettle_others other)

/-- A lane that takes a sub-object holds its records, whatever settles with them (R312 to R314). -/
theorem State.provLane_sameRecords {f : Lane → LaneId → ProvRes} {m : Lane} {body : List Byte}
    (takes : f (t.lane x) x = .ok (m, body)) (k : Session) (req : Word) (sub : Byte) :
    m.SameRecords ((t.provLane k req sub f x).lane x) := by
  rw [State.provLane, takes]
  have sent := (OnlySends.answerWith (t.setLane x m) x k req 0x0A 0 body).lanes x
  rw [State.setLane_lane_same] at sent
  have settled := State.provSettle_sameRecords (t := (t.setLane x m).answerWith x k req 0x0A 0 body) (x := x)
  rwa [sent] at settled

end

/-- Where no boundary runs, each lane that acts takes the anchors as it is asked, and the others keep their stores (R312, R313;
log entry 31). -/
theorem exec_anchor_atOnce {s : State} {sess : Nat} {k : Session} {ra : AnchorRec} (session : s.session sess = some k)
    (maint : k.maint = true) (ready : ∀ x, (obeying s k allLanes).has x = true → (s.lane x).AcceptsAnchor ra) (req : Word) :
    ∃ t, exec (.anchor sess req ra) s = .next t ∧
      (∀ x, (obeying s k allLanes).has x = true → (t.lane x).nv.anchors = ra.certs ∧ (t.lane x).nv.anchSeq = ra.seq) ∧
      (∀ x, (obeying s k allLanes).has x = false → (t.lane x).nv = (s.lane x).nv) := by
  have each := State.inLanes_settled (s := s.begin) (k := k) (f := fun t x => t.provLane k req 4 (fun l _ => l.anchorIn ra) x)
    fun t x y other => State.provLane_others other ..
  have run : exec (.anchor sess req ra) s =
      .next (s.begin.inLanes k allLanes fun t x => t.provLane k req 4 (fun l _ => l.anchorIn ra) x) :=
    congrArg _ (State.prov_permitted (show s.begin.session sess = some k from session) maint (.inr rfl) req)
  refine ⟨_, run, fun x acts => ?_, fun x idle => ?_⟩
  · obtain ⟨t, met, left⟩ := (each x).acts (by simpa using acts)
    rw [State.begin_lane] at met
    have accepts : (t.lane x).AcceptsAnchor ra := by
      rw [met]
      obtain ⟨some_, few, signed, above⟩ := ready x acts
      exact ⟨some_, few, signed, above⟩
    obtain ⟨anchors, number, -⟩ := State.provLane_sameRecords (t := t) (f := fun l _ => l.anchorIn ra) accepts.anchorIn k req 4
    rw [left.nv]
    exact ⟨anchors, number⟩
  · simpa using ((each x).idle (by simpa using idle)).nv

/-- Lanes that stay as they are make no change. -/
theorem State.modLanes_same (s : State) (v : LaneSet) : (s.modLanes v fun _ l => l) = s := by
  simp only [State.modLanes, ite_self]

/-- Settles O28: each sub-command is one that every lane that acts takes; anchors outside boundaries are followed lane by lane. -/
theorem provisioning : Obligations.Provisioning := by
  unfold Obligations.Provisioning
  refine ⟨?inEach, fun s sess req k ra session maint ready => exec_anchor_atOnce session maint (fun x acts =>
    have ⟨_, some_, few, signed, above⟩ := ready x acts
    ⟨some_, few, signed, above⟩) req⟩
  intro s sess req k b chain ra rv secret session maint v gives
  refine ⟨?claim, ?csr, ?cert, ?anchor, ?revoke⟩
  case claim =>
    intro ready
    have takes : ProvTakes s k (fun k l _ => l.claimIn k b)
        (fun _ l => { l with nv := { l.nv with claims := l.nv.claims ++ [b.hash] } }) fun _ => [] :=
      { takes x m acts lane := by
          obtain ⟨-, unarmed, start, proof⟩ := ready x acts
          rw [lane]
          refine Lane.AcceptsClaim.claimIn ⟨unarmed, start, fun first => ?_, fun pub sig later => ?_⟩
          · simpa only [first] using proof
          · simpa only [later, claimBytes] using proof
        rests x m acts lane := by
          rw [lane]
          exact .inr (ready x acts).1
        stands _ _ := rfl
        ring _ _ _ := rfl }
    exact ⟨_, rfl, takes.prov session maint (.inr rfl) req⟩
  case csr =>
    intro ready
    have takes : ProvTakes s k (fun _ l _ => l.csrIn) (fun _ l => l)
        fun x => Config.csrBytes (identitySeed (secret x)) midText :=
      { takes x m acts lane := Lane.csrIn_ok (by rw [lane]; exact (ready x acts).2)
        rests x m acts lane := by
          rw [lane]
          exact .inr (ready x acts).1
        stands _ _ := rfl
        ring _ _ _ := rfl }
    have taken := takes.prov (sub := 2) session maint (.inr rfl) req
    rw [State.modLanes_same] at taken
    exact ⟨_, rfl, taken⟩
  case cert =>
    intro ready
    have takes : ProvTakes s k
        (fun _ l _ => if l.nv.ownChain chain then .ok ({ l with nv := { l.nv with chain := chain } }, []) else .error 0x37)
        (fun _ l => { l with nv := { l.nv with chain := chain } }) fun _ => [] :=
      { takes x m acts lane := by
          rw [lane]
          exact if_pos (ready x acts).2
        rests x m acts lane := by
          rw [lane]
          exact .inr (ready x acts).1
        stands _ _ := rfl
        ring _ _ _ := rfl }
    exact ⟨_, rfl, takes.prov session maint (.inr rfl) req⟩
  case anchor =>
    intro ready
    have takes : ProvTakes s k (fun _ l _ => l.anchorIn ra) (fun _ l => l.anchored ra) fun _ => [] :=
      { takes x m acts lane := by
          obtain ⟨-, some_, few, signed, above⟩ := ready x acts
          rw [lane]
          exact Lane.AcceptsAnchor.anchorIn ⟨some_, few, signed, above⟩
        rests x m acts lane := by
          rw [lane]
          exact .inl (ready x acts).1
        stands _ _ := rfl
        ring _ _ _ := rfl }
    exact ⟨_, rfl, takes.prov session maint (.inr rfl) req⟩
  case revoke =>
    intro general ready
    have takes : ProvTakes s k (fun _ l _ => l.revokeIn rv) (fun _ l => l.revoked rv) fun _ => [] :=
      { takes x m acts lane := by
          obtain ⟨-, few, short, signed, above⟩ := ready x acts
          rw [lane]
          exact Lane.AcceptsRevoke.revokeIn ⟨few, short, signed, above⟩
        rests x m acts lane := by
          rw [lane]
          exact .inl (ready x acts).1
        stands _ _ := rfl
        ring _ _ _ := rfl }
    exact ⟨_, rfl, takes.prov session maint (.inl general) req⟩

end Sys2Proof.Machine
end

section
/-!
PROOFS. O32: START at release of reset and START repeated (spec/15_clocks.md R325, R326; spec/17_self_test.md R362;
spec/07_data_key.md R134, R150, R151, R154; spec/19_register_space.md R384).
-/
namespace Sys2Proof.Machine

/-! ## What lanes say -/

/-- `t` is `u` after items have left and nothing else has happened. -/
def State.Says (u t : State) : Prop := t = { u with out := t.out }

namespace State.Says

variable {s t u : State}

theorem refl (s : State) : Says s s := rfl

theorem trans (h : Says s t) (i : Says t u) : Says s u := by
  unfold Says at h i ⊢
  rw [i, h]

theorem xsend (s : State) (x y : LaneId) (msg : XMsg) : Says s (s.xsend x y msg) := by
  unfold State.xsend
  split
  · exact refl s
  · rfl

theorem xcast (s : State) (x : LaneId) (msg : XMsg) : Says s (s.xcast x msg) := (xsend ..).trans (xsend ..)

theorem setLane (h : Says s t) (x : LaneId) (l : Lane) : Says (s.setLane x l) (t.setLane x l) := by
  unfold Says at h ⊢
  rw [h]
  cases x <;> rfl

theorem lane (h : Says s t) (y : LaneId) : t.lane y = s.lane y := by
  rw [h]
  cases y <;> rfl

theorem fcu (h : Says s t) : t.fcu = s.fcu := by rw [h]
theorem sup (h : Says s t) : t.sup = s.sup := by rw [h]
theorem sessions (h : Says s t) : t.sessions = s.sessions := by rw [h]
theorem keyWait (h : Says s t) : t.keyWait = s.keyWait := by rw [h]

/-- A lane's post reaches its peers and stands in the lane (R13). -/
theorem post (s : State) (x : LaneId) : Says (s.setLane x { s.lane x with boot := { (s.lane x).boot with
    posts := (s.lane x).boot.posts.put x (some (s.lane x).ownPost) } }) (s.post x) := xcast ..

/-- What peers go on sending (R13). -/
theorem peersPost (s : State) (x : LaneId) : Says s (s.peersPost x) := by
  refine List.foldlRecOn _ _ (motive := Says s) (refl s) fun t h y _ => h.trans ?_
  dsimp only
  split
  · split
    · exact xsend ..
    · exact refl t
  · exact refl t

end State.Says

/-! ## The image set of a lane -/

/-- A lane that posts, forms its image set and is pre-checked (R152 to R154): its key read stands, and where it stopped before,
the stop does. -/
structure Lane.Forms (l m : Lane) : Prop where
  rest : m = { l with
    mode := { l.mode with accepted := m.mode.accepted }
    boot := { l.boot with
      posts := m.boot.posts, set := m.boot.set, stage := m.boot.stage, stopped := m.boot.stopped, code := m.boot.code
      index := m.boot.index, late := m.boot.late } }
  idle : l.mode.accepted = false → m.mode.accepted = false
  still : l.boot.stage ≠ 3 → m.boot.stage = l.boot.stage ∧ m.boot.stopped = l.boot.stopped ∧ m.boot.code = l.boot.code

namespace Lane.Forms

variable {l m n : Lane}

theorem refl (l : Lane) : Forms l l := ⟨rfl, id, fun _ => ⟨rfl, rfl, rfl⟩⟩

theorem trans (h : Forms l m) (i : Forms m n) : Forms l n where
  rest := by rw [i.rest, h.rest]
  idle := i.idle ∘ h.idle
  still early := by
    obtain ⟨stage, stopped, code⟩ := h.still early
    obtain ⟨stage', stopped', code'⟩ := i.still (by rwa [stage])
    exact ⟨stage'.trans stage, stopped'.trans stopped, code'.trans code⟩

theorem posts (l : Lane) (p : PerLane (Option StartStatus)) : Forms l { l with boot := { l.boot with posts := p } } :=
  ⟨rfl, id, fun _ => ⟨rfl, rfl, rfl⟩⟩

theorem stopStart (stage : l.boot.stage = 3) (code : Byte) (index : Nat) : Forms l (l.stopStart code index) :=
  ⟨rfl, fun _ => rfl, fun early => absurd stage early⟩

theorem preChecked (stage : l.boot.stage = 3) (set : LaneSet) (img : Image) : Forms l (l.preChecked set img) := by
  unfold Lane.preChecked
  dsimp only
  split
  · exact ⟨rfl, id, fun early => absurd stage early⟩
  · exact ⟨rfl, fun _ => rfl, fun early => absurd stage early⟩

theorem formSet (l : Lane) (x : LaneId) : Forms l (l.formSet x) := by
  unfold Lane.formSet
  split
  · exact refl l
  next img _ =>
    split
    · exact refl l
    next ready =>
      have stage : l.boot.stage = 3 := by
        by_contra e
        exact ready (by rw [bne_iff_ne.mpr e, Bool.true_or])
      dsimp only
      split
      · exact preChecked stage ..
      · split <;> exact stopStart stage ..

theorem tryForm (l : Lane) (x : LaneId) : Forms l (l.tryForm x) := by
  unfold Lane.tryForm
  split
  · exact formSet l x
  · exact refl l

end Lane.Forms

/-- A lane whose load has ended posts and forms its set, and nothing else happens (R13, R152, R153). -/
theorem State.loaded_effect (s : State) (x : LaneId) :
    State.Says (s.setLane x ((s.loaded x).lane x)) (s.loaded x) ∧ Lane.Forms (s.lane x) ((s.loaded x).lane x) := by
  have posted (m : Lane) (forms : Lane.Forms (s.lane x) m) :
      State.Says (s.setLane x (((s.setLane x m).post x).lane x)) ((s.setLane x m).post x) ∧
        Lane.Forms (s.lane x) (((s.setLane x m).post x).lane x) := by
    have said := State.Says.post (s.setLane x m) x
    simp only [State.setLane_lane_same, State.setLane_setLane] at said
    rw [said.lane, State.setLane_lane_same]
    exact ⟨said, forms.trans (.posts ..)⟩
  have plain := posted _ (.refl _)
  rw [State.setLane_self] at plain
  unfold State.loaded
  dsimp only
  split
  next stage =>
    split
    · refine posted _ ?_
      split
      · exact ⟨rfl, id, fun early => absurd stage early⟩
      · exact .stopStart stage ..
    · obtain ⟨said, forms⟩ := plain
      rw [State.modLane_lane_same]
      refine ⟨?_, forms.trans (.tryForm ..)⟩
      have later := said.setLane x (((s.post x).lane x).tryForm x)
      rwa [State.setLane_setLane] at later
  · exact plain

/-! ## The load of a lane -/

/-- A lane after a load and its posts: straps, key constant, hold, contact and everything but the recorder's figure stand. -/
structure Lane.Loads (l m : Lane) : Prop where
  rest : m = { l with
    rcd := m.rcd
    mode := { l.mode with accepted := m.mode.accepted }
    boot := { m.boot with
      inReset := l.boot.inReset, straps := l.boot.straps, kchk := l.boot.kchk, hold := l.boot.hold, alive := l.boot.alive
      present := l.boot.present, presEvt := l.boot.presEvt } }
  idle : l.mode.accepted = false → m.mode.accepted = false

namespace Lane.Loads

variable {l m n : Lane}

theorem trans (h : Loads l m) (i : Loads m n) : Loads l n := ⟨by rw [i.rest, h.rest], i.idle ∘ h.idle⟩

theorem of_forms (h : Lane.Forms l m) : Loads l m := ⟨by rw [h.rest], h.idle⟩

theorem stopStart (l : Lane) (code : Byte) (index : Nat) : Loads l (l.stopStart code index) := ⟨rfl, fun _ => rfl⟩

theorem loadKey (l : Lane) (reads : KeyReads) : Loads l (l.loadKey reads) := by
  unfold Lane.loadKey
  dsimp only
  split
  · exact ⟨rfl, fun _ => rfl⟩
  · split
    · exact ⟨rfl, fun _ => rfl⟩
    · exact ⟨rfl, id⟩

theorem testedLoad (l : Lane) (reads : KeyReads) : Loads l (l.testedLoad reads) := by
  unfold Lane.testedLoad
  split
  · exact stopStart ..
  · split
    · exact stopStart ..
    · exact loadKey ..

end Lane.Loads

section
variable {l : Lane} {reads : KeyReads} (constant : l.boot.kchk = true) (tests : l.bist.failed = 0)
include constant tests

/-- A lane whose constant and tests are good reads its key (R50, R362). -/
theorem Lane.testedLoad_reads : l.testedLoad reads = l.loadKey reads := by
  simp [Lane.testedLoad, constant, tests]

/-- Without a key START stops with 0x10 after one attempt (R134, R151). -/
theorem Lane.testedLoad_absent (absent : l.boot.present = false) :
    l.testedLoad reads = ({ l with boot := { l.boot with tries := 1 } } : Lane).stopStart 0x10 0 := by
  rw [Lane.testedLoad_reads constant tests, Lane.loadKey]
  simp [absent]

/-- A key that loads leaves its image and digest in the lane (R150). -/
theorem Lane.testedLoad_ok {img : Image} {dig : BitVec 384} (present : l.boot.present = true)
    (ok : (Machine.loadKey l.boot.straps l.nv.claims reads).2.end_ = .ok (img, dig)) :
    let m := l.testedLoad reads
    m.boot.img = some img ∧ m.boot.digest = some dig ∧ m.boot.areaId = img.params.areaId ∧
      m.boot.tries = (Machine.loadKey l.boot.straps l.nv.claims reads).1 := by
  have ok' : (Machine.loadKey l.slot l.nv.claims reads).2.end_ = .ok (img, dig) := ok
  rw [Lane.testedLoad_reads constant tests, Lane.loadKey]
  simp only [present, Bool.not_true, Bool.false_eq_true, if_false, ok']
  exact ⟨trivial, trivial, trivial, rfl⟩

end

/-! ## How a load ends -/

section
variable {d m : Lane} {reads : KeyReads} (forms : Lane.Forms (d.testedLoad reads) m)
include forms

/-- A wrong key constant stops START with 0x22 (R50). -/
theorem Lane.Forms.stopped_of_constant (constant : d.boot.kchk = false) :
    m.boot.stopped = true ∧ m.boot.stage = 8 ∧ m.boot.code = 0x22 := by
  have stop : d.testedLoad reads = d.stopStart 0x22 0 := by simp [Lane.testedLoad, constant]
  rw [stop] at forms
  obtain ⟨stage, stopped, code⟩ := forms.still (show (8 : BitVec 4) ≠ 3 by decide)
  exact ⟨stopped, stage, code⟩

/-- A failed test stops START with 0x26 (R362). -/
theorem Lane.Forms.stopped_of_tests (constant : d.boot.kchk = true) (tests : d.bist.failed ≠ 0) :
    m.boot.stopped = true ∧ m.boot.stage = 8 ∧ m.boot.code = 0x26 := by
  have stop : d.testedLoad reads = d.stopStart 0x26 (lowestBit d.bist.failed) := by
    rw [Lane.testedLoad, if_neg (by simp [constant]), if_pos (bne_iff_ne.mpr tests)]
  rw [stop] at forms
  obtain ⟨stage, stopped, code⟩ := forms.still (show (8 : BitVec 4) ≠ 3 by decide)
  exact ⟨stopped, stage, code⟩

section
variable (constant : d.boot.kchk = true) (tests : d.bist.failed = 0)
include constant tests

/-- An absent key stops START with 0x10 after one attempt, and leaves no other image (R134, R151). -/
theorem Lane.Forms.stopped_of_absent (absent : d.boot.present = false) :
    (m.boot.stopped = true ∧ m.boot.stage = 8 ∧ m.boot.code = 0x10 ∧ m.boot.tries = 1) ∧ m.boot.img = d.boot.img := by
  rw [Lane.testedLoad_absent constant tests absent] at forms
  obtain ⟨stage, stopped, code⟩ := forms.still (show (8 : BitVec 4) ≠ 3 by decide)
  exact ⟨⟨stopped, stage, code, congrArg (·.boot.tries) forms.rest⟩, congrArg (·.boot.img) forms.rest⟩

/-- A key that loads leaves its image, its digest and the attempts made (R150, R151). -/
theorem Lane.Forms.holds_of_ok {img : Image} {dig : BitVec 384} (present : d.boot.present = true)
    (ok : (Machine.loadKey d.boot.straps d.nv.claims reads).2.end_ = .ok (img, dig)) :
    m.boot.img = some img ∧ m.boot.digest = some dig ∧ m.boot.areaId = img.params.areaId ∧
      m.boot.tries = (Machine.loadKey d.boot.straps d.nv.claims reads).1 := by
  obtain ⟨hasImg, hasDigest, area, tries⟩ := Lane.testedLoad_ok constant tests present ok
  exact ⟨(congrArg (·.boot.img) forms.rest).trans hasImg, (congrArg (·.boot.digest) forms.rest).trans hasDigest,
    (congrArg (·.boot.areaId) forms.rest).trans area, (congrArg (·.boot.tries) forms.rest).trans tries⟩

end

end

/-! ## A lane released from reset -/

/-- A lane that draws its keys: its master key stands where it has one (R303, R305). -/
structure Lane.Draws (l m : Lane) : Prop where
  rest : m = { l with nv := { l.nv with master := m.nv.master }, sec := m.sec }
  master : l.nv.master.isSome = true → m.nv.master = l.nv.master

/-- Such a lane holds the keys, and may have drawn them. -/
theorem Lane.draws_drawKeys (l : Lane) (key : BitVec 256) (e : BitVec 448) : Lane.Draws l (l.drawKeys key e) := by
  unfold Lane.drawKeys
  split
  · exact ⟨rfl, fun _ => rfl⟩
  · refine ⟨rfl, fun held => ?_⟩
    obtain ⟨k, hk⟩ := Option.isSome_iff_exists.mp held
    simp [hk]

/-- Clock events are figures of the meter and a fault bit (R338). -/
theorem Lane.clockEvents_rest (l : Lane) (kind : BitVec 4) (dom n : Nat) : l.clockEvents kind dom n =
    { l with meter := (l.clockEvents kind dom n).meter, codes := (l.clockEvents kind dom n).codes } := by
  induction n with
  | zero => rfl
  | succ n ih =>
    rw [Lane.clockEvents, ih]
    rfl

/-- The module as a lane leaves reset: its sessions leave the lane, and the FCU starts where it does (R310, R341, R364). -/
def State.releasing (s : State) (x : LaneId) (env : StartEnv) : State :=
  let s := (s.begin.dropKeys x).startFcu env.fcuTests
  { s with sup := { s.sup with inReset := false, warnNow := s.sup.warnNow && !s.sup.inReset } }

@[simp] theorem State.releasing_lane (s : State) (x : LaneId) (env : StartEnv) (y : LaneId) :
    (s.releasing x env).lane y = s.lane y := by
  rw [State.releasing]
  cases env.fcuTests <;> cases y <;> rfl

/-- A lane with its registers at their reset values (R339, R384). -/
def Lane.leavesReset (l : Lane) (env : StartEnv) (p : Supply) : Lane := (l.released env).seeInputs p

/-- The clock start-up of a lane (R325, R326). -/
def Lane.clockStart (l : Lane) (env : StartEnv) : Clk × BitVec 4 × Nat := clockSteps env.clock l.nv.rcTrim Clk.init

/-- A lane once its clocks have started (R325, R326). -/
def Lane.clocksOn (l : Lane) (env : StartEnv) (p : Supply) (dom : Nat) : Lane :=
  ({ l.leavesReset env p with clk := (l.clockStart env).1 } : Lane).clockEvents 6 dom (l.clockStart env).2.2

/-- A lane in START-HOLD (R326). -/
def Lane.inHold (l : Lane) (cause : BitVec 4) : Lane := { l with boot := { l.boot with hold := cause } }

/-- A lane whose START goes on (R325). -/
def Lane.alive (l : Lane) : Lane := { l with boot := { l.boot with alive := true, stage := 1 } }

section
variable {s : State} {x : LaneId} {env : StartEnv}

/-- Reserved straps hold the lane in reset (R302). -/
theorem exec_resetRelease_reserved (straps : env.straps = 3) : exec (.resetRelease x env) s =
    .next ((s.releasing x env).setLane x ((s.lane x).leavesReset env (s.releasing x env).sup)) := by
  rw [← State.releasing_lane s x env x]
  exact if_pos straps

/-- Else its clocks start, and where they run the lane is tested, loads and posts (R150, R325, R362). -/
theorem exec_resetRelease (straps : env.straps ≠ 3) : exec (.resetRelease x env) s =
    let t := s.releasing x env
    let free (w k : Nat) : BitVec w := Config.freeBits w (t.freeCtr + k)
    let u := { t with freeCtr := t.freeCtr + 1 + 1 + 1 + 1 + 1 }
    let l := s.lane x
    let m := l.clocksOn env t.sup (free 4 1).toNat
    if (l.clockStart env).2.1 != 0 then .next (u.setLane x (m.inHold (l.clockStart env).2.1))
    else if !env.clock.monitors then .next (u.setLane x m)
    else .next (((u.setLane x (((m.alive.startTests env (free 16 0) (free 192 4)).drawKeys (free 256 2) (free 448 3)).testedLoad
      env.reads)).peersPost x).loaded x) := by
  rw [← State.releasing_lane s x env x]
  exact if_neg straps

end

/-- A lane that draws its keys, loads and posts: its start stands but for what the key and the posts give. -/
structure Lane.Boots (n m : Lane) (reads : KeyReads) : Prop where
  rest : ∃ sec, m = { n with
    sec := sec
    nv := { n.nv with master := m.nv.master }
    rcd := m.rcd
    mode := { n.mode with accepted := m.mode.accepted }
    boot := { m.boot with
      inReset := n.boot.inReset, straps := n.boot.straps, kchk := n.boot.kchk, hold := n.boot.hold, alive := n.boot.alive
      present := n.boot.present, presEvt := n.boot.presEvt } }
  master : n.nv.master.isSome = true → m.nv.master = n.nv.master
  idle : n.mode.accepted = false → m.mode.accepted = false
  forms : ∃ key e, Lane.Forms ((n.drawKeys key e).testedLoad reads) m

/-- Every such lane starts so. -/
theorem Lane.Forms.boots {n m : Lane} {reads : KeyReads} {key : BitVec 256} {e : BitVec 448}
    (forms : Lane.Forms ((n.drawKeys key e).testedLoad reads) m) : Lane.Boots n m reads := by
  have draws := n.draws_drawKeys key e
  have loads := (Lane.Loads.testedLoad (n.drawKeys key e) reads).trans (.of_forms forms)
  have nv : m.nv = (n.drawKeys key e).nv := congrArg (·.nv) loads.rest
  refine ⟨⟨(n.drawKeys key e).sec, ?_⟩, fun held => by rw [nv, draws.master held], fun idle => loads.idle ?_, key, e, forms⟩
  · rw [nv, loads.rest, draws.rest]
  · rwa [draws.rest]

section
variable {s : State} {x : LaneId} {env : StartEnv}

/-- A calibration outside its bounds three times is cause 2 (R325, R326). -/
theorem clockSteps_uncalibrated {e : ClockStart} (bad : ∀ c ∈ e.cals.take 3, c < 11719 ∨ 19531 < c) (fuse : Half) (c : Clk) :
    (clockSteps e fuse c).2.1 = 2 := by
  have none_ : (e.cals.take 3).find? calOk = none := by
    rw [List.find?_eq_none]
    intro c hc
    have out := bad c hc
    simp [calOk]
    omega
  rw [clockSteps, none_]

/-- Clock events aside, a lane whose clocks have started is the released one with its clocks. -/
theorem Lane.clocksOn_rest (l : Lane) (env : StartEnv) (p : Supply) (dom : Nat) : l.clocksOn env p dom =
    { l.leavesReset env p with
      clk := (l.clockStart env).1
      meter := (l.clocksOn env p dom).meter
      codes := (l.clocksOn env p dom).codes } :=
  Lane.clockEvents_rest ..

/-- The FCU as a lane leaves reset (R364). -/
theorem State.releasing_fcu (s : State) (x : LaneId) (env : StartEnv) :
    (s.releasing x env).fcu = (s.startFcu env.fcuTests).fcu := by
  rw [State.releasing]
  cases env.fcuTests <;> rfl

/-- The supply as a lane leaves reset (R341). -/
theorem State.releasing_sup (s : State) (x : LaneId) (env : StartEnv) :
    (s.releasing x env).sup = { s.sup with inReset := false, warnNow := s.sup.warnNow && !s.sup.inReset } := by
  rw [State.releasing]
  cases env.fcuTests <;> rfl

/-- The sessions as a lane leaves reset (R310). -/
theorem State.releasing_sessions (s : State) (x : LaneId) (env : StartEnv) :
    (s.releasing x env).sessions = (s.begin.dropKeys x).sessions := by
  rw [State.releasing]
  cases env.fcuTests <;> rfl

/-- A lane that starts, posts and is heard of by its peers (R13, R152). -/
theorem State.loaded_peersPost (s : State) (x : LaneId) (l : Lane) :
    let t := ((s.setLane x l).peersPost x).loaded x
    State.Says (s.setLane x (t.lane x)) t ∧ Lane.Forms l (t.lane x) := by
  have heard := State.Says.peersPost (s.setLane x l) x
  obtain ⟨said, forms⟩ := ((s.setLane x l).peersPost x).loaded_effect x
  rw [heard.lane, State.setLane_lane_same] at forms
  refine ⟨?_, forms⟩
  have before := heard.setLane x ((((s.setLane x l).peersPost x).loaded x).lane x)
  rw [State.setLane_setLane] at before
  exact before.trans said

/-- A lane whose clocks run and whose tests have ended. -/
structure Lane.Tested (l : Lane) (env : StartEnv) (n : Lane) : Prop where
  boot : n.boot = { Boot.init with
    inReset := decide (env.straps = 3), straps := env.straps, kchk := decide (Config.kOf env.straps * env.romInv = 1)
    present := env.keyClosed, alive := true, stage := 1 }
  bist : n.bist = { Bist.init with done := 0xFF, failed := env.testsFail }
  nv : n.nv = { l.nv with se := l.nv.seStored }
  store : n.store = Store.init
  ring : n.ring = Ring.init
  ptn : n.ptn = Ptn.init

theorem Lane.tested_clocksOn (l : Lane) (env : StartEnv) (p : Supply) (dom : Nat) (us : Half) (sigs : BitVec 192) :
    Lane.Tested l env ((l.clocksOn env p dom).alive.startTests env us sigs) := by
  rw [Lane.clocksOn_rest]
  exact ⟨rfl, rfl, rfl, rfl, rfl, rfl⟩

end

/-! ## START repeated -/

/-- Lanes that change one after the other, each itself alone, change each as it does. -/
theorem State.foldl_lanes {op : State → LaneId → State} {P : LaneId → Lane → Lane → Prop}
    (own : ∀ t x, P x (t.lane x) ((op t x).lane x)) (others : ∀ t x y, y ≠ x → (op t x).lane y = t.lane y)
    {ys : List LaneId} (distinct : ys.Nodup) (s : State) :
    (∀ y ∉ ys, (ys.foldl op s).lane y = s.lane y) ∧ ∀ y ∈ ys, P y (s.lane y) ((ys.foldl op s).lane y) := by
  induction ys generalizing s with
  | nil => exact ⟨fun _ _ => rfl, fun _ hy => absurd hy List.not_mem_nil⟩
  | cons x ys ih =>
    obtain ⟨new, distinct⟩ := List.nodup_cons.mp distinct
    obtain ⟨kept, changed⟩ := ih distinct (op s x)
    refine ⟨fun y hy => ?_, fun y hy => ?_⟩
    · rw [List.mem_cons, not_or] at hy
      exact (kept y hy.2).trans (others s x y hy.1)
    · rcases List.mem_cons.mp hy with rfl | hy
      · rw [List.foldl_cons, kept y new]
        exact own s y
      · rw [List.foldl_cons, ← others s x y fun e => new (e ▸ hy)]
        exact changed y hy

/-- A lane that repeats START is the restarted one with its keys and its load (R134). -/
theorem State.restartLane_lane (t : State) (reads : PerLane KeyReads) (x : LaneId) :
    ∃ key e, (t.restartLane reads x).lane x = (((t.lane x).restart.seeInputs t.sup).drawKeys key e).testedLoad (reads.get x) := by
  refine ⟨(t.fresh 256).1, ((t.fresh 256).2.fresh 448).1, ?_⟩
  rw [State.restartLane, State.setLane_lane_same]

/-- The lanes that repeat START: those in operation and not armed (R134, R289). -/
def State.repeating (s : State) : List LaneId := laneList.filter fun x => (s.lane x).live && !(s.lane x).mode.armed

theorem State.mem_repeating {s : State} {x : LaneId} : x ∈ s.repeating ↔ ((s.lane x).live && !(s.lane x).mode.armed) = true := by
  rw [State.repeating, List.mem_filter, and_iff_right (mem_laneList x)]

/-- START repeated: the wait ends, each lane that repeats it starts from its restarted registers, and the others stay (R134). -/
theorem State.repeatStart_effect (s : State) (reads : PerLane KeyReads) :
    let t := s.repeatStart reads
    t.keyWait = false ∧ (∀ x ∉ s.repeating, t.lane x = s.lane x) ∧
      ∀ x ∈ s.repeating, ∃ p, Lane.Boots ((s.lane x).restart.seeInputs p) (t.lane x) (reads.get x) := by
  have distinct : s.repeating.Nodup := List.Nodup.filter _ (by decide)
  obtain ⟨kept, restarted⟩ := State.foldl_lanes
    (P := fun x l m => ∃ p key e, m = ((l.restart.seeInputs p).drawKeys key e).testedLoad (reads.get x))
    (op := fun t x => t.restartLane reads x) (fun t x => ⟨t.sup, t.restartLane_lane reads x⟩)
    (fun t x y other => by simp only [State.restartLane, State.setLane_lane_other _ _ other, State.fresh_lane]) distinct s
  have begun (x : LaneId) : ({ (s.repeating.foldl (fun t x => t.restartLane reads x) s).fcuToStart with
      keyWait := false, tunRetx := 0 } : State).lane x = (s.repeating.foldl (fun t x => t.restartLane reads x) s).lane x := by
    unfold State.fcuToStart
    split <;> cases x <;> rfl
  obtain ⟨kept', posted⟩ := State.foldl_lanes (P := fun _ => Lane.Forms) (op := fun t x => t.loaded x)
    (fun t x => (t.loaded_effect x).2)
    (fun t x y other => by rw [(t.loaded_effect x).1.lane, State.setLane_lane_other _ _ other]) distinct
    { (s.repeating.foldl (fun t x => t.restartLane reads x) s).fcuToStart with keyWait := false, tunRetx := 0 }
  refine ⟨?_, fun x hx => (kept' x hx).trans ((begun x).trans (kept x hx)), fun x hx => ?_⟩
  · exact List.foldlRecOn _ _ (motive := fun u : State => u.keyWait = false) rfl
      fun u h x _ => by rw [(u.loaded_effect x).1.keyWait, State.setLane_keyWait, h]
  · have forms := posted x hx
    obtain ⟨p, key, e, lane⟩ := restarted x hx
    rw [begun, lane] at forms
    exact ⟨p, forms.boots⟩

/-! ## The statement -/

/-- Draws keep what a load goes by: the lane's straps, constant, contact, tests and claims. -/
theorem Lane.drawKeys_rest (n : Lane) (key : BitVec 256) (e : BitVec 448) :
    (n.drawKeys key e).boot = n.boot ∧ (n.drawKeys key e).bist = n.bist ∧ (n.drawKeys key e).nv.claims = n.nv.claims := by
  have draws := n.draws_drawKeys key e
  exact ⟨congrArg (·.boot) draws.rest, congrArg (·.bist) draws.rest, congrArg (·.nv.claims) draws.rest⟩

/-- A lane whose clocks run is alive with its registers at their reset values, and stops or holds its image as its tests and its
key say (R134, R150, R151, R362, R384). -/
theorem exec_resetRelease_starts {s : State} {x : LaneId} {env : StartEnv} (straps : env.straps ≠ 3)
    (clocked : ((s.lane x).clockStart env).2.1 = 0) (monitors : env.clock.monitors = true) :
    ∃ t n, exec (.resetRelease x env) s = .next t ∧ (∀ y, y ≠ x → t.lane y = s.lane y) ∧
      t.sessions = (s.releasing x env).sessions ∧ t.fcu = (s.releasing x env).fcu ∧ t.sup = (s.releasing x env).sup ∧
      Lane.Tested (s.lane x) env n ∧ Lane.Boots n (t.lane x) env.reads := by
  have run := exec_resetRelease (s := s) (x := x) straps
  dsimp only at run
  rw [clocked, monitors] at run
  refine ⟨_, _, run, fun y other => ?_, ?_, ?_, ?_, Lane.tested_clocksOn .., Lane.Forms.boots (State.loaded_peersPost _ _ _).2⟩
  · rw [(State.loaded_peersPost _ _ _).1.lane, State.setLane_lane_other _ _ other, ← State.releasing_lane s x env y]
    cases y <;> rfl
  · rw [(State.loaded_peersPost _ _ _).1.sessions, State.setLane_sessions]
  · rw [(State.loaded_peersPost _ _ _).1.fcu, State.setLane_fcu]
  · rw [(State.loaded_peersPost _ _ _).1.sup, State.setLane_sup]

/-- Settles O32: a released lane stays in reset, in START-HOLD, or starts from its reset values, and START_REPEAT starts each unarmed
lane so. -/
theorem startReleases : Obligations.StartReleases := by
  unfold Obligations.StartReleases
  refine ⟨fun s x env => ⟨?reserved, ?holds, ?starts⟩, ?repeats⟩
  case reserved =>
    intro straps
    refine ⟨_, exec_resetRelease_reserved straps, ?_, ?_⟩
    · rw [State.setLane_lane_same]
      exact decide_eq_true straps
    · rw [State.setLane_lane_same]
      rfl
  case holds =>
    intro straps bad
    have cause : ((s.lane x).clockStart env).2.1 = 2 := clockSteps_uncalibrated bad ..
    have run := exec_resetRelease (s := s) (x := x) straps
    dsimp only at run
    rw [cause] at run
    refine ⟨_, run, ?_, ?_, ?_, fun y other => ?_⟩
    · rw [State.setLane_lane_same]
      rfl
    · rw [State.setLane_lane_same, Lane.clocksOn_rest]
      exact decide_eq_false straps
    · rw [State.setLane_lane_same, Lane.clocksOn_rest]
      rfl
    · rw [State.setLane_lane_other _ _ other, ← State.releasing_lane s x env y]
      cases y <;> rfl
  case starts =>
    intro straps clocked monitors
    obtain ⟨t, n, run, others, sessions, fcu, sup, tested, boots⟩ := exec_resetRelease_starts straps clocked monitors
    obtain ⟨sec, rest⟩ := boots.rest
    obtain ⟨key, e, forms⟩ := boots.forms
    obtain ⟨boot', bist', claims'⟩ := n.drawKeys_rest key e
    have boot := congrArg Lane.boot rest
    have nv := congrArg Lane.nv rest
    rw [tested.boot] at boot boot'
    rw [tested.bist] at bist'
    rw [tested.nv] at nv claims'
    refine ⟨t, run, others, fun k hk => ?_, ?_, sup.trans (State.releasing_sup ..), ?_⟩
    · rw [sessions, State.releasing_sessions] at hk
      exact State.dropKeys_sessions hk
    · rw [fcu, State.releasing_fcu]
      cases env.fcuTests <;> rfl
    · have kchk : (t.lane x).boot.kchk = decide (Config.kOf env.straps * env.romInv = 1) := congrArg (·.kchk) boot
      refine ⟨congrArg (·.alive) boot, (congrArg (·.inReset) boot).trans (decide_eq_false straps), congrArg (·.hold) boot,
        congrArg (·.straps) boot, kchk, ?_, ?_, (congrArg (·.store) rest).trans tested.store,
        (congrArg (·.ring) rest).trans tested.ring, (congrArg (·.ptn) rest).trans tested.ptn, nv, fun held => ?_,
        ?constant, ?tests, ?absent, ?holds⟩
      · exact (congrArg (·.bist.done) rest).trans (congrArg (·.done) tested.bist)
      · exact (congrArg (·.bist.failed) rest).trans (congrArg (·.failed) tested.bist)
      · exact (boots.master (by rwa [tested.nv])).trans (congrArg (·.master) tested.nv)
      case constant =>
        intro wrong
        rw [kchk] at wrong
        exact forms.stopped_of_constant ((congrArg (·.kchk) boot').trans wrong)
      case tests =>
        intro right failed
        rw [kchk] at right
        exact forms.stopped_of_tests ((congrArg (·.kchk) boot').trans right) (by rwa [bist'])
      case absent =>
        intro right passed absent
        rw [kchk] at right
        exact (forms.stopped_of_absent ((congrArg (·.kchk) boot').trans right) (by rw [bist', passed])
          ((congrArg (·.present) boot').trans absent)).1
      case holds =>
        intro img dig right passed present ok
        rw [kchk] at right
        have held := forms.holds_of_ok (img := img) (dig := dig) ((congrArg (·.kchk) boot').trans right) (by rw [bist', passed])
          ((congrArg (·.present) boot').trans present) (by rwa [boot', claims'])
        rwa [boot', claims'] at held
  case repeats =>
    intro s reads waits
    have run : exec (.startRepeat reads) s = .next (s.begin.repeatStart reads) := if_pos waits
    obtain ⟨keyWait, kept, started⟩ := s.begin.repeatStart_effect reads
    simp only [State.mem_repeating, State.begin_lane] at kept started
    refine ⟨_, run, keyWait, fun x idle => kept x (ne_true_of_eq_false idle), fun x acts => ?_⟩
    obtain ⟨p, boots⟩ := started x acts
    obtain ⟨sec, rest⟩ := boots.rest
    obtain ⟨key, e, forms⟩ := boots.forms
    obtain ⟨boot', bist', claims'⟩ := ((s.lane x).restart.seeInputs p).drawKeys_rest key e
    have mode : ((s.begin.repeatStart reads).lane x).mode = ModeState.init := by
      rw [rest, boots.idle rfl]
      rfl
    have tests : (((s.lane x).restart.seeInputs p).drawKeys key e).bist.failed = 0 := congrArg (·.failed) bist'
    refine ⟨congrArg (·.nv) rest, boots.master, congrArg (·.store) rest, congrArg (·.host) rest, congrArg (·.force) rest, mode,
      congrArg (·.boot.straps) rest, congrArg (·.boot.present) rest, fun right absent => ?_, fun img dig right present ok => ?_⟩
    · obtain ⟨⟨stopped, stage, code, tries⟩, image⟩ := forms.stopped_of_absent ((congrArg (·.kchk) boot').trans right) tests
        ((congrArg (·.present) boot').trans absent)
      exact ⟨stopped, stage, code, tries, image.trans (congrArg (·.img) boot')⟩
    · obtain ⟨image, digest, -, -⟩ := forms.holds_of_ok (img := img) (dig := dig) ((congrArg (·.kchk) boot').trans right) tests
        ((congrArg (·.present) boot').trans present) (by rwa [boot', claims'])
      exact ⟨image, digest⟩

end Sys2Proof.Machine
end

section
/-!
PROOFS. O60: sessions, workstations, ARP, the image set and the local outputs (spec/12_cluster_and_host.md R275;
spec/14_keys_and_trust.md R309, R314; spec/08_field_telegrams.md R164; spec/07_data_key.md R152;
spec/10_local_vital_io.md R222 to R235).
-/
namespace Sys2Proof.Machine

/-! ## Sessions and workstations -/

section
variable {s : State} {sess : Nat} {k : Session} (session : s.session sess = some k)
include session

/-- A session that ends is named, and no session has its number (R275). -/
theorem exec_session_ends {i : Instr} (ends : i = .sessionIdleTimeout sess ∨ i = .sessionClose sess) :
    ∃ t, exec i s = .next t ∧ .closed sess ∈ t.out ∧ ∀ j ∈ t.sessions, j.id ≠ sess := by
  have session' : s.begin.session sess = some k := session
  obtain rfl := State.session_id session
  have step : exec i s = .next (s.begin.closeSession k.id) := by
    rcases ends with rfl | rfl <;> exact congrArg _ (State.serve_session session' _)
  have sends := s.begin.closeSession_sends k.id
  refine ⟨_, step, sends.mem (by simp), fun j hj => ?_⟩
  rw [sends.sessions_eq] at hj
  exact bne_iff_ne.mp (List.mem_filter.mp hj).2

/-- A key update counts the generations of the session in the lanes that hold it (R309). -/
theorem exec_keyupdate_all (l : LaneId) : ∃ t, exec (.keyupdate sess allLanes) s = .next t ∧
    ∀ j ∈ t.sessions, j.id = k.id → j.keyGen.get l = k.keyGen.get l + if k.lanes.has l then 1 else 0 := by
  have counts (b : Bool) : (true && b).toNat = if b then 1 else 0 := by cases b <;> rfl
  have run : exec (.keyupdate sess allLanes) s = .next (s.begin.setSession _) :=
    congrArg Host.Outcome.next (State.serve_session (show s.begin.session sess = some k from session) _)
  refine ⟨_, run, fun j hj same => ?_⟩
  obtain ⟨i, -, rfl⟩ := List.mem_map.mp hj
  split at same
  · rw [if_pos ‹_›]
    cases l <;> exact congrArg _ (counts _)
  next other => exact absurd same other

/-- The lanes that act hold the number of a revocation of a workstation that they take (R314). -/
theorem exec_wsReg_revokes {r : WsReg} (maint : k.maint = true) (general : k.comm = false) (action : r.action = 2)
    (accepts : ∀ y, (obeying s k allLanes).has y = true → (s.lane y).AcceptsWs r) (req : Word) :
    ∃ t, exec (.wsReg sess req r) s = .next t ∧
      ∀ y, (obeying s k allLanes).has y = true → (r.wsId, r.seq) ∈ (t.lane y).nv.wsSeq := by
  have each := State.inLanes_settled (s := s.begin) (k := k) (f := fun t x => t.provLane k req 6 (fun l _ => l.wsRegIn r) x)
    fun t x y other => State.provLane_others other ..
  have run : exec (.wsReg sess req r) s =
      .next (s.begin.inLanes k allLanes fun t x => t.provLane k req 6 (fun l _ => l.wsRegIn r) x) :=
    congrArg _ (State.prov_maint (show s.begin.session sess = some k from session) maint general ..)
  refine ⟨_, run, fun y acts => ?_⟩
  obtain ⟨t, met, left⟩ := (each y).acts (by simpa using acts)
  obtain ⟨-, eph, wrap, signed, above, -⟩ := accepts y acts
  rw [State.begin_lane] at met
  have taken : (t.lane y).AcceptsWs r := by
    rw [met]
    exact ⟨.inr action, eph, wrap, signed, above, fun one => absurd (one.symm.trans action) (by decide)⟩
  obtain ⟨-, -, numbers⟩ :=
    State.provLane_sameRecords (t := t) (f := fun l _ => l.wsRegIn r) taken.wsRegIn k req 6
  rw [left.nv, numbers]
  exact List.mem_append_right _ (List.mem_singleton.mpr rfl)

end

/-! ## The image set -/

/-- A lane that posts again changes its own post alone (R13). -/
theorem State.repost_boot (s : State) (x : LaneId) :
    ((s.repost x).lane x).boot = { (s.lane x).boot with posts := ((s.repost x).lane x).boot.posts } ∧
      ∀ y, y ≠ x → ((s.repost x).lane x).boot.posts.get y = (s.lane x).boot.posts.get y := by
  unfold State.repost
  split
  · exact ⟨rfl, fun _ _ => rfl⟩
  · rw [(State.Says.post s x).lane, State.setLane_lane_same]
    exact ⟨rfl, fun y other => by rw [PerLane.get_put, if_neg other]⟩

/-- The local I/O map that a lane gives leaves what START has found in it (R144, R215). -/
theorem State.giveMap_boot (s : State) (m : Lane) (x : LaneId) : ((s.giveMap m x).lane x).boot = (s.lane x).boot := by
  unfold State.giveMap
  dsimp only
  split
  · rfl
  · split
    · split
      · rw [State.setLane_lane_same, (Lane.Fails.useTables ..).rest]
      · cases x <;> rfl
    · rfl

/-- A step of the agreement of the secret, and the comparison of posts, leave the posts (R50, R305). -/
theorem Lane.agreeStep_boot (l : Lane) : l.agreeStep.boot = l.boot := by
  unfold Lane.agreeStep
  repeat' split
  all_goals rfl

theorem Lane.comparePost_posts (l : Lane) (x : LaneId) : (l.comparePost x).boot.posts = l.boot.posts := by
  unfold Lane.comparePost
  repeat' split
  all_goals rfl

/-- A pre-check leaves the posts, and sets the image set (R152, R154). -/
theorem Lane.preChecked_boot (l : Lane) (set : LaneSet) (img : Image) :
    (l.preChecked set img).boot.posts = l.boot.posts ∧ (l.preChecked set img).boot.set = set := by
  unfold Lane.preChecked
  dsimp only
  split
  · exact ⟨rfl, rfl⟩
  · exact ⟨rfl, rfl⟩

/-- The formation of a set leaves the posts (R152). -/
theorem Lane.formSet_posts (l : Lane) (x : LaneId) : (l.formSet x).boot.posts = l.boot.posts := by
  unfold Lane.formSet
  split
  · rfl
  · split
    · rfl
    · dsimp only
      split
      · exact (Lane.preChecked_boot ..).1
      · split <;> rfl

theorem Lane.tryForm_posts (l : Lane) (x : LaneId) : (l.tryForm x).boot.posts = l.boot.posts := by
  unfold Lane.tryForm
  split
  · exact l.formSet_posts x
  · rfl

section
variable {s : State} {l : LaneId} (live : (s.lane l).live = true)
include live

/-- A START status frame is held (R13, R152). -/
theorem exec_startStatusRx_posts {sender : LaneId} (unarmed : (s.lane l).mode.armed = false) (other : sender ≠ l) (f : StartStatus) :
    ∃ t, exec (.startStatusRx l sender f) s = .next t ∧ (t.lane l).boot.posts.get sender = some f := by
  have takes : ¬(!(s.begin.lane l).live || (s.begin.lane l).mode.armed || sender = l) = true := by
    simp [live, unarmed, other]
  refine ⟨_, if_neg takes, ?_⟩
  rw [State.giveMap_boot, (State.repost_boot _ l).2 sender other, State.setLane_lane_same, Lane.tryForm_posts, Lane.agreeStep_boot,
    Lane.comparePost_posts]
  exact (PerLane.get_put ..).trans (if_pos rfl)

/-- A lane whose wait ends forms the set that it sees (R152). -/
theorem exec_digestWaitExpiry_forms {img : Image} (early : (s.lane l).boot.late = false) (image : (s.lane l).boot.img = some img)
    (stage : (s.lane l).boot.stage = 3) (two : 2 ≤ ((s.lane l).setOf l).count) :
    ∃ t, exec (.digestWaitExpiry l) s = .next t ∧ (t.lane l).boot.set = (s.lane l).setOf l := by
  have waits : ((s.begin.lane l).live && !(s.begin.lane l).boot.late) = true := by simp [live, early]
  have forms : (s.lane l).formSet l = (s.lane l).preChecked ((s.lane l).setOf l) img := by
    simp [Lane.formSet, image, stage, early, two]
  refine ⟨_, if_pos waits, ?_⟩
  rw [State.giveMap_boot, (State.repost_boot _ l).1, State.modLane_lane_same, State.begin_lane, forms]
  exact (Lane.preChecked_boot ..).2

end

/-! ## The local outputs -/

section
variable {s : State} {ch : Fin 32}

/-- The FCU with a channel marked stuck-on (R227). -/
def Fcu.markOn (f : Fcu) (ch : Fin 32) : Fcu := f.modCh ch fun c => { c with rb := true, fault := 1 }

theorem Fcu.markOn_chan (f : Fcu) (ch : Fin 32) : (f.markOn ch).chans[ch] = { f.chans[ch] with rb := true, fault := 1 } :=
  f.modCh_chan_same ch _

/-- A group that latches leaves the mark (R227, R231). -/
theorem Fcu.latch_markOn (f : Fcu) (g : Fin 4) (ch : Fin 32) :
    ((f.markOn ch).latch g).chans[ch].fault = 1 ∧ ((f.markOn ch).latch g).chans[ch].rb = true := by
  have reads : Fcu.KeepsReads (f.markOn ch) ((f.markOn ch).latch g) := (Fcu.KeepsReads.modGrp ..).trans (.shut _)
  rw [Fcu.latch_chan_fault, reads.rb, Fcu.markOn_chan]
  exact ⟨rfl, rfl⟩

/-- A channel that is off and reads 5 V in a group that is judged is stuck-on (R227). -/
theorem exec_stuckOnDetect_faults (on : s.fcu.chans[ch].on = false) (pulse : s.fcu.chans[ch].pulse = false)
    (reads : s.fcu.groups[groupOf ch].waitVpr = false) (supplied : s.fcu.groups[groupOf ch].st ≠ .supplyLow) :
    ∃ t, exec (.stuckOnDetect ch) s = .next t ∧ t.fcu.chans[ch].fault = 1 ∧ t.fcu.chans[ch].rb = true := by
  have off : s.fcu.chans[ch].isOn = false := by rw [FcuCh.isOn, on, pulse]; rfl
  have marked : (s.fcu.markOn ch).chans[ch].fault = 1 ∧ (s.fcu.markOn ch).chans[ch].rb = true := by
    rw [Fcu.markOn_chan]
    exact ⟨rfl, rfl⟩
  have latched := s.fcu.latch_markOn (groupOf ch) ch
  cases st : s.fcu.groups[groupOf ch].st with
  | off => exact ⟨_, exec_stuckOnDetect_marks off reads (.inl st), marked⟩
  | normal => exact ⟨_, exec_stuckOnDetect_latches off reads (.inl st), latched⟩
  | degraded => exact ⟨_, exec_stuckOnDetect_latches off reads (.inr st), latched⟩
  | supplyLow => exact absurd st supplied
  | latched => exact ⟨_, exec_stuckOnDetect_marks off reads (.inr st), marked⟩

/-- A channel held off is off with its code (R223). -/
theorem State.HoldsOff.channel {t : State} {code : BitVec 4} (h : s.HoldsOff t ch code) :
    t.fcu.chans[ch].hold = true ∧ t.fcu.chans[ch].fault = code ∧ t.fcu.chans[ch].on = false := by
  obtain ⟨-, -, on, hold, fault⟩ := h
  exact ⟨hold, fault, on⟩

/-- A pulse that falls and comes back counts, and the channel is on again (R228, R229). -/
theorem exec_pepperPulseEnd_counts (pulse : s.fcu.chans[ch].pulse = true) (valid : s.fcu.chans[ch].void = false)
    (path : s.fcu.chans[ch].rbLost = false) :
    ∃ t, exec (.pepperPulseEnd ch true true) s = .next t ∧ t.fcu.chans[ch].pulse = false ∧ t.fcu.chans[ch].on = true ∧
      t.fcu.chans[ch].passes = s.fcu.chans[ch].passes + 1 := by
  have chan := s.fcu.endPulse_chan ch
  refine ⟨_, exec_pepperPulseEnd_judged pulse valid (Fcu.judgePulse_passes ((congrArg FcuCh.rbLost chan).trans path)), ?_⟩
  dsimp only
  rw [Fcu.regain_chans, Fcu.modCh_chan_same, chan, valid]
  exact ⟨rfl, rfl, rfl⟩

end

section
variable {s : State} {g : Fin 4}

/-- What settles the role leaves the VPR of a group (R222). -/
theorem Fcu.settleRole_vpr (f : Fcu) (g : Fin 4) : f.settleRole.groups[g].vpr = f.groups[g].vpr := by
  by_cases leaves : f.b2.isSome = true ∧ f.present.count < 2 ∧ f.active = true
  · obtain ⟨fixed, few, active⟩ := leaves
    exact (Fcu.settleRole_leaves fixed few active g).2.1
  · rw [Fcu.settleRole_stands]
    by_contra other
    simp only [not_or, Nat.not_le, Bool.not_eq_false] at other
    obtain ⟨awaited, few, active⟩ := other
    exact leaves ⟨Option.isSome_iff_ne_none.mpr awaited, few, active⟩

/-- A VPR that fewer than two lanes feed, or whose cut switch is open, is de-energised (R226). -/
theorem exec_vprDeenergise_cuts (unfed : s.togglers g < 2 ∨ s.fcu.groups[g].cut = true) :
    ∃ t, exec (.vprDeenergise g) s = .next t ∧ t.fcu.groups[g].vpr = false := by
  have starved : ¬ s.feeds g := by
    rintro ⟨two, closed, -⟩
    rcases unfed with few | open_
    · omega
    · exact Bool.noConfusion (closed.symm.trans open_)
  have dark : (s.fcu.unpower g).settleRole.groups[g].vpr = false := by
    rw [Fcu.settleRole_vpr, Fcu.unpower_group_same]
  obtain ⟨-, -, cut, -⟩ := Fcu.cutOff_fields dark
  exact ⟨_, exec_vprDeenergise starved, cut⟩

/-- An undervoltage of a group that follows its commands leads to SUPPLY-LOW (R234). -/
theorem exec_lplusUndervoltage_low {mv : Nat} (below : mv < 16800)
    (st : s.fcu.groups[g].st = .normal ∨ s.fcu.groups[g].st = .degraded) :
    ∃ t, exec (.lplusUndervoltage g mv) s = .next t ∧ t.fcu.groups[g].st = .supplyLow ∧ t.fcu.groups[g].uv = true := by
  refine ⟨_, exec_lplusUndervoltage_starves below st, ?_⟩
  dsimp only
  rw [Fcu.shut_groups, Fcu.modGrp_group_same]
  refine ⟨rfl, ?_⟩
  rw [FcuGrp.starved]
  cases s.fcu.degrades g <;> rfl

/-- A recovery moves a group on without a word on its supply (R234). -/
theorem Fcu.recover_uv (f : Fcu) (g : Fin 4) : (f.recover g 0).groups[g].uv = f.groups[g].uv := by
  have group : (f.markStuck g 0).groups[g] = f.groups[g] := by rw [Fcu.markStuck_groups]
  by_cases latches : f.degrades g = false ∨ f.groups[g].degExp = true
  · rw [Fcu.recover_latches (.inr latches), Fcu.latch_group_same, group]
    rfl
  · rw [not_or, Bool.not_eq_false, Bool.not_eq_true] at latches
    rw [Fcu.recover_degrades latches.1 latches.2, Fcu.modGrp_group_same, group]

/-- The supply of a group is back (R234). -/
theorem exec_lplusRecovery_ends {mv : Nat} (uv : s.fcu.groups[g].uv = true) (above : 19200 < mv) :
    ∃ t, exec (.lplusRecovery g mv 0) s = .next t ∧ t.fcu.groups[g].uv = false := by
  have back : (s.fcu.supplied g mv).groups[g].uv = false := by rw [Fcu.supplied_group_same]
  by_cases low : s.fcu.groups[g].st = .supplyLow
  · refine ⟨_, exec_lplusRecovery_recovers uv above low 0, ?_⟩
    dsimp only
    rw [Fcu.driveGroup_groups, Fcu.recover_uv, back]
  · exact ⟨_, exec_lplusRecovery_noted uv above low 0, back⟩

/-- A running limit of a DEGRADED group latches it (R233). -/
theorem exec_degradeLimitFcu_latches (st : s.fcu.groups[g].st = .degraded) (runs : s.fcu.groups[g].degLeft.isSome = true) :
    ∃ t, exec (.degradeLimitFcu g) s = .next t ∧ t.fcu.groups[g].st = .latched ∧ t.fcu.groups[g].degExp = true := by
  refine ⟨_, (exec_degradeLimitFcu runs).trans (congrArg _ (congrArg (fun f => { s.begin with fcu := f }) (if_pos st))), ?_⟩
  dsimp only
  rw [Fcu.latch_group_same, Fcu.expire, Fcu.modGrp_group_same]
  exact ⟨rfl, rfl⟩

end

/-- Settles O60: each command by the rule of its step. -/
theorem sessionSetAndOutputCommandsComplete : Obligations.SessionSetAndOutputCommandsComplete := by
  unfold Obligations.SessionSetAndOutputCommandsComplete
  intro s l sender ch g
  dsimp only
  refine ⟨fun sess k session => ⟨fun i ends => exec_session_ends session ends, exec_keyupdate_all session l, ?revokes⟩, ?arp,
    fun live unarmed => ⟨fun f other => exec_startStatusRx_posts live unarmed other f,
      fun img early image stage two => exec_digestWaitExpiry_forms live early image stage two⟩,
    exec_stuckOnDetect_faults, ?failedOff, ?thermal, ?retry, ?pulse, exec_pepperPulseEnd_counts, ?offCheck, ?toggle, ?energise,
    exec_vprDeenergise_cuts, fun mv => ⟨?warning, exec_lplusUndervoltage_low, exec_lplusRecovery_ends⟩,
    exec_degradeLimitFcu_latches, ?laneLimit⟩
  case revokes =>
    intro req r maint general action eph wrap ready
    refine exec_wsReg_revokes session maint general action (fun y acts => ?_) req
    obtain ⟨signed, above⟩ := ready y acts
    exact ⟨.inr action, eph, wrap, signed, above, fun one => absurd (one.symm.trans action) (by decide)⟩
  case arp =>
    intro net y img target pos mac r port image active
    refine ⟨fun sound own => ⟨_, exec_arpRx port image sound target, ?_⟩,
      fun record sound => ⟨_, exec_arpRefresh_asks port image active record sound mac, rfl⟩⟩
    rw [if_pos ⟨active, own⟩]
    rfl
  case failedOff =>
    exact fun on => ⟨_, exec_failedOffDetect_on on, (State.holdsOff_holdOff (.refl s.fcu) rfl ch 2).channel⟩
  case thermal =>
    exact ⟨_, rfl, (State.holdsOff_holdOff (.refl s.fcu) rfl ch 5).channel⟩
  case retry =>
    intro held cmd
    obtain ⟨hold, fault, -⟩ := Fcu.retried_chan cmd s.sup.warnNow
    exact ⟨_, exec_overloadRetry_takes held cmd, hold, fault⟩
  case pulse =>
    intro current on quiet full
    refine ⟨_, exec_pepperPulseStart_opens on quiet full current, ?_⟩
    dsimp only
    rw [Fcu.modCh_chan_same]
    exact ⟨rfl, rfl, rfl⟩
  case offCheck =>
    intro active st check
    refine ⟨_, (exec_groupOffCheck active st check 0).trans (if_pos rfl), ?_⟩
    dsimp only
    rw [Fcu.driveGroup_groups, Fcu.modGrp_group_same]
  case toggle =>
    refine ⟨_, exec_toggleStop s l g, ?_⟩
    rw [State.setLane_lane_same]
  case energise =>
    intro two closed sound
    refine ⟨_, exec_vprEnergise ⟨two, closed, sound⟩, ?_⟩
    dsimp only
    rw [Fcu.driveGroup_groups, Fcu.modGrp_group_same]
    exact ⟨rfl, rfl⟩
  case warning =>
    intro low
    refine ⟨_, rfl, ?_⟩
    dsimp only
    rw [Fcu.modGrp_group_same]
    exact ⟨by simp [low], rfl⟩
  case laneLimit =>
    intro expired
    refine ⟨_, exec_degradeLimitLane_expires expired, ?_⟩
    rw [State.setLane_lane_same]
    simp

end Sys2Proof.Machine
end
